-- ==== Sys2Proof/Word.lean ====
section
/-! DEFINITION. The words of the model and the plainest arithmetic on them. -/

namespace Sys2Proof

/-- One byte. -/
abbrev Byte := BitVec 8

/-- One 64-bit word: a register, a command word, a fence value (spec/00 R15, little-endian in memory). -/
abbrev W64 := BitVec 64

/-- The low `n` bits of a number. -/
abbrev lowBits (n x : Nat) : Nat := x % 2 ^ n

end Sys2Proof
end

