-- ==== Sys2Proof/Config.lean ====
section
/-! DEFINITION. What an implementation fixes: the build parameters (spec/00 R6) and the values the spec leaves open, which nothing in the model can evaluate. -/

namespace Sys2Proof

/-- The build parameters of spec/00 R6. -/
structure Build where
  /-- GALLERY_HALLS -/
  halls : Nat
  /-- STATIONS -/
  stations : Nat
  /-- ENGINE_PORTS -/
  eports : Nat
  /-- LINKS -/
  links : Nat
  /-- ECHO -/
  echo : Bool
  deriving DecidableEq, Repr

/-- The permitted builds of spec/00 R6. -/
abbrev Build.Permitted (b : Build) : Prop :=
  (b.halls = 16 ∨ b.halls = 32 ∨ b.halls = 64) ∧ (b.stations = 32 ∨ b.stations = 64) ∧
  ¬ (b.halls = 16 ∧ b.stations = 64) ∧ 4 ≤ b.eports ∧ b.eports ≤ 32 ∧ b.links ≤ 6

/-- The reference configuration UZ4-R (spec/00 R6, R11). -/
def Build.uz4r : Build := ⟨32, 64, 24, 6, true⟩

/-- Islands of a build (spec/00 R10, spec/01 R21). -/
def Build.islands (b : Build) : Nat := 2 + b.halls + b.stations / 4 + b.links + b.echo.toNat

/-- Power domains of a build (spec/00 R10). -/
def Build.domains (b : Build) : Nat := 17 * b.halls + b.stations + b.links + b.echo.toNat + 30

/-- Bytes of the gallery of a build (spec/00 R10, spec/07 R180). -/
def Build.galleryBytes (b : Build) : Nat := b.halls * 8388608

/-! ### Domain numbers (spec/14 R372) -/

def Build.domLogic (b : Build) (h : Nat) : Nat := 16 * b.halls + h
def Build.domStation (b : Build) (n : Nat) : Nat := 17 * b.halls + n
def Build.domLink (b : Build) (l : Nat) : Nat := 17 * b.halls + b.stations + l
def Build.domEcho (b : Build) : Nat := 17 * b.halls + b.stations + b.links
def Build.domBank (b : Build) (k : Nat) : Nat := 17 * b.halls + b.stations + b.links + b.echo.toNat + k
def Build.domCore (b : Build) (k : Nat) : Nat := 17 * b.halls + b.stations + b.links + b.echo.toNat + 16 + k
def Build.domMisc (b : Build) (m : Nat) : Nat := 17 * b.halls + b.stations + b.links + b.echo.toNat + 22 + m

namespace Config

/-- FREE VALUE (log 3): a byte the spec leaves unspecified; the argument is the value of the state's `free` counter. -/
opaque freeByte : Nat → Byte

/-- FREE VALUE (log 3): a 64-bit word the spec leaves unspecified. -/
opaque freeWord : Nat → W64

/-- FREE VALUE (log 24): which result within the stated bound a vector function gives, by function and input bits: one fixed mapping (spec/08 R228). -/
opaque vfnPick : Nat → Nat → Nat

/-- FREE VALUE (log 3): the FP32 value that TOLONG adds for a cell of a wide tile, by the cell's accumulator: spec/08 R225 states one for a narrow tile only, and every result depends on its operands alone (spec/08 R235). -/
opaque tolongWide : Nat → Nat

/-- FREE VALUE (log 25): whether a fused multiply-add of zero, infinity and NaN sets INVALID, which IEEE 754-2019 leaves to the implementation (spec/08 R226, R234). -/
opaque fmaNanInvalid : Bool

/-- FREE VALUE (log 34): the island an on-block sensor lies in, a fixed property of a build (spec/14 R391, R399). -/
opaque sensIsland : Nat → Nat

/-- FREE VALUE (log 38): the four public key digests of the boot ROM, by KEYID (spec/15 R405, R406). -/
opaque romKey : Nat → Nat

/-- FREE VALUE (log 39): the manufacturer identity tied on T_MFRID (spec/18 R491). -/
opaque mfrId : Nat

end Config

end Sys2Proof
end

