-- ==== Sys2Proof/Machine/Types.lean ====
section
/-! DEFINITION. The plain data types of the block: keyed tables, codes of the spec, commands of the Ubzico command set (spec/03). -/

namespace Sys2Proof.Machine

/-- A table with Nat keys; an unlisted key reads as the default its reader names. -/
abbrev SMap (β : Type) := List (Nat × β)

/-- Responses of the H-port and the M-ports (spec/18 R477, R480). -/
inductive Resp where
  | okay | refused | dataerr
  deriving DecidableEq, Repr

/-- Completion statuses (spec/04 R112). -/
inductive Status where
  | done | aborted | malformed | xlateFault | timeout | watchdog | engineError | uncorrected | chamberDark
  | windowClosed | faultOverflow | partitionDisabled | collectiveRestarted | diverged | replayDiverged
  | unsupported | sealTimeout | fenceBackward
  deriving DecidableEq, Repr

/-- States of a queue (spec/02 R52). -/
inductive QState where
  | disabled | idle | active | draining | stoppedError | frozen
  deriving DecidableEq, Repr

/-- Kinds of a translation's outcome (spec/10 R275). -/
inductive XKind where
  | hit | notPresent | protection | mapError | route | noncanon
  deriving DecidableEq, Repr

/-- Where a translated part of an access goes (spec/10 R268, R272). -/
inductive Tgt where
  | mem (sec : Bool) (attr : Nat)
  | gallery
  | chip (c : Nat) (sec : Bool) (attr : Nat)
  deriving DecidableEq, Repr

/-- A translated piece of a range: offset from the start of the range, length, physical or gallery address, target. -/
structure Span where
  off : Nat
  len : Nat
  pa : Nat
  tgt : Tgt
  deriving DecidableEq, Repr

/-- Arithmetic and logic operations (spec/03 R76). -/
inductive AluOp where
  | add | sub | and | or | xor | shl | shr (ar : Bool)
  deriving DecidableEq, Repr

/-- A second operand: a register or a sign-extended immediate of 24 bits (spec/03 R76). -/
inductive Src where
  | reg (g : Nat)
  | imm (v : Nat)
  deriving DecidableEq, Repr

/-- A value of WAITGE, SIGNAL and MEMSIGNAL: in a register or in a word of the command. -/
inductive Val where
  | reg (g : Nat)
  | word (v : W64)
  deriving DecidableEq, Repr

/-- Forms of SIGNAL (spec/03 R80). -/
inductive SigForm where
  | set | add | max
  deriving DecidableEq, Repr

/-- The substitution word (spec/03 R84). -/
structure Subst where
  mask : Nat
  r1 : Nat
  r2 : Nat
  r3 : Nat
  r4 : Nat
  deriving DecidableEq, Repr

/-- The flags of word 0 that every command shares (spec/03 R66), without OP and WC. -/
structure Hdr where
  pc : Bool
  pn : Bool
  psel : Nat
  rpt : Nat
  rst : Bool
  deriving DecidableEq, Repr

/-- A decoded command of the Ubzico command set, with the fields its section of spec/03 gives it. -/
inductive Body where
  | nop (wc : Nat)
  | jump (off : Nat)
  | branch (cond ga gb off : Nat)
  | loop (gc off : Nat)
  | callp (parcel : Nat)
  | ret
  | movi (gd : Nat) (imm : Nat)
  | movil (gd : Nat) (imm : W64)
  | alu (op : AluOp) (gd ga : Nat) (b : Src)
  | cmp (cond pd ga : Nat) (b : Src) (comb : Nat)
  | ld (sp : Bool) (gd ga size off : Nat)
  | st (sp : Bool) (gs ga size off : Nat)
  | waitge (kind : Nat) (tcont : Bool) (pt : Option Nat) (timeout : Nat) (target : W64) (thr : Val)
  | signal (form : SigForm) (v : Val) (ph : Nat)
  | memsignal (max : Bool) (v : Val) (addr : W64)
  | barrier
  | launch (np pin : Bool) (port egrp maxdur : Nat) (payload : List W64) (subst : Option Subst)
  | dispatch (np : Bool) (egrp maxdur gx gy gz chunk : Nat) (payload : List W64) (subst : Option Subst)
  | tilepass (np : Bool) (egrp maxdur : Nat) (tlist : W64) (tx ty tbuf : Nat) (payload : List W64) (resolve : W64)
  | copy (ssp dsp trn sseal dseal : Bool) (len : Nat) (src dst : W64)
  | fill (sp : Bool) (plen len : Nat) (dst : W64) (pattern : List W64)
  | dma (ssp dsp sseal dseal : Bool) (src dst : W64) (sstride dstride rows rowbytes : Nat)
  | seal (perm peek full : Bool) (region base size : Nat)
  | unseal (region : Nat)
  | frank (read : Bool) (gd counter : Nat)
  | passage (np : Bool) (first cnt maxdur : Nat) (paddr : W64) (sp : Bool) (seed : W64)
  | pstop (first : Nat)
  | enqueue (tq : Nat) (src : W64)
  | collect (np : Bool) (op : Nat) (exact : Bool) (group maxdur : Nat) (src dst : W64)
      (count dtype redop : Nat) (ssp dsp : Bool) (root : Nat)
  | stamp (gd : Nat)
  | stampm (addr : W64)
  | snap (set : Nat) (addr : W64)
  | pdef (loc : Bool) (parcel : Nat) (src : W64) (len : Nat)
  | ppatch (gd off parcel : Nat) (src : W64) (count : Nat)
  | pfree (parcel : Nat)
  | xinval (scope seg ctx : Nat) (start len : W64)
  | phreset (ph : Nat) (value : W64)
  deriving DecidableEq, Repr

/-- Where a program's command stands: in the descriptor's buffer or in a parcel edition (spec/03 R62, spec/04 R123). -/
structure EdKey where
  part : Nat
  parcel : Nat
  gen : Nat
  ed : Nat
  deriving DecidableEq, Repr

/-- A return entry of the call stack (spec/03 R62, R74): where the caller runs and the word it returns to. -/
structure Frame where
  loc : Option EdKey
  pc : Nat
  /-- word offset of the CALLP made at depth 0 -/
  top : Nat
  deriving DecidableEq, Repr

/-- Placements of units of work (spec/04 R109). -/
inductive Place where
  | port (k : Nat)
  | courier (k : Nat)
  | nmu
  | stations (first n : Nat)
  | relay (k : Nat)
  deriving DecidableEq, Repr

end Sys2Proof.Machine
end

