-- ==== Sys2Proof/Syntax.lean ====
section
/-! DEFINITION. The commands of the block: one constructor for each row of spec/opcode_table.json; each docstring names the row and the rule of spec/ that gives it. -/

namespace Sys2Proof

/-- The commands: what happens at the block's ports, on its register path, and in its engines. -/
inductive Instr where
  /-- DOORBELL_WRITE (R44) -/
  | doorbellWrite (p : Nat) (off : Nat)
  /-- ENABLE (R52) -/
  | enable (q : Nat) (off : Nat)
  /-- DISABLE_DRAIN (R56) -/
  | disableDrain (q : Nat) (off : Nat)
  /-- DISABLE_ABORT (R57) -/
  | disableAbort (q : Nat) (off : Nat)
  /-- RESUME (R55) -/
  | resume (q : Nat) (off : Nat)
  /-- QE_CQ_HEAD_WRITE (R50) -/
  | qeCqHeadWrite (q : Nat) (off : Nat) (head : Nat)
  /-- BATCH_READ_ISSUE (R42) -/
  | batchReadIssue
  /-- SCAN (R42) -/
  | scan (tag : Nat) (resp : Machine.Resp) (data : List Byte)
  /-- DESCRIPTOR_START (R108) -/
  | descriptorStart (q : Nat)
  /-- RECORD_WRITE_RESPONSE (R28) -/
  | recordWriteResponse (tag : Nat) (resp : Machine.Resp)
  /-- NOP (R74) -/
  | nop (q : Nat)
  /-- JUMP (R74) -/
  | jump (q : Nat)
  /-- BRANCH (R74) -/
  | branch (q : Nat)
  /-- LOOP (R74) -/
  | loop (q : Nat)
  /-- CALLP (R74) -/
  | callp (q : Nat)
  /-- RET (R74) -/
  | ret (q : Nat)
  /-- MOVI (R75) -/
  | movi (q : Nat)
  /-- ADD (R76) -/
  | add (q : Nat)
  /-- SUB (R76) -/
  | sub (q : Nat)
  /-- AND (R76) -/
  | and (q : Nat)
  /-- OR (R76) -/
  | or (q : Nat)
  /-- XOR (R76) -/
  | xor (q : Nat)
  /-- SHL (R76) -/
  | shl (q : Nat)
  /-- SHR (R76) -/
  | shr (q : Nat)
  /-- CMP (R77) -/
  | cmp (q : Nat)
  /-- LD (R78) -/
  | ld (q : Nat)
  /-- ST (R78) -/
  | st (q : Nat)
  /-- WAITGE (R79) -/
  | waitge (q : Nat)
  /-- SIGNAL (R80) -/
  | signal (q : Nat)
  /-- MEMSIGNAL (R81) -/
  | memsignal (q : Nat)
  /-- BARRIER (R82) -/
  | barrier (q : Nat)
  /-- LAUNCH (R85) -/
  | launch (q : Nat)
  /-- DISPATCH (R86) -/
  | dispatch (q : Nat)
  /-- TILEPASS (R87) -/
  | tilepass (q : Nat)
  /-- COPY (R88) -/
  | copy (q : Nat)
  /-- FILL (R88) -/
  | fill (q : Nat)
  /-- DMA (R88) -/
  | dma (q : Nat)
  /-- SEAL (R90) -/
  | seal (q : Nat)
  /-- UNSEAL (R90) -/
  | unseal (q : Nat)
  /-- FRANK (R91) -/
  | frank (q : Nat)
  /-- PASSAGE (R92) -/
  | passage (q : Nat)
  /-- PSTOP (R93) -/
  | pstop (q : Nat)
  /-- ENQUEUE (R119) -/
  | enqueue (q : Nat)
  /-- ENQUEUE_SPACE_AVAILABLE (R119) -/
  | enqueueSpaceAvailable (q : Nat)
  /-- ENQUEUE_IMAGE_WRITE_RESPONSE (R119) -/
  | enqueueImageWriteResponse (tag : Nat) (resp : Machine.Resp)
  /-- COLLECT (R95) -/
  | collect (q : Nat)
  /-- STAMP (R96) -/
  | stamp (q : Nat)
  /-- SNAP (R97) -/
  | snap (q : Nat)
  /-- PDEF (R98) -/
  | pdef (q : Nat)
  /-- PPATCH (R98) -/
  | ppatch (q : Nat)
  /-- PFREE (R98) -/
  | pfree (q : Nat)
  /-- PARCEL_CLAIM (R124) -/
  | parcelClaim (p : Nat) (n : Nat)
  /-- PUBLICATION (R124) -/
  | publication (p : Nat) (n : Nat)
  /-- EDITION_PIN (R125) -/
  | editionPin (q : Nat)
  /-- XINVAL (R99) -/
  | xinval (q : Nat)
  /-- PHRESET (R100) -/
  | phreset (q : Nat)
  /-- UNIT_ADMISSION (R170) -/
  | unitAdmission (courier : Nat)
  /-- COMPLETION_ITEM (R484) -/
  | completionItem (k : Nat) (w0 : W64) (w1 : W64) (w2 : W64) (w3 : W64)
  /-- TILE_LAUNCH_START (R134) -/
  | tileLaunchStart (q : Nat)
  /-- TILE_RESOLVE_WRITE (R135) -/
  | tileResolveWrite (q : Nat) (courier : Nat)
  /-- COLLECTIVE_END (R104) -/
  | collectiveEnd (q : Nat)
  /-- MIGRATION (R127) -/
  | migration (q : Nat) (kind : Nat) (old : Nat) (new : Nat)
  /-- LINK_SIGNAL_ARRIVAL (R153) -/
  | linkSignalArrival (src : Nat) (w0 : W64) (value : W64)
  /-- WAITGE_TIMEOUT_EXPIRY (R145) -/
  | waitgeTimeoutExpiry (q : Nat)
  /-- WATCH_FREE (R147) -/
  | watchFree
  /-- WATCH_READ_RETURN (R148) -/
  | watchReadReturn (tag : Nat) (resp : Machine.Resp) (data : List Byte)
  /-- FENCE_DOORBELL (R150) -/
  | fenceDoorbell (p : Nat)
  /-- POLL_INTERVAL_EXPIRY (R148) -/
  | pollIntervalExpiry (w : Nat)
  /-- WAIT_CYCLE_SCAN (R156) -/
  | waitCycleScan (p : Nat) (texts : List (Nat × List W64))
  /-- PIGEONHOLE_SCRUB_STEP (R142) -/
  | pigeonholeScrubStep (n : Nat)
  /-- WAITREQ (R486) -/
  | waitreq (k : Nat) (w0 : W64) (w1 : W64)
  /-- WAITCANCEL (R486) -/
  | waitcancel (k : Nat) (w0 : W64)
  /-- PH_ALLOTMENT_WRITE (R141) -/
  | phAllotmentWrite (p : Nat) (limit : Bool) (value : Nat)
  /-- PH_LINK_WRITE (R153) -/
  | phLinkWrite (i : Nat) (value : Nat)
  /-- WINDOW_BOUNDARY (R165) -/
  | windowBoundary
  /-- MAJOR_CYCLE_BOUNDARY (R166) -/
  | majorCycleBoundary
  /-- SWAP (R166) -/
  | swap
  /-- CANCEL (R166) -/
  | cancel
  /-- EXCLUSIVE_RUN_END (R175) -/
  | exclusiveRunEnd
  /-- WATCHDOG_EXPIRY (R176) -/
  | watchdogExpiry (u : Nat)
  /-- ENGINE_RESET_LIMIT_EXPIRY (R176) -/
  | engineResetLimitExpiry (k : Nat)
  /-- HALL_SLOT_ACCESS (R190) -/
  | hallSlotAccess (h : Nat)
  /-- FRANK_COUNTER_INCREMENT (R200) -/
  | frankCounterIncrement
  /-- GATHER_ENTRY_DUE (R193) -/
  | gatherEntryDue (req : Nat) (line : Nat)
  /-- CHANGE_OF_OWNER (R185) -/
  | changeOfOwner (blk : Nat) (value : Nat)
  /-- OWNER_SCRUB_DONE (R185) -/
  | ownerScrubDone (blk : Nat)
  /-- WHEEL_SWAP (R188) -/
  | wheelSwap (h : Nat)
  /-- WHEEL_CANCEL (R188) -/
  | wheelCancel (h : Nat)
  /-- TURN_BOUNDARY (R188) -/
  | turnBoundary (h : Nat)
  /-- DROP_WINDOW_OPEN (R199) -/
  | dropWindowOpen (p : Nat) (value : Nat)
  /-- DROP_WINDOW_CLOSE (R199) -/
  | dropWindowClose (p : Nat) (value : Nat)
  /-- FORCE_CLOSE (R199) -/
  | forceClose (w : Nat)
  /-- DISARM (R194) -/
  | disarm (rg : Nat)
  /-- GAL_FRANK_PART_WRITE (R198) -/
  | galFrankPartWrite (p : Nat) (value : Nat)
  /-- GAL_HOST_DATA_ACCESS (R184) -/
  | galHostDataAccess (wr : Bool) (value : W64)
  /-- GAL_PW_DATA_ACCESS (R184) -/
  | galPwDataAccess (p : Nat) (wr : Bool) (value : W64)
  /-- GAL_CPWR_REQ_WRITE (R204) -/
  | galCpwrReqWrite (h : Nat) (value : Nat)
  /-- CHAMBER_OPENING_END (R205) -/
  | chamberOpeningEnd (h : Nat) (c : Nat)
  /-- CHAMBER_ZEROING_END (R205) -/
  | chamberZeroingEnd (h : Nat) (c : Nat)
  /-- PATROL_PASS_START (R203) -/
  | patrolPassStart
  /-- STATION_LOADED (R258) -/
  | stationLoaded (first : Nat) (pos : Nat)
  /-- STATION_END (R259) -/
  | stationEnd (first : Nat) (pos : Nat)
  /-- STREAM_FAILURE_REPORT (R260) -/
  | streamFailureReport (first : Nat)
  /-- STN_NOP (R251) -/
  | stnNop (n : Nat)
  /-- END (R259) -/
  | end_ (n : Nat)
  /-- STN_LOOP (R251) -/
  | stnLoop (n : Nat)
  /-- XMOVI (R251) -/
  | xmovi (n : Nat)
  /-- XADD (R251) -/
  | xadd (n : Nat)
  /-- XFLG (R251) -/
  | xflg (n : Nat)
  /-- FSTART (R252) -/
  | fstart (n : Nat)
  /-- FPOP (R252) -/
  | fpop (n : Nat)
  /-- ESTART (R252) -/
  | estart (n : Nat)
  /-- EPUSH (R252) -/
  | epush (n : Nat)
  /-- EWAIT (R252) -/
  | ewait (n : Nat)
  /-- TCLR (R253) -/
  | tclr (n : Nat)
  /-- MMA (R253) -/
  | mma (n : Nat)
  /-- EMIT (R253) -/
  | emit (n : Nat)
  /-- VADD (R254) -/
  | vadd (n : Nat)
  /-- VSUB (R254) -/
  | vsub (n : Nat)
  /-- VMUL (R254) -/
  | vmul (n : Nat)
  /-- VFMA (R254) -/
  | vfma (n : Nat)
  /-- VMIN (R254) -/
  | vmin (n : Nat)
  /-- VMAX (R254) -/
  | vmax (n : Nat)
  /-- VCMP (R254) -/
  | vcmp (n : Nat)
  /-- VSEL (R254) -/
  | vsel (n : Nat)
  /-- VAND (R254) -/
  | vand (n : Nat)
  /-- VOR (R254) -/
  | vor (n : Nat)
  /-- VXOR (R254) -/
  | vxor (n : Nat)
  /-- VSHL (R254) -/
  | vshl (n : Nat)
  /-- VSHR (R254) -/
  | vshr (n : Nat)
  /-- VCVT (R254) -/
  | vcvt (n : Nat)
  /-- VFN (R254) -/
  | vfn (n : Nat)
  /-- VSUM (R254) -/
  | vsum (n : Nat)
  /-- VBC (R254) -/
  | vbc (n : Nat)
  /-- RCLR (R255) -/
  | rclr (n : Nat)
  /-- RADD (R255) -/
  | radd (n : Nat)
  /-- TOLONG (R255) -/
  | tolong (n : Nat)
  /-- RESOLVE (R255) -/
  | resolve (n : Nat)
  /-- EXPORT (R255) -/
  | export_ (n : Nat)
  /-- IMPORT (R255) -/
  | import_ (n : Nat)
  /-- TRANSLATION_REQUEST (R280) -/
  | translationRequest (k : Nat) (utag : Nat) (rtag : Nat) (ctx : Nat) (va : Nat) (acc : Nat)
  /-- INVALIDATION_GO (R285) -/
  | invalidationGo (p : Nat) (value : Nat)
  /-- INVALIDATION_BEGIN (R282) -/
  | invalidationBegin
  /-- DRAINED (R282) -/
  | drained (k : Nat) (ctx : Nat) (epoch : Nat)
  /-- INVALIDATION_COMPLETE (R282) -/
  | invalidationComplete (id : Nat)
  /-- ELIMIT_EXPIRY (R284) -/
  | elimitExpiry (id : Nat) (k : Nat)
  /-- PAGE_FAULT (R286) -/
  | pageFault
  /-- RETRY (R287) -/
  | retry (p : Nat) (value : Nat)
  /-- FAIL (R287) -/
  | fail (p : Nat) (value : Nat)
  /-- SET_ASIDE_LIMIT_EXPIRY (R288) -/
  | setAsideLimitExpiry (q : Nat)
  /-- ACCESS_COUNTER_DECAY (R290) -/
  | accessCounterDecay
  /-- XLT_MIGR_POP (R290) -/
  | xltMigrPop
  /-- XLT_CTX_WRITE (R266) -/
  | xltCtxWrite (ctx : Nat) (word : Nat) (value : Nat)
  /-- LINK_ENABLE (R301) -/
  | linkEnable (l : Nat)
  /-- PARK (R301) -/
  | park (l : Nat)
  /-- LINK_DISABLE (R301) -/
  | linkDisable (l : Nat)
  /-- ADAPTER_LINK_UP (R301) -/
  | adapterLinkUp (l : Nat)
  /-- ADAPTER_LINK_DOWN (R309) -/
  | adapterLinkDown (l : Nat)
  /-- NEG (R302) -/
  | neg (l : Nat) (w0 : W64) (w1 : W64)
  /-- NEGOTIATION_TIMEOUT (R302) -/
  | negotiationTimeout (l : Nat)
  /-- PARK_RECEIVED (R301) -/
  | parkReceived (l : Nat)
  /-- FLIT_RECEIVE (R297) -/
  | flitReceive (l : Nat) (flit : List Byte)
  /-- MRD (R306) -/
  | mrd (l : Nat) (hdr : W64) (addr : W64)
  /-- MWR (R306) -/
  | mwr (l : Nat) (hdr : W64) (addr : W64) (data : List Byte)
  /-- PHSIG (R300) -/
  | phsig (l : Nat) (hdr : W64) (w0 : W64) (value : W64)
  /-- COLL (R322) -/
  | coll (l : Nat) (hdr : W64) (w0 : W64) (data : List Byte)
  /-- CBRK (R325) -/
  | cbrk (l : Nat) (hdr : W64) (w0 : W64)
  /-- RDATA (R308) -/
  | rdata (l : Nat) (hdr : W64) (w1 : W64) (data : List Byte)
  /-- WACK (R308) -/
  | wack (l : Nat) (hdr : W64) (w1 : W64)
  /-- ROUTE_HOLD_EXPIRY (R309) -/
  | routeHoldExpiry (tag : Nat)
  /-- TSYNC_EXCHANGE (R312) -/
  | tsyncExchange
  /-- TSYNC_RESPONSE (R312) -/
  | tsyncResponse (l : Nat) (t1 : Nat) (t2 : Nat) (t3 : Nat)
  /-- TSYNC_LOSS (R314) -/
  | tsyncLoss
  /-- FAB_GRP_WRITE (R316) -/
  | fabGrpWrite (g : Nat) (value : Nat)
  /-- STEPLIM_EXPIRY (R325) -/
  | steplimExpiry (q : Nat)
  /-- PAIR_MIRROR (R334) -/
  | pairMirror
  /-- PAIR_COMPARE (R334) -/
  | pairCompare
  /-- SOLO (R350) -/
  | solo
  /-- ECHO_FLIT_RECEIVE (R330) -/
  | echoFlitReceive (flit : List Byte)
  /-- ECHO_RESEND_EXPIRY (R330) -/
  | echoResendExpiry
  /-- HEARTBEAT (R337) -/
  | heartbeat (mode : Nat) (role : Nat) (tb : Bool) (healthy : Bool)
  /-- HEARTBEAT_SEND (R337) -/
  | heartbeatSend
  /-- QSTATE (R337) -/
  | qstate (q : Nat) (qst : Nat) (pend : Bool) (sq : Nat) (cq : Nat) (head : Nat) (pr : Nat) (pc : Nat) (epoch : Nat) (g : List W64) (loc : Option Machine.EdKey) (stack : List Machine.Frame)
  /-- PHVAL (R337) -/
  | phval (ph : Nat) (v : W64)
  /-- FKVAL (R337) -/
  | fkval (c : Nat) (v : W64)
  /-- LINE (R337) -/
  | line (addr : Nat) (data : List Byte) (full : Bool)
  /-- PARCEL (R337) -/
  | parcel (p : Nat) (n : Nat) (gen : Nat) (ed : Nat) (dram : Bool) (addr : Nat) (len : Nat) (freed : Bool)
  /-- SEALREG (R337) -/
  | sealreg (rg : Nat) (base : Nat) (size : Nat) (mode : Nat)
  /-- HINGE (R342) -/
  | hinge (q : Nat) (sq : Nat) (ord : Nat) (hst : Nat) (res : W64) (tq : Nat) (pcount : Nat)
  /-- DECISION (R346) -/
  | decision (w0 : W64) (w1 : W64) (w2 : W64) (w3 : W64)
  /-- HOSTWR (R337) -/
  | hostwr (q : Nat) (isHead : Bool) (head : Nat)
  /-- RETIRE (R339) -/
  | retire (q : Nat) (sq : Nat) (ord : Nat)
  /-- DIGEST (R348) -/
  | digest (q : Nat) (sq : Nat) (ord : Nat) (dig : W64)
  /-- HEARTBEAT_LOSS (R343) -/
  | heartbeatLoss
  /-- DIGEST_WAIT_EXPIRY (R349) -/
  | digestWaitExpiry (q : Nat) (sq : Nat) (ord : Nat)
  /-- TIEBREAK_RISE (R343) -/
  | tiebreakRise
  /-- TIEBREAK_FALL (R332) -/
  | tiebreakFall
  /-- FAULT_RAISED (R357) -/
  | faultRaised
  /-- FAULT_RING_WRITE_ERROR (R364) -/
  | faultRingWriteError (tag : Nat)
  /-- LATCH_ACKNOWLEDGE (R360) -/
  | latchAcknowledge (grp : Nat) (cls : Nat)
  /-- AUTOACK_EXPIRY (R360) -/
  | autoackExpiry (grp : Nat)
  /-- FAULT_RING_HEAD_WRITE (R365) -/
  | faultRingHeadWrite (r : Nat) (head : Nat)
  /-- HOLD_BUDGET_EXPIRY (R365) -/
  | holdBudgetExpiry (id : Nat)
  /-- FAULT_RING_DEAD_WRITE (R365) -/
  | faultRingDeadWrite (r : Nat)
  /-- FATAL_HALT (R366) -/
  | fatalHalt
  /-- LANTERN_PERIOD (R367) -/
  | lanternPeriod
  /-- HEALTH_ECHO (R367) -/
  | healthEcho
  /-- FLT_INJ_ARM (R369) -/
  | fltInjArm (value : Nat)
  /-- POWER_ACTIVE (R376) -/
  | powerActive
  /-- POWER_IDLE (R376) -/
  | powerIdle
  /-- NAP (R378) -/
  | nap
  /-- DORMANT (R378) -/
  | dormant
  /-- WAKE (R381) -/
  | wake (src : Nat)
  /-- WAKE_TIMER (R380) -/
  | wakeTimer
  /-- LWAKE (R380) -/
  | lwake (l : Nat)
  /-- PWAKE (R380) -/
  | pwake
  /-- ISLAND_GATE (R376) -/
  | islandGate (i : Nat)
  /-- DOMAIN_ACK (R373) -/
  | domainAck (d : Nat)
  /-- DOMAIN_TIMEOUT (R373) -/
  | domainTimeout (d : Nat)
  /-- DOMAIN_RETRY (R373) -/
  | domainRetry (d : Nat)
  /-- PWR_DOM_FAILED_WRITE (R373) -/
  | pwrDomFailedWrite (d : Nat)
  /-- GOVERNOR_INTERVAL (R385) -/
  | governorInterval
  /-- FORECAST_PUBLICATION (R388) -/
  | forecastPublication
  /-- THERMAL_MODEL_STEP (R397) -/
  | thermalModelStep
  /-- SENSOR_SAMPLE (R393) -/
  | sensorSample (n : Nat) (temp : Nat)
  /-- EXTERNAL_SAMPLE (R391) -/
  | externalSample (n : Nat) (temp : Nat)
  /-- EXTERNAL_SENSOR_TIMEOUT (R391) -/
  | externalSensorTimeout (n : Nat)
  /-- SUPPLY_LOW_RISE (R394) -/
  | supplyLowRise
  /-- SUPPLY_LOW_FALL (R395) -/
  | supplyLowFall
  /-- PCEIL_CHANGE (R384) -/
  | pceilChange (ceil : Nat) (slew : Nat)
  /-- FALLBACK_RAMP_STEP (R396) -/
  | fallbackRampStep
  /-- FW_VAULT_DATA_ACCESS (R403) -/
  | fwVaultDataAccess (wr : Bool) (value : W64)
  /-- VAULT_ZEROED (R403) -/
  | vaultZeroed
  /-- GO (R407) -/
  | go (value : Nat)
  /-- VERIFICATION_DONE (R408) -/
  | verificationDone
  /-- CORE_WATCHDOG_EXPIRY (R414) -/
  | coreWatchdogExpiry (k : Nat)
  /-- CORE_CRASH (R415) -/
  | coreCrash (k : Nat) (cause : Nat)
  /-- LOCKSTEP (R414) -/
  | lockstep
  /-- CORE_RELOAD_COMPLETE (R415) -/
  | coreReloadComplete (k : Nat)
  /-- STAGE (R421) -/
  | stage
  /-- UPDATE_CANCEL (R423) -/
  | updateCancel
  /-- QUIET_POINT (R424) -/
  | quietPoint
  /-- POSTMARK (R412) -/
  | postmark (core : Nat) (level : Nat) (point : Nat) (a0 : W64) (a1 : W64)
  /-- PARTITION_ENABLE (R427) -/
  | partitionEnable (p : Nat)
  /-- PARTITION_DISABLE_DRAIN (R435) -/
  | partitionDisableDrain (p : Nat)
  /-- PARTITION_DISABLE_ABORT (R436) -/
  | partitionDisableAbort (p : Nat)
  /-- DISABLE_STEP_END (R435) -/
  | disableStepEnd (p : Nat)
  /-- DRAINLIM_EXPIRY (R436) -/
  | drainlimExpiry (p : Nat)
  /-- MAILBOX_SEND (R434) -/
  | mailboxSend (p : Nat)
  /-- MAILBOX_CHECK (R434) -/
  | mailboxCheck (p : Nat)
  /-- REPLY (R434) -/
  | reply (p : Nat)
  /-- ACK (R434) -/
  | ack (p : Nat)
  /-- CMT_ARM (R440) -/
  | cmtArm (value : Nat)
  /-- CMT_COMMIT (R440) -/
  | cmtCommit (value : Nat)
  /-- K_ACK (R490) -/
  | kAck (value : W64) (err : Bool)
  /-- LANE_REPAIR (R443) -/
  | laneRepair (l : Nat) (rep : Nat)
  /-- OBS_PLC_TIME_READ (R452) -/
  | obsPlcTimeRead (k : Nat)
  /-- OBS_PW_CTL_WRITE (R451) -/
  | obsPwCtlWrite (p : Nat) (value : Nat)
  /-- TRACE_SAMPLE (R453) -/
  | traceSample
  /-- LETTERBOOK_RECORD (R455) -/
  | letterbookRecord
  /-- LETTERBOOK_HEAD_WRITE (R457) -/
  | letterbookHeadWrite (head : Nat)
  /-- REPLAY_GO (R461) -/
  | replayGo
  /-- REPLAY_STOP (R464) -/
  | replayStop
  /-- REPLAY_WAIT_EXPIRY (R463) -/
  | replayWaitExpiry (q : Nat)
  /-- PORESET_N (R471) -/
  | poresetN
  /-- WRESET_N (R471) -/
  | wresetN
  /-- SAFE_RESET_N (R471) -/
  | safeResetN
  /-- RESET_RELEASE (R494) -/
  | resetRelease
  /-- TRST_N (R470) -/
  | trstN
  /-- H_PORT_REQUEST (R476) -/
  | hPortRequest (off : Nat) (wr : Bool) (len : Nat) (strb : Nat) (data : List Byte)
  /-- M_PORT_READ_DATA (R481) -/
  | mPortReadData (tag : Nat) (resp : Machine.Resp) (data : List Byte)
  /-- M_PORT_WRITE_RESPONSE (R481) -/
  | mPortWriteResponse (tag : Nat) (resp : Machine.Resp)
  /-- GALLERY_REQUEST (R485) -/
  | galleryRequest (k : Nat) (utag : Nat) (gtag : Nat) (addr : Nat) (col : Bool) (mask : Nat) (wr : Bool) (sealed : Bool) (trn : Bool) (data : List Byte)
  /-- CAPS (R486) -/
  | caps (k : Nat) (w0 : W64)
  /-- READY (R486) -/
  | ready (k : Nat)
  /-- REGISTER_WRITE (R500) -/
  | registerWrite (off : Nat) (value : Nat)
  /-- FABRIC_TIME_ADVANCE (R310) -/
  | fabricTimeAdvance
  /-- ECHO_LINK_UP (R335) -/
  | echoLinkUp (ident : W64) (edition : Nat) (cfg : W64) (tb : Bool) (sec : Bool)
  /-- LEVEL_GRANT (R489) -/
  | levelGrant (i : Nat)
  /-- M_PORT_ERROR_ITEM (R481) -/
  | mPortErrorItem (port : Nat) (addr : Nat)
  /-- BUS_ERROR_ADDR_WAIT_EXPIRY (R481) -/
  | busErrorAddrWaitExpiry (tag : Nat)
  /-- TAP_ACCESS (R491) -/
  | tapAccess (ir : Nat) (inst : Nat) (off : Nat) (wr : Bool) (value : W64)
  /-- REMOVAL_OF_POWER (R472) -/
  | removalOfPower
  deriving DecidableEq, Repr

end Sys2Proof
end

