-- ==== Sys2Proof/Machine/Arith.lean ====
section
/-! DEFINITION. The arithmetic of a station (spec/08): number formats, rounding, conversions, the accumulators of the array and of the reducer, the functions of the vector unit. -/

namespace Sys2Proof.Machine

/-! ### Values and formats (spec/08 R211 to R214) -/

/-- A value: NaN, an infinity, or (−1)^neg × m × 2^e. -/
inductive FV where
  | nan
  | inf (neg : Bool)
  | fin (neg : Bool) (m : Nat) (e : Int)
  deriving DecidableEq, Repr

/-- Element formats. -/
inductive Fmt where
  | fp32 | fp16 | bf16 | e5m2 | e4m3 | e3m2 | e2m3 | e2m1 | int32 | int16 | int8 | int4 | u4 | u8
  deriving DecidableEq, Repr

/-- Width in bits. -/
def Fmt.width : Fmt → Nat
  | .fp32 | .int32 => 32
  | .fp16 | .bf16 | .int16 => 16
  | .e5m2 | .e4m3 | .int8 | .u8 => 8
  | .e3m2 | .e2m3 => 6
  | .e2m1 | .int4 | .u4 => 4

/-- Exponent bits, fraction bits and bias of a floating-point format. -/
def Fmt.layout : Fmt → Nat × Nat × Nat
  | .fp32 => (8, 23, 127)
  | .fp16 => (5, 10, 15)
  | .bf16 => (8, 7, 127)
  | .e5m2 => (5, 2, 15)
  | .e4m3 => (4, 3, 7)
  | .e3m2 => (3, 2, 3)
  | .e2m3 => (2, 3, 1)
  | .e2m1 => (2, 1, 1)
  | _ => (0, 0, 0)

def Fmt.isFloat : Fmt → Bool
  | .int32 | .int16 | .int8 | .int4 | .u4 | .u8 => false
  | _ => true

def Fmt.hasInf : Fmt → Bool
  | .fp32 | .fp16 | .bf16 | .e5m2 => true
  | _ => false

def Fmt.unsigned : Fmt → Bool
  | .u4 | .u8 => true
  | _ => false

/-- The largest finite value's encoding without its sign. -/
def Fmt.maxBits : Fmt → Nat
  | .fp32 => 0x7F7FFFFF | .fp16 => 0x7BFF | .bf16 => 0x7F7F | .e5m2 => 0x7B | .e4m3 => 0x7E | .e3m2 => 0x1F | .e2m3 => 0x1F
  | .e2m1 => 0x7 | .int32 => 0x7FFFFFFF | .int16 => 0x7FFF | .int8 => 0x7F | .int4 => 7 | .u4 => 15 | .u8 => 255

/-- The encoding of infinity without its sign. -/
def Fmt.infBits : Fmt → Nat
  | .fp32 => 0x7F800000 | .fp16 => 0x7C00 | .bf16 => 0x7F80 | _ => 0x7C

/-- The canonical NaN of a format that has one (spec/08 R212). -/
def Fmt.nanBits : Fmt → Nat
  | .fp32 => 0x7FC00000 | .fp16 => 0x7E00 | .bf16 => 0x7FC0 | .e5m2 => 0x7E | .e4m3 => 0x7F | _ => 0

/-- The sign bit's value. -/
def Fmt.signBit (f : Fmt) (neg : Bool) : Nat := if neg then 2 ^ (f.width - 1) else 0

/-- An integer as a value. -/
def ofInt (v : Int) : FV := .fin (decide (v < 0)) v.natAbs 0

/-- The two's-complement value of an encoding. -/
def toSigned (w n : Nat) : Int := if n % 2 ^ w < 2 ^ (w - 1) then (n % 2 ^ w : Nat) else (n % 2 ^ w : Nat) - (2 ^ w : Nat)

/-- The value of an encoding (spec/08 R211 to R213). -/
def Fmt.decode (f : Fmt) (n : Nat) : FV :=
  if f.isFloat then
    let (eb, fb, bias) := f.layout
    let x := n % 2 ^ f.width
    let neg := x.testBit (f.width - 1)
    let e := x / 2 ^ fb % 2 ^ eb
    let m := x % 2 ^ fb
    if f.hasInf ∧ e = 2 ^ eb - 1 then (if m = 0 then .inf neg else .nan)
    else if f = .e4m3 ∧ e = 15 ∧ m = 7 then .nan
    else if e = 0 then .fin neg m (1 - (bias : Int) - fb)
    else .fin neg (2 ^ fb + m) ((e : Int) - bias - fb)
  else if f.unsigned then .fin false (n % 2 ^ f.width) 0
  else ofInt (toSigned f.width n)

/-! ### Rounding (spec/08 R215, R216) -/

inductive Rnd where
  | rne | rtz | sr (bits : Nat)
  deriving DecidableEq, Repr

/-- The 32 random bits of stochastic rounding (spec/08 R216). -/
def srBits (seed : Nat) (tag index : Nat) : Nat :=
  let m := 2 ^ 64
  let z := (seed % m) ^^^ (tag % 65536 * 2 ^ 48) ^^^ (index % 2 ^ 48)
  let z := (z ^^^ (z / 2 ^ 30)) * 0xBF58476D1CE4E5B9 % m
  let z := (z ^^^ (z / 2 ^ 27)) * 0x94D049BB133111EB % m
  let z := z ^^^ (z / 2 ^ 31)
  z / 2 ^ 32

/-- m × 2^e rounded to a multiple of 2^q: the multiple and whether it is exact. -/
def roundTo (md : Rnd) (m : Nat) (e q : Int) : Nat × Bool :=
  if q ≤ e then (m * 2 ^ (e - q).toNat, true)
  else
    let d := (q - e).toNat
    let a := m / 2 ^ d
    let r := m % 2 ^ d
    let up := match md with
      | .rne => decide (2 ^ d < 2 * r) || (2 * r == 2 ^ d && a % 2 == 1)
      | .rtz => false
      | .sr b => decide (2 ^ 32 ≤ r * 2 ^ 32 / 2 ^ d + b)
    (if up then a + 1 else a, r == 0)

/-- Flags of spec/08 R234, in the bit order of STN_AFLAGS. -/
def fInvalid : Nat := 1
def fOverflow : Nat := 2
def fUnderflow : Nat := 4
def fSaturate : Nat := 8
def fRange : Nat := 16
def fAlign : Nat := 32

/-- The encoding of a × 2^q, which fits the format's precision. -/
def encodeFin (f : Fmt) (neg : Bool) (a : Nat) (q : Int) : Nat :=
  let (_, fb, bias) := f.layout
  if a = 0 then f.signBit neg
  else
    let top := q + a.log2
    let emin : Int := 1 - bias
    if top < emin then f.signBit neg + (a * 2 ^ (q - (emin - fb)).toNat)
    else
      let sig := if a.log2 ≤ fb then a * 2 ^ (fb - a.log2) else a / 2 ^ (a.log2 - fb)
      f.signBit neg + (top + bias).toNat * 2 ^ fb + (sig - 2 ^ fb)

/-- A value beyond the largest finite, in a format: (encoding, flags). -/
def overflowTo (f : Fmt) (neg sat : Bool) : Nat × Nat :=
  if f = .e4m3 ∧ sat = false then (f.nanBits, fOverflow)
  else if f.hasInf ∧ ¬ (f = .e5m2 ∧ sat) then (f.signBit neg + f.infBits, fOverflow)
  else (f.signBit neg + f.maxBits, fOverflow)

/-- The smallest and largest values of an integer format. -/
def Fmt.intRange (f : Fmt) : Int × Int :=
  if f.unsigned then (0, (2 ^ f.width : Nat) - 1) else (-(2 ^ (f.width - 1) : Nat), (2 ^ (f.width - 1) : Nat) - 1)

/-- An integer limited to a format. -/
def limitInt (f : Fmt) (v : Int) : Nat × Nat :=
  let (lo, hi) := f.intRange
  let w := if v < lo then lo else if hi < v then hi else v
  ((w % (2 ^ f.width : Nat)).toNat, if w = v then 0 else fSaturate)

/-- Conversion of a value to a format (spec/08 R217): encoding and flags. SAT applies to FP8 targets only. -/
def convert (f : Fmt) (md : Rnd) (sat : Bool) (v : FV) : Nat × Nat :=
  let sat := sat && (f == .e5m2 || f == .e4m3)
  match v with
  | .nan => match f with
    | .fp32 | .fp16 | .bf16 | .e5m2 | .e4m3 => (f.nanBits, 0)
    | _ => (0, fInvalid)
  | .inf neg =>
    if f.isFloat = false then
      let (lo, hi) := f.intRange
      (((if neg then lo else hi) % (2 ^ f.width : Nat)).toNat, fSaturate)
    else if f = .e4m3 ∧ sat = false then (f.nanBits, fInvalid)
    else if f.hasInf ∧ sat = false then (f.signBit neg + f.infBits, 0)
    else (f.signBit neg + f.maxBits, fSaturate)
  | .fin neg m e =>
    if f.isFloat = false then
      let (a, _) := roundTo md m e 0
      limitInt f (if neg then -(a : Int) else a)
    else if m = 0 then (f.signBit neg, 0)
    else
      let (_, fb, bias) := f.layout
      let top := e + m.log2
      let q := max (top - fb) (1 - (bias : Int) - fb)
      let (a, exact) := roundTo md m e q
      -- compares a × 2^q with the largest finite value
      let mx := f.decode f.maxBits
      let past := match mx with
        | .fin _ mm me => if q ≤ me then decide (mm * 2 ^ (me - q).toNat < a) else decide (mm < a * 2 ^ (q - me).toNat)
        | _ => false
      -- RTZ gives the largest finite value; the exception is an overflow all the same (log 110)
      if past then
        (match md with
          | .rtz => (f.signBit neg + f.maxBits, fOverflow)
          | _ => overflowTo f neg sat)
      else
        let n := encodeFin f neg a q
        let tiny := exact = false ∧ n % 2 ^ (f.width - 1) < 2 ^ fb
        (n, if tiny then fUnderflow else 0)

/-! ### Exact operations -/

/-- m × 2^e as an integer multiple of 2^q, for q ≤ e. -/
def scaled (neg : Bool) (m : Nat) (e q : Int) : Int :=
  let v : Int := m * (2 ^ (e - q).toNat : Nat)
  if neg then -v else v

/-- The exact sum of two values and whether the operation is invalid. Two zeros of one sign keep it; every other exact zero is +0. -/
def FV.add : FV → FV → FV × Bool
  | .nan, _ => (.nan, false)
  | _, .nan => (.nan, false)
  | .inf a, .inf b => if a = b then (.inf a, false) else (.nan, true)
  | .inf a, _ => (.inf a, false)
  | _, .inf b => (.inf b, false)
  | .fin na ma ea, .fin nb mb eb =>
    let q := min ea eb
    let v := scaled na ma ea q + scaled nb mb eb q
    if ma = 0 ∧ mb = 0 then (.fin (na && nb) 0 0, false)
    else (.fin (decide (v < 0)) v.natAbs q, false)

def FV.neg : FV → FV
  | .nan => .nan
  | .inf n => .inf !n
  | .fin n m e => .fin (!n) m e

/-- The exact product of two values and whether the operation is invalid. -/
def FV.mul : FV → FV → FV × Bool
  | .nan, _ => (.nan, false)
  | _, .nan => (.nan, false)
  | .inf a, .inf b => (.inf (a != b), false)
  | .inf a, .fin b m _ => if m = 0 then (.nan, true) else (.inf (a != b), false)
  | .fin a m _, .inf b => if m = 0 then (.nan, true) else (.inf (a != b), false)
  | .fin a ma ea, .fin b mb eb => (.fin (a != b) (ma * mb) (ea + eb), false)

/-- Compares two finite or infinite values: less than. -/
def FV.lt : FV → FV → Bool
  | .nan, _ => false
  | _, .nan => false
  | .inf a, .inf b => a && !b
  | .inf a, _ => a
  | _, .inf b => !b
  | .fin na ma ea, .fin nb mb eb =>
    let q := min ea eb
    decide (scaled na ma ea q < scaled nb mb eb q)

def FV.eqv (a b : FV) : Bool := a != .nan && b != .nan && !a.lt b && !b.lt a

/-- Rounds to FP32 with RNE: the additions and products of the wide mode (spec/08 R224). -/
def toF32 (v : FV) : Nat × Nat := convert .fp32 .rne false v

def f32Add (a b : Nat) : Nat × Nat :=
  let (v, bad) := (Fmt.fp32.decode a).add (Fmt.fp32.decode b)
  let (n, fl) := toF32 v
  (n, fl ||| (if bad then fInvalid else 0))

/-! ### Narrow cells (spec/08 R220 to R223) -/

/-- A cell of an accumulator tile: the narrow sum in units of 2^-32, the wide FP32 accumulator, the sticky states, the contributions made. -/
structure Cell where
  v : Int := 0
  wide : Nat := 0
  nan : Bool := false
  pinf : Bool := false
  ninf : Bool := false
  count : Nat := 0
  deriving DecidableEq, Repr

/-- Adds a contribution to a narrow cell, at most 2^31 between clears (spec/08 R220, R221). -/
def Cell.contribute (c : Cell) (v : FV) (invalid : Bool) : Cell × Nat :=
  if 2 ^ 31 ≤ c.count then ({ c with nan := true }, fInvalid)
  else
    let c := { c with count := c.count + 1 }
    let fl := if invalid then fInvalid else 0
    match v with
    | .nan => ({ c with nan := true }, fl)
    | .inf true => ({ c with ninf := true }, fl)
    | .inf false => ({ c with pinf := true }, fl)
    | .fin n m e => ({ c with v := c.v + (if -32 ≤ e then scaled n m e (-32) else (scaled n m e e) / (2 ^ (-32 - e).toNat : Nat)) }, fl)

/-- What the products of one MX block give (spec/08 R221, R222): the states they set, whether one was invalid, and the exact sum of the finite ones. -/
structure BlockSum where
  nan : Bool := false
  pinf : Bool := false
  ninf : Bool := false
  invalid : Bool := false
  sum : FV := .fin false 0 0

/-- Takes in one product. -/
def BlockSum.add (b : BlockSum) (p : FV × Bool) : BlockSum :=
  match p.1 with
  | .nan => { b with nan := true, invalid := b.invalid || p.2 }
  | .inf true => { b with ninf := true }
  | .inf false => { b with pinf := true }
  | v => { b with sum := (b.sum.add v).1 }

/-- A contribution of an MX block (spec/08 R222): the exact block sum, scaled, truncated to 2^-32; infinite products set their states beside it. -/
def Cell.mxContribute (c : Cell) (b : BlockSum) (sA sB : Nat) (e0 : Int) : Cell × Nat :=
  if b.nan ∨ sA = 255 ∨ sB = 255 then c.contribute .nan b.invalid
  else
    let c := { c with pinf := c.pinf || b.pinf, ninf := c.ninf || b.ninf }
    match b.sum with
    | .fin n m e =>
      let e' := e + (sA : Int) + sB - 254 - e0
      if m ≠ 0 ∧ 32 ≤ e' + m.log2 then
        let (c, fl) := c.contribute (.inf n) false
        (c, fl ||| fRange)
      else
        let exact := m = 0 ∨ -32 ≤ e' ∨ m % 2 ^ (-32 - e').toNat = 0
        let (c, fl) := c.contribute (.fin n m e') false
        (c, if exact then fl else fl ||| fAlign)
    | x => c.contribute x false

/-- Emission of a cell's states and value (spec/08 R223). -/
def emitStates (f : Fmt) (md : Rnd) (sat : Bool) (nan pinf ninf : Bool) (v : FV) : Nat × Nat :=
  if nan ∨ (pinf ∧ ninf) then (if f.isFloat then (f.nanBits, 0) else (0, fInvalid))
  else if pinf then convert f md sat (.inf false)
  else if ninf then convert f md sat (.inf true)
  else match v with
    | .fin _ 0 _ => (0, 0)
    | v => convert f md sat v

def Cell.value (c : Cell) (e0 : Int) : FV := .fin (decide (c.v < 0)) c.v.natAbs (e0 - 32)

/-- Emission of a cell (spec/08 R223, R224). -/
def Cell.emit (c : Cell) (wide : Bool) (e0 : Int) (f : Fmt) (md : Rnd) (sat : Bool) : Nat × Nat :=
  if wide then convert f md sat (Fmt.fp32.decode c.wide) else emitStates f md sat c.nan c.pinf c.ninf (c.value e0)

/-- One array operation of a wide cell, over pairs of operands in k order (spec/08 R224). -/
def wideChunk (p : List Nat) : Nat × Nat :=
  let g (i : Nat) : Nat := p.getD i 0
  let (a, f1) := f32Add (g 0) (g 1)
  let (b, f2) := f32Add (g 2) (g 3)
  let (c, f3) := f32Add (g 4) (g 5)
  let (d, f4) := f32Add (g 6) (g 7)
  let (x, f5) := f32Add a b
  let (y, f6) := f32Add c d
  let (s, f7) := f32Add x y
  (s, f1 ||| f2 ||| f3 ||| f4 ||| f5 ||| f6 ||| f7)

/-- The FP32 products of a list of operand pairs, with their flags. -/
def wideProducts (f : Fmt) (l : List (Nat × Nat)) : List Nat × Nat :=
  l.foldr (init := ([], 0)) fun (a, b) (r, fl) =>
    let (v, bad) := (f.decode a).mul (f.decode b)
    let (n, fl2) := toF32 v
    (n :: r, fl ||| fl2 ||| (if bad then fInvalid else 0))

def wideRun : Nat → Nat → List Nat → Nat × Nat
  | 0, acc, _ => (acc, 0)
  | n + 1, acc, ps =>
    match ps with
    | [] => (acc, 0)
    | _ =>
      let (s, f1) := wideChunk (ps.take 8)
      let (acc, f2) := f32Add acc s
      let (r, f3) := wideRun n acc (ps.drop 8)
      (r, f1 ||| f2 ||| f3)

/-! ### Long accumulators (spec/08 R229 to R232) -/

/-- A long accumulator: its value in units of 2^-149, its states and the weight added since it was cleared. -/
structure Long where
  v : Int := 0
  nan : Bool := false
  pinf : Bool := false
  ninf : Bool := false
  weight : Nat := 0
  deriving DecidableEq, Repr

/-- V is in range (spec/08 R229). -/
def Long.inRange (w : Long) : Bool := decide (w.v.natAbs ≤ 2 ^ 319 - 2 ^ 295)

/-- Adds a contribution of a weight; a contribution past 2^58 is not added (spec/08 R230). -/
def Long.add (w : Long) (v : FV) (weight : Nat) : Long × Nat :=
  if 2 ^ 58 < w.weight + weight then ({ w with nan := true }, fInvalid)
  else
    let w := { w with weight := w.weight + weight }
    match v with
    | .nan => ({ w with nan := true }, 0)
    | .inf true => ({ w with ninf := true }, 0)
    | .inf false => ({ w with pinf := true }, 0)
    | .fin n m e => ({ w with v := w.v + (if -149 ≤ e then scaled n m e (-149) else (scaled n m e e) / (2 ^ (-149 - e).toNat : Nat)) }, 0)

/-- Adds a narrow cell's value and states with weight 2^42 (spec/08 R225). -/
def Long.addCell (w : Long) (c : Cell) (e0 : Int) : Long × Nat :=
  if 2 ^ 58 < w.weight + 2 ^ 42 then ({ w with nan := true }, fInvalid)
  else
    let w1 := { w with weight := w.weight + 2 ^ 42, nan := w.nan || c.nan, pinf := w.pinf || c.pinf, ninf := w.ninf || c.ninf }
    let e := e0 - 32
    let n := c.v.natAbs
    if n ≠ 0 ∧ 170 ≤ e + n.log2 then
      (if c.v < 0 then { w1 with ninf := true } else { w1 with pinf := true }, fRange)
    else
      let (w2, _) := ({ w1 with weight := 0 }).add (.fin (decide (c.v < 0)) n e) 0
      let exact := n = 0 ∨ -149 ≤ e ∨ n % 2 ^ (-149 - e).toNat = 0
      ({ w2 with weight := w1.weight }, if exact then 0 else fAlign)

/-- RESOLVE (spec/08 R231). -/
def Long.resolve (w : Long) (f : Fmt) (md : Rnd) (sat : Bool) : Nat × Nat :=
  if w.nan = false ∧ w.pinf = false ∧ w.ninf = false ∧ w.inRange = false then
    let (n, fl) := emitStates f md sat false (decide (0 ≤ w.v)) (decide (w.v < 0)) (.fin false 0 0)
    (n, fl ||| fRange)
  else emitStates f md sat w.nan w.pinf w.ninf (.fin (decide (w.v < 0)) w.v.natAbs (-149))

/-- The long form of an accumulator, 320 bits (spec/08 R232). -/
def Long.export (w : Long) : Nat × Nat :=
  let special (c : Nat) : Nat := 2 ^ 319 + c
  if w.nan ∨ (w.pinf ∧ w.ninf) then (special 0, 0)
  else if w.pinf then (special 1, 0)
  else if w.ninf then (special 2, 0)
  else if w.inRange = false then (special (if w.v < 0 then 2 else 1), fRange)
  else ((w.v % (2 ^ 320 : Nat)).toNat, 0)

/-- The accumulator a long form spells, and flags (spec/08 R232). -/
def Long.import (n : Nat) : Long × Nat :=
  let n := n % 2 ^ 320
  if n / 2 ^ 295 = 2 ^ 24 then
    let c := n % 2 ^ 295
    if c = 0 then ({ nan := true }, 0) else if c = 1 then ({ pinf := true }, 0) else if c = 2 then ({ ninf := true }, 0)
    else ({ nan := true }, fInvalid)
  else ({ v := toSigned 320 n }, 0)

/-- Adds an imported long form with weight 2^42 (spec/08 R230, R232). -/
def Long.addImport (w x : Long) : Long × Nat :=
  if 2 ^ 58 < w.weight + 2 ^ 42 then ({ w with nan := true }, fInvalid)
  else ({ v := w.v + x.v, nan := w.nan || x.nan, pinf := w.pinf || x.pinf, ninf := w.ninf || x.ninf, weight := w.weight + 2 ^ 42 }, 0)

/-! ### MX blocks (spec/08 R214, R218) -/

/-- emax of an element format. -/
def Fmt.emax : Fmt → Int
  | .e5m2 => 15 | .e4m3 => 8 | .e3m2 => 4 | .e2m3 => 2 | .e2m1 => 2 | _ => 0

/-- The value of an MX element: INT8 elements have weight 2^-6. -/
def mxElem (f : Fmt) (n : Nat) : FV :=
  match f with
  | .int8 => match ofInt (toSigned 8 n) with
    | .fin s m e => .fin s m (e - 6)
    | x => x
  | f => f.decode n

/-- A value times 2^k. -/
def FV.shift (v : FV) (k : Int) : FV :=
  match v with
  | .fin n m e => .fin n m (e + k)
  | x => x

/-- Floor of log2 of a non-zero finite magnitude. -/
def FV.top : FV → Int
  | .fin _ m e => e + m.log2
  | _ => 0

/-- The scale of a block and its elements (spec/08 R218): scale, elements, flags. `rnd` gives the mode for element i. -/
def toMx (f : Fmt) (rnd : Nat → Rnd) (vs : List FV) : Nat × List Nat × Nat :=
  if vs.any (fun v => match v with
      | .fin .. => false
      | _ => true) then (0xFF, vs.map fun _ => 0, 0)
  else
    let nz := vs.filter fun v => match v with
      | .fin _ m _ => m != 0
      | _ => true
    match nz with
    | [] => (0, vs.map fun v => (convert f .rne true v).1, 0)
    | v :: r =>
      let t := r.foldl (fun t x => max t x.top) v.top
      let x := max (-127) (min 127 (t - f.emax))
      let out := (List.range vs.length).zip vs |>.map fun e =>
        convert f (rnd e.1) true ((e.2.shift (-x)).shift (if f = .int8 then 6 else 0))
      ((x + 127).toNat, out.map (·.1), out.foldl (fun a e => a ||| e.2) 0)

/-- An element of an MX block as FP32 (spec/08 R218). -/
def fromMx (f : Fmt) (scale n : Nat) (md : Rnd) : Nat × Nat :=
  if scale = 255 then (Fmt.fp32.nanBits, 0)
  else convert .fp32 md false ((mxElem f n).shift ((scale : Int) - 127))

/-! ### Functions of the vector unit (spec/08 R228) -/

/-- The integer square root by Newton's steps. -/
def isqrtGo : Nat → Nat → Nat → Nat
  | 0, _, x => x
  | n + 1, a, x => let y := (x + a / x) / 2; if x ≤ y then x else isqrtGo n a y

def isqrt (a : Nat) : Nat := if a = 0 then 0 else isqrtGo (a.log2 + 8) a (2 ^ (a.log2 / 2 + 1))

/-- 2^f for a fraction f of n bits given as an integer of 128 fraction bits: the product of the roots of its bits, in 192 fraction bits. -/
def exp2Frac : Nat → Nat → Nat → Nat → Nat
  | 0, _, _, acc => acc
  | n + 1, f, root, acc =>
    let root := isqrt (root * 2 ^ 192)
    let f2 := f * 2
    exp2Frac n (f2 % 2 ^ 128) root (if 2 ^ 128 ≤ f2 then acc * root / 2 ^ 192 else acc)

/-- log2 of a mantissa in [1, 2) given in 400 fraction bits: its first n fraction bits, by repeated squaring. -/
def log2Frac : Nat → Nat → Nat → Nat
  | 0, _, acc => acc
  | n + 1, m, acc =>
    let s := m * m / 2 ^ 400
    if 2 ^ 401 ≤ s then log2Frac n (s / 2) (2 * acc + 1) else log2Frac n s (2 * acc)

/-- π in 192 fraction bits. -/
def piBits : Nat := 0x3243F6A8885A308D313198A2E03707344A4093822299F31D0

/-- sin(y)/y for y² given in 192 fraction bits: the sum of (−y²)^k ÷ (2k + 1)!. -/
def sinRatio : Nat → Nat → Nat → Int → Int
  | 0, _, _, _ => 0
  | n + 1, k, y2, term => term + sinRatio n (k + 1) y2 (-(term * y2 / (2 ^ 192 : Nat)) / (((2 * k + 2) * (2 * k + 3) : Nat) : Int))

/-- The magnitude an FP32 encoding without its sign spells, with the encoding of infinity as 2^128. -/
def f32Mag (b : Nat) : FV := if b / 2 ^ 23 = 0 then .fin false b (-149) else .fin false (2 ^ 23 + b % 2 ^ 23) ((b / 2 ^ 23 : Nat) - 150)

/-- Two magnitudes differ by at most d × 2^q. -/
def FV.near (a b : FV) (d : Nat) (q : Int) : Bool :=
  match (a.add b.neg).1 with
  | .fin _ m e => !(FV.fin false d q).lt (.fin false m e)
  | _ => false

/-- A result that is not exact: the value m × 2^e; `ulps` is the bound in units in the last place of FP32, and `pick` the free choice among the FP32 values of its sign within it. A value of 2^128 or more overflows. -/
def within (ulps pick : Nat) (neg : Bool) (m : Nat) (e : Int) : Nat × Nat :=
  let x : FV := .fin false m e
  let sign := Fmt.fp32.signBit neg
  if !x.lt (.fin false 1 128) then (sign + 0x7F800000, fOverflow)
  else
    let body := (convert .fp32 .rtz false x).1
    let q : Int := (max 1 (body / 2 ^ 23) : Nat) - 150
    let cands := (List.range 7).filterMap fun k =>
      if 4 ≤ body + k ∧ body + k - 4 ≤ 0x7F800000 ∧ x.near (f32Mag (body + k - 4)) ulps q then some (body + k - 4) else none
    let c := cands.getD (pick % cands.length) body
    (sign + c, if c < 2 ^ 23 then fUnderflow else if c = 0x7F800000 then fOverflow else 0)

/-- Functions, in the order of spec/08 R228. -/
inductive VFn where
  | exp2 | log2 | rcp | rsqrt | sinpi | cospi
  deriving DecidableEq, Repr

def VFn.code : VFn → Nat
  | .exp2 => 0 | .log2 => 1 | .rcp => 2 | .rsqrt => 3 | .sinpi => 4 | .cospi => 5

/-- sin(π x) for x = m × 2^e in (0, 1/2): mantissa and exponent of an approximation. -/
def sinPiCore (m : Nat) (e : Int) : Nat × Int :=
  -- x in 192 fraction bits, for y²; tiny x gives 0 and the ratio 1
  let x := if 0 ≤ e + 192 then m * 2 ^ (e + 192).toNat else m / 2 ^ (-(e + 192)).toNat
  let y := x * piBits / 2 ^ 192
  let r := sinRatio 40 0 (y * y / 2 ^ 192) ((2 ^ 192 : Nat) : Int)
  (m * piBits * r.toNat, e - 384)

/-- sin(π x) for exact x = m × 2^e: reduces to [0, 1/2]. Answers a sign and either an exact small result or a value. -/
def sinPi (neg : Bool) (m : Nat) (e : Int) (pick : Nat) : Nat × Nat :=
  if m = 0 ∨ 0 ≤ e then (Fmt.fp32.signBit neg, 0)
  else
    let d := (-e).toNat
    let one := 2 ^ d
    let r := m % (2 * one)
    let neg' := if one ≤ r then !neg else neg
    let r := r % one
    if r = 0 then (Fmt.fp32.signBit neg, 0)
    else if 2 * r = one then (Fmt.fp32.signBit neg' + 0x3F800000, 0)
    else
      let r := if one < 2 * r then one - r else r
      let (a, ea) := sinPiCore r e
      within 2 pick neg' a ea

/-- cos(π x): sin(π (1/2 − |x|)), with 1/2 and the integers exact. -/
def cosPi (m : Nat) (e : Int) (pick : Nat) : Nat × Nat :=
  if m = 0 then (0x3F800000, 0)
  else if 1 ≤ e then (0x3F800000, 0)
  else if e = 0 then (if m % 2 = 0 then 0x3F800000 else 0xBF800000, 0)
  else
    let d := (-e).toNat
    let one := 2 ^ d
    let r := m % (2 * one)
    -- distance from 0 in [0, one]
    let r := if one < r then 2 * one - r else r
    if r = 0 then (0x3F800000, 0)
    else if r = one then (0xBF800000, 0)
    else if 2 * r = one then (0, 0)
    else if 2 * r < one then
      let (a, ea) := sinPiCore (one - 2 * r) (e - 1)
      within 2 pick false a ea
    else
      let (a, ea) := sinPiCore (2 * r - one) (e - 1)
      within 2 pick true a ea

/-- The FP32 result of a function for an FP32 value; `pick` chooses among the results within the bound (spec/08 R228, log 24). -/
def vfn (f : VFn) (x : FV) (pick : Nat) : Nat × Nat :=
  let nan := Fmt.fp32.nanBits
  match f, x with
  | _, .nan => (nan, 0)
  | .exp2, .inf neg => (if neg then 0 else 0x7F800000, 0)
  | .exp2, .fin neg m e =>
    if m = 0 then (0x3F800000, 0)
    else if 0 ≤ e ∨ m % 2 ^ (-e).toNat = 0 then
      let k : Int := if 0 ≤ e then m * (2 ^ (min e.toNat 40) : Nat) else (m / 2 ^ (-e).toNat : Nat)
      let k := if neg then -k else k
      if 128 ≤ k then (0x7F800000, fOverflow)
      else if k < -149 then within 2 pick false 1 (max k (-400)) else convert .fp32 .rne false (.fin false 1 k)
    else
      -- x = k + f with 0 ≤ f < 1, f in 128 fraction bits, rounded down
      let sh := (-e).toNat
      let f0 := m % 2 ^ sh
      let k : Int := (m / 2 ^ sh : Nat)
      let (k, fr) := if neg then (-k - 1, 2 ^ 128 - (f0 * 2 ^ 128 + (2 ^ sh - 1)) / 2 ^ sh) else (k, f0 * 2 ^ 128 / 2 ^ sh)
      if 128 ≤ k then (0x7F800000, fOverflow)
      else if k < -152 then within 2 pick false 1 (max k (-400))
      else within 2 pick false (exp2Frac 128 fr (2 * 2 ^ 192) (2 ^ 192)) (k - 192)
  | .log2, .inf neg => if neg then (nan, fInvalid) else (0x7F800000, 0)
  | .log2, .fin neg m e =>
    if m = 0 then (0xFF800000, 0)
    else if neg then (nan, fInvalid)
    else
      let k : Int := e + m.log2
      if m = 2 ^ m.log2 then convert .fp32 .rne false (ofInt k)
      else
        let fr := log2Frac 160 (m * 2 ^ (400 - m.log2)) 0
        let v : Int := k * (2 ^ 160 : Nat) + fr
        within 2 pick (decide (v < 0)) v.natAbs (-160)
  | .rcp, .inf neg => (Fmt.fp32.signBit neg, 0)
  | .rcp, .fin neg m e =>
    if m = 0 then (Fmt.fp32.signBit neg + 0x7F800000, 0)
    else if m = 2 ^ m.log2 then
      -- a power of two; exact when representable
      convert .fp32 .rne false (.fin neg 1 (-(e + m.log2)))
    else within 1 pick neg (2 ^ 256 / m) (-256 - e)
  | .rsqrt, .inf neg => if neg then (nan, fInvalid) else (0, 0)
  | .rsqrt, .fin neg m e =>
    if m = 0 then (if neg then 0xFF800000 else 0x7F800000, 0)
    else if neg then (nan, fInvalid)
    else
      let (m, e) := if e % 2 = 0 then (m, e) else (2 * m, e - 1)
      -- 1/√m in 256 fraction bits
      let r := isqrt (2 ^ 512 / m)
      let exact := r * r * m = 2 ^ 512
      if exact then convert .fp32 .rne false (.fin false r (-256 - e / 2)) else within 1 pick false r (-256 - e / 2)
  | .sinpi, .inf _ => (nan, fInvalid)
  | .sinpi, .fin neg m e => sinPi neg m e pick
  | .cospi, .inf _ => (nan, fInvalid)
  | .cospi, .fin _ m e => cosPi m e pick

end Sys2Proof.Machine
end

