-- ==== Sys2Proof/Machine/FieldName.lean ====
section
/-! DEFINITION. The fields of the registers of the block, one name for each field of the spec's register tables (spec/19 R504, R505 index the registers; each field stands in the table of its chapter). -/

namespace Sys2Proof.Machine

/-- A register field: its number in this list, its width in bits and the reset value its table gives. -/
structure Fld where
  n : Nat
  w : Nat
  r : Nat
  deriving DecidableEq, Repr

namespace F

def INT_IDENT_VENDOR : Fld := ⟨0, 16, 22095⟩
def INT_IDENT_BLOCK : Fld := ⟨1, 16, 3588⟩
def INT_IDENT_MAJOR : Fld := ⟨2, 8, 4⟩
def INT_IDENT_MINOR : Fld := ⟨3, 8, 1⟩
def INT_BUILD_HALLS : Fld := ⟨4, 8, 0⟩
def INT_BUILD_STATIONS : Fld := ⟨5, 8, 0⟩
def INT_BUILD_EPORTS : Fld := ⟨6, 8, 0⟩
def INT_BUILD_LINKS : Fld := ⟨7, 4, 0⟩
def INT_BUILD_ECHO : Fld := ⟨8, 1, 0⟩
def INT_BUILD_LOG2PH : Fld := ⟨9, 8, 21⟩
def INT_BUILD_ISLANDS : Fld := ⟨10, 8, 0⟩
def INT_BUILD_NDOM : Fld := ⟨11, 16, 0⟩
def INT_SIZES_GALMIB : Fld := ⟨12, 16, 0⟩
def INT_SIZES_NQUEUE : Fld := ⟨13, 16, 4096⟩
def INT_SIZES_NCTX : Fld := ⟨14, 16, 1024⟩
def INT_SIZES_NPART : Fld := ⟨15, 8, 64⟩
def INT_REVS_NATIVE : Fld := ⟨16, 20, 148247⟩
def INT_REVS_LOWEST : Fld := ⟨17, 20, 78615⟩
def INT_FEAT_CS3 : Fld := ⟨18, 1, 1⟩
def INT_FEAT_LP1 : Fld := ⟨19, 1, 1⟩
def INT_FEAT_MX : Fld := ⟨20, 1, 1⟩
def INT_FEAT_EXACT : Fld := ⟨21, 1, 1⟩
def INT_FEAT_PAIR : Fld := ⟨22, 1, 0⟩
def INT_FEAT_SECUREDEBUG : Fld := ⟨23, 1, 0⟩
def INT_FEAT_OPENLAB : Fld := ⟨24, 1, 0⟩
def INT_FEAT_COURIERS : Fld := ⟨25, 8, 16⟩
def INT_FEAT_MPORTS : Fld := ⟨26, 8, 8⟩
def INT_FEAT_FWCORES : Fld := ⟨27, 8, 6⟩
def INT_FEAT_LOG2WAIT : Fld := ⟨28, 8, 18⟩
def INT_RST_LAST : Fld := ⟨29, 2, 0⟩
def INT_RST_SAFE : Fld := ⟨30, 16, 0⟩
def INT_RST_WARM : Fld := ⟨31, 32, 0⟩
def INT_STARTUP_READYUS : Fld := ⟨32, 32, 0⟩
def INT_STARTUP_VAULTREADY : Fld := ⟨33, 1, 0⟩
def INT_STARTUP_STEP : Fld := ⟨34, 4, 1⟩
def INT_EPORT_REPORTED : Fld := ⟨35, 1, 0⟩
def INT_EPORT_READY : Fld := ⟨36, 1, 0⟩
def INT_EPORT_CLASS : Fld := ⟨37, 4, 0⟩
def INT_EPORT_IFREV : Fld := ⟨38, 4, 0⟩
def INT_EPORT_COMP : Fld := ⟨39, 4, 0⟩
def INT_EPORT_RESETS : Fld := ⟨40, 32, 0⟩
def QE_CAP_MAXDEPTH : Fld := ⟨41, 4, 15⟩
def QE_CAP_DFMT : Fld := ⟨42, 4, 3⟩
def QE_CAP_CSREV : Fld := ⟨43, 4, 4⟩
def QE_CAP_CS3 : Fld := ⟨44, 1, 1⟩
def QE_CAP_NQUEUES : Fld := ⟨45, 13, 4096⟩
def QE_DB_STRAY_COUNT : Fld := ⟨46, 32, 0⟩
def QE_QSEL_QUEUE : Fld := ⟨47, 12, 0⟩
def QE_QCFG_HYP : Fld := ⟨48, 1, 0⟩
def QE_QCFG_ASSIGNED : Fld := ⟨49, 1, 0⟩
def QE_QCFG_CS3EN : Fld := ⟨50, 1, 0⟩
def QE_QCFG_MIRRORED : Fld := ⟨51, 1, 0⟩
def QE_QCFG_DEPTH : Fld := ⟨52, 4, 4⟩
def QE_QCFG_DBSLOT : Fld := ⟨53, 10, 0⟩
def QE_QCFG_CTX : Fld := ⟨54, 10, 0⟩
def QE_QCFG_PART : Fld := ⟨55, 6, 0⟩
def QE_RING_BASE_BASE : Fld := ⟨56, 52, 0⟩
def QE_CQ_BASE_BASE : Fld := ⟨57, 52, 0⟩
def QE_QSIZE_CQLOG2 : Fld := ⟨58, 5, 4⟩
def QE_QSIZE_SQLOG2 : Fld := ⟨59, 5, 4⟩
def QE_QCTL_CMD : Fld := ⟨60, 4, 0⟩
def QE_QSTAT_IDLE : Fld := ⟨61, 1, 1⟩
def QE_QSTAT_STATE : Fld := ⟨62, 3, 0⟩
def QE_QSTAT_PENDING : Fld := ⟨63, 1, 0⟩
def QE_QSTAT_CQWAIT : Fld := ⟨64, 1, 0⟩
def QE_QSTAT_SQPHASE : Fld := ⟨65, 1, 1⟩
def QE_QSTAT_CQPHASE : Fld := ⟨66, 1, 1⟩
def QE_QSTAT_REQHELD : Fld := ⟨67, 1, 0⟩
def QE_QSTAT_PRIOR : Fld := ⟨68, 3, 0⟩
def QE_QPOS_CQ : Fld := ⟨69, 32, 0⟩
def QE_QPOS_SQ : Fld := ⟨70, 32, 0⟩
def QE_CQ_HEAD_HEAD : Fld := ⟨71, 32, 0⟩
def QE_ERR_INDEX_CAUSE : Fld := ⟨72, 4, 0⟩
def QE_ERR_INDEX_WORD : Fld := ⟨73, 20, 0⟩
def QE_ERR_INDEX_INDEX : Fld := ⟨74, 16, 0⟩
def QE_STOPPED_STOPPED : Fld := ⟨75, 64, 0⟩
def QE_FWD_GRANT : Fld := ⟨76, 64, 0⟩
def QE_PCL_GAL_GSIZE : Fld := ⟨77, 13, 0⟩
def QE_PCL_GAL_GBASE : Fld := ⟨78, 13, 0⟩
def QE_PCL_MEM_MSIZE : Fld := ⟨79, 8, 0⟩
def QE_PCL_MEM_MBASE : Fld := ⟨80, 44, 0⟩
def QE_ENQ_TARGET : Fld := ⟨81, 1, 0⟩
def QE_ENQ_LOST : Fld := ⟨82, 16, 0⟩
def QE_ENQ_PCOUNT : Fld := ⟨83, 32, 0⟩
def PH_CAP_BANKS : Fld := ⟨84, 8, 16⟩
def PH_CAP_LOG2PH : Fld := ⟨85, 8, 21⟩
def PH_CAP_LOG2WAIT : Fld := ⟨86, 8, 18⟩
def PH_CAP_NLINK : Fld := ⟨87, 16, 4096⟩
def PH_CAP_NWATCH : Fld := ⟨88, 16, 4096⟩
def PH_CYCLE_SCAN_SCAN : Fld := ⟨89, 24, 1000⟩
def PH_STAT_LSTRAY : Fld := ⟨90, 32, 0⟩
def PH_STAT_WFREE : Fld := ⟨91, 19, 253952⟩
def PH_STAT_WATCHUSED : Fld := ⟨92, 13, 0⟩
def PH_PEEK_SEL_PH : Fld := ⟨93, 21, 0⟩
def PH_PEEK_W0_VALUE : Fld := ⟨94, 64, 0⟩
def PH_PEEK_W1_ROW1 : Fld := ⟨95, 64, 0⟩
def PH_ERR_CAUSE : Fld := ⟨96, 4, 0⟩
def PH_ERR_WHERE : Fld := ⟨97, 13, 0⟩
def PH_PART_BASE_EN : Fld := ⟨98, 1, 0⟩
def PH_PART_BASE_BASE : Fld := ⟨99, 21, 0⟩
def PH_PART_LIMIT_LAST : Fld := ⟨100, 21, 0⟩
def PH_WQUOTA_QUOTA : Fld := ⟨101, 18, 0⟩
def PH_LINK_EN : Fld := ⟨102, 1, 0⟩
def PH_LINK_DIR : Fld := ⟨103, 1, 0⟩
def PH_LINK_CHIP : Fld := ⟨104, 4, 0⟩
def PH_LINK_LOCAL : Fld := ⟨105, 21, 0⟩
def PH_LINK_REMOTE : Fld := ⟨106, 21, 0⟩
def SCH_CAP_NWIN : Fld := ⟨107, 16, 1024⟩
def SCH_CAP_NEGRP : Fld := ⟨108, 8, 16⟩
def SCH_CAP_NSGRP : Fld := ⟨109, 8, 16⟩
def SCH_TTCTL_PEND : Fld := ⟨110, 1, 0⟩
def SCH_TTCTL_ACTNWIN : Fld := ⟨111, 11, 1⟩
def SCH_TTCTL_SHDNWIN : Fld := ⟨112, 11, 1⟩
def SCH_TTCTL_CMD : Fld := ⟨113, 4, 0⟩
def SCH_TTSTAT_PHASE : Fld := ⟨114, 2, 0⟩
def SCH_TTSTAT_WIN : Fld := ⟨115, 10, 0⟩
def SCH_TTSTAT_CYCLES : Fld := ⟨116, 32, 0⟩
def SCH_CYCLE_T_T0 : Fld := ⟨117, 64, 0⟩
def SCH_DRR_UNDECL : Fld := ⟨118, 16, 100⟩
def SCH_DRR_QUANTUM : Fld := ⟨119, 32, 1000⟩
def SCH_WD_FIRED : Fld := ⟨120, 32, 0⟩
def SCH_WD_RLIMIT : Fld := ⟨121, 32, 10000⟩
def SCH_STAT_LATE : Fld := ⟨122, 32, 0⟩
def SCH_STAT_STRETCH : Fld := ⟨123, 32, 0⟩
def SCH_ERR_CAUSE : Fld := ⟨124, 4, 0⟩
def SCH_ERR_WHERE : Fld := ⟨125, 10, 0⟩
def SCH_EGRP_ACT_PORTS : Fld := ⟨126, 32, 0⟩
def SCH_EGRP_PORTS : Fld := ⟨127, 32, 0⟩
def SCH_SGRP_ACT_STATIONS : Fld := ⟨128, 64, 0⟩
def SCH_SGRP_STATIONS : Fld := ⟨129, 64, 0⟩
def SCH_PRT_SHAREEN : Fld := ⟨130, 1, 1⟩
def SCH_PRT_WEIGHT : Fld := ⟨131, 16, 1⟩
def SCH_PRT_DEFDUR : Fld := ⟨132, 32, 0⟩
def SCH_BAL_BALANCE : Fld := ⟨133, 64, 0⟩
def SCH_ACC_COUNT : Fld := ⟨134, 64, 0⟩
def GAL_CAP_HALLS : Fld := ⟨135, 8, 32⟩
def GAL_CAP_SLOTS : Fld := ⟨136, 8, 32⟩
def GAL_CAP_NSEAL : Fld := ⟨137, 8, 64⟩
def GAL_CAP_NFRANK : Fld := ⟨138, 16, 4096⟩
def GAL_CAP_NDROP : Fld := ⟨139, 16, 256⟩
def GAL_SEAL_TIMEOUT_TIMEOUT : Fld := ⟨140, 16, 1000⟩
def GAL_STAT_SEALTO : Fld := ⟨141, 32, 0⟩
def GAL_STAT_REFUSED : Fld := ⟨142, 32, 0⟩
def GAL_ERR_CAUSE : Fld := ⟨143, 4, 0⟩
def GAL_ERR_REQ : Fld := ⟨144, 7, 0⟩
def GAL_ERR_WHERE : Fld := ⟨145, 13, 0⟩
def GAL_SCRUB_PENDING : Fld := ⟨146, 16, 0⟩
def GAL_SCRUB_PATROL : Fld := ⟨147, 16, 1000⟩
def GAL_HOST_ADDR_ERR : Fld := ⟨148, 1, 0⟩
def GAL_HOST_ADDR_AUTOINC : Fld := ⟨149, 1, 0⟩
def GAL_HOST_ADDR_ADDR : Fld := ⟨150, 26, 0⟩
def GAL_HOST_DATA_DATA : Fld := ⟨151, 64, 0⟩
def GAL_FRANK_SEL_COUNTER : Fld := ⟨152, 12, 0⟩
def GAL_FRANK_VAL_VALUE : Fld := ⟨153, 64, 0⟩
def GAL_WHEEL_MODE_PEND : Fld := ⟨154, 1, 0⟩
def GAL_WHEEL_MODE_MODE : Fld := ⟨155, 1, 1⟩
def GAL_WHEEL_MODE_MODESHD : Fld := ⟨156, 1, 1⟩
def GAL_WHEEL_MODE_CMD : Fld := ⟨157, 2, 0⟩
def GAL_LENIENT_OPT_OPT : Fld := ⟨158, 64, 0⟩
def GAL_WHEEL_ENTRIES : Fld := ⟨159, 64, 0⟩
def GAL_WHEEL_ACT_ENTRIES : Fld := ⟨160, 64, 0⟩
def GAL_CPWR_REQ_TARGETS : Fld := ⟨161, 32, 2863311530⟩
def GAL_CPWR_STAT_HELD : Fld := ⟨162, 1, 0⟩
def GAL_CPWR_STAT_STATES : Fld := ⟨163, 48, 80421421917330⟩
def GAL_SEAL_BASE_BASE : Fld := ⟨164, 29, 0⟩
def GAL_SEAL_SIZE_SIZE : Fld := ⟨165, 29, 0⟩
def GAL_SEAL_MODE_ALLOT : Fld := ⟨166, 1, 0⟩
def GAL_SEAL_MODE_ARMED : Fld := ⟨167, 1, 0⟩
def GAL_SEAL_MODE_PERM : Fld := ⟨168, 1, 0⟩
def GAL_SEAL_MODE_PEEK : Fld := ⟨169, 1, 0⟩
def GAL_SEAL_MODE_OWNER : Fld := ⟨170, 6, 0⟩
def GAL_SEAL_MODE_DISARM : Fld := ⟨171, 1, 0⟩
def GAL_DROP_ALLOT : Fld := ⟨172, 1, 0⟩
def GAL_DROP_OPEN : Fld := ⟨173, 1, 0⟩
def GAL_DROP_FORCECLOSE : Fld := ⟨174, 1, 0⟩
def GAL_DROP_OWNER : Fld := ⟨175, 6, 0⟩
def GAL_DROP_RANGE_RANGE : Fld := ⟨176, 64, 0⟩
def GAL_FRANK_PART_EN : Fld := ⟨177, 1, 0⟩
def GAL_FRANK_PART_LAST : Fld := ⟨178, 12, 0⟩
def GAL_FRANK_PART_BASE : Fld := ⟨179, 12, 0⟩
def GAL_OWN_VALID : Fld := ⟨180, 1, 0⟩
def GAL_OWN_CTXEN : Fld := ⟨181, 1, 0⟩
def GAL_OWN_CTX : Fld := ⟨182, 10, 0⟩
def GAL_OWN_STATE : Fld := ⟨183, 2, 0⟩
def GAL_OWN_PART : Fld := ⟨184, 6, 0⟩
def STN_ID_ISLAND : Fld := ⟨185, 7, 0⟩
def STN_ID_PRESENT : Fld := ⟨186, 1, 1⟩
def STN_ID_HOME : Fld := ⟨187, 6, 0⟩
def STN_ID_STATION : Fld := ⟨188, 6, 0⟩
def STN_FMT_LONGBYTES : Fld := ⟨189, 8, 40⟩
def STN_FMT_ACCBITS : Fld := ⟨190, 8, 96⟩
def STN_FMT_MX : Fld := ⟨191, 1, 1⟩
def STN_FMT_E2M1 : Fld := ⟨192, 1, 1⟩
def STN_FMT_E2M3 : Fld := ⟨193, 1, 1⟩
def STN_FMT_E3M2 : Fld := ⟨194, 1, 1⟩
def STN_FMT_E4M3 : Fld := ⟨195, 1, 1⟩
def STN_FMT_E5M2 : Fld := ⟨196, 1, 1⟩
def STN_FMT_BF16 : Fld := ⟨197, 1, 1⟩
def STN_FMT_FP16 : Fld := ⟨198, 1, 1⟩
def STN_FMT_FP32 : Fld := ⟨199, 1, 1⟩
def STN_FMT_INT32 : Fld := ⟨200, 1, 1⟩
def STN_FMT_INT16 : Fld := ⟨201, 1, 1⟩
def STN_FMT_INT8 : Fld := ⟨202, 1, 1⟩
def STN_FMT_INT4 : Fld := ⟨203, 1, 1⟩
def STN_FMT_SR : Fld := ⟨204, 1, 1⟩
def STN_AFLAGS_ALIGN : Fld := ⟨205, 1, 0⟩
def STN_AFLAGS_RANGE : Fld := ⟨206, 1, 0⟩
def STN_AFLAGS_SATURATE : Fld := ⟨207, 1, 0⟩
def STN_AFLAGS_UNDERFLOW : Fld := ⟨208, 1, 0⟩
def STN_AFLAGS_OVERFLOW : Fld := ⟨209, 1, 0⟩
def STN_AFLAGS_INVALID : Fld := ⟨210, 1, 0⟩
def STN_PSTAT_STATE : Fld := ⟨211, 3, 0⟩
def STN_PSTAT_QUEUE : Fld := ⟨212, 12, 0⟩
def STN_PSTAT_FIRST : Fld := ⟨213, 6, 0⟩
def STN_PSTAT_POS : Fld := ⟨214, 6, 0⟩
def STN_PSTAT_DEPTH : Fld := ⟨215, 6, 0⟩
def STN_PSTAT_LEFT : Fld := ⟨216, 20, 0⟩
def STN_PSTAT_PC : Fld := ⟨217, 10, 0⟩
def STN_PFLAGS_FLAGS : Fld := ⟨218, 6, 0⟩
def STN_PERR_CAUSE : Fld := ⟨219, 4, 0⟩
def STN_PERR_SDESC : Fld := ⟨220, 3, 0⟩
def STN_PERR_INSTR : Fld := ⟨221, 10, 0⟩
def STN_FIFO_FWDCRED : Fld := ⟨222, 8, 0⟩
def STN_FIFO_BACKCRED : Fld := ⟨223, 8, 0⟩
def STN_FIFO_FWDIN : Fld := ⟨224, 8, 0⟩
def STN_FIFO_BACKIN : Fld := ⟨225, 8, 0⟩
def STN_FIFO_F0Q : Fld := ⟨226, 8, 0⟩
def STN_FIFO_F1Q : Fld := ⟨227, 8, 0⟩
def STN_FIFO_EQ : Fld := ⟨228, 8, 0⟩
def STN_RUNCYC_CYCLES : Fld := ⟨229, 64, 0⟩
def STN_STALLCYC_CYCLES : Fld := ⟨230, 64, 0⟩
def STN_X_VALUE : Fld := ⟨231, 64, 0⟩
def XLT_CAP_VABITS : Fld := ⟨232, 8, 57⟩
def XLT_CAP_PABITS : Fld := ⟨233, 8, 56⟩
def XLT_CAP_NCTX : Fld := ⟨234, 16, 1024⟩
def XLT_CAP_NSEG : Fld := ⟨235, 8, 64⟩
def XLT_CAP_ETB : Fld := ⟨236, 8, 64⟩
def XLT_CAP_STCK : Fld := ⟨237, 16, 16⟩
def XLT_PFCFG_LIMIT : Fld := ⟨238, 32, 1000⟩
def XLT_INVCFG_ELIMIT : Fld := ⟨239, 32, 1000⟩
def XLT_STAT_PFAULTS : Fld := ⟨240, 32, 0⟩
def XLT_STAT_INVACTIVE : Fld := ⟨241, 8, 0⟩
def XLT_ERR_CAUSE : Fld := ⟨242, 4, 0⟩
def XLT_ERR_WHERE : Fld := ⟨243, 10, 0⟩
def XLT_ACNT_BASE_BASE : Fld := ⟨244, 35, 0⟩
def XLT_ACNT_CFG_EN : Fld := ⟨245, 1, 0⟩
def XLT_ACNT_CFG_DECAY : Fld := ⟨246, 16, 0⟩
def XLT_ACNT_CFG_THRESH : Fld := ⟨247, 32, 65536⟩
def XLT_ACNT_SEL_INDEX : Fld := ⟨248, 16, 0⟩
def XLT_ACNT_VAL_COUNT : Fld := ⟨249, 32, 0⟩
def XLT_MIGR_NOTE_VALID : Fld := ⟨250, 1, 0⟩
def XLT_MIGR_NOTE_LOST : Fld := ⟨251, 15, 0⟩
def XLT_MIGR_NOTE_INDEX : Fld := ⟨252, 16, 0⟩
def XLT_MIGR_POP_POP : Fld := ⟨253, 1, 0⟩
def XLT_CTX_EN : Fld := ⟨254, 1, 0⟩
def XLT_CTX_SEC : Fld := ⟨255, 1, 0⟩
def XLT_CTX_PART : Fld := ⟨256, 6, 0⟩
def XLT_CTX_MMEN : Fld := ⟨257, 1, 0⟩
def XLT_CTX_SEGCNT : Fld := ⟨258, 7, 0⟩
def XLT_CTX_SEGBASE : Fld := ⟨259, 44, 0⟩
def XLT_CTX_MMROOT : Fld := ⟨260, 44, 0⟩
def XLT_CTX_DRAINING : Fld := ⟨261, 1, 0⟩
def XLT_CTX_EPOCH : Fld := ⟨262, 32, 0⟩
def FAB_CAP_LINKS : Fld := ⟨263, 4, 6⟩
def FAB_CAP_LPMIN : Fld := ⟨264, 4, 1⟩
def FAB_CAP_LPMAX : Fld := ⟨265, 4, 2⟩
def FAB_CAP_MAXCHIP : Fld := ⟨266, 8, 16⟩
def FAB_CAP_NGROUP : Fld := ⟨267, 16, 256⟩
def FAB_CAP_MAXRANK : Fld := ⟨268, 8, 64⟩
def FAB_ID_LOCKED : Fld := ⟨269, 1, 0⟩
def FAB_ID_CHIP : Fld := ⟨270, 4, 0⟩
def FAB_MEMBERS_CHIPS : Fld := ⟨271, 16, 0⟩
def FAB_TIME_NS : Fld := ⟨272, 64, 0⟩
def FAB_TSYNC_SYNC : Fld := ⟨273, 1, 0⟩
def FAB_TSYNC_SOURCE : Fld := ⟨274, 1, 1⟩
def FAB_TSYNC_SRC : Fld := ⟨275, 4, 0⟩
def FAB_TSYNC_HOPS : Fld := ⟨276, 3, 0⟩
def FAB_TSYNC_STEPS : Fld := ⟨277, 16, 0⟩
def FAB_TSYNC_OFFSET : Fld := ⟨278, 16, 0⟩
def FAB_TSRC_AUTO : Fld := ⟨279, 1, 1⟩
def FAB_TSRC_SRC : Fld := ⟨280, 4, 0⟩
def FAB_MEMIN_CHIPS : Fld := ⟨281, 16, 0⟩
def FAB_HOLD_HOLD : Fld := ⟨282, 32, 10⟩
def FAB_FLOOR_SET : Fld := ⟨283, 20, 148247⟩
def FAB_COLL_STEPLIM : Fld := ⟨284, 32, 10000⟩
def FAB_COLL_SMALL : Fld := ⟨285, 32, 65536⟩
def FAB_ERR_CAUSE : Fld := ⟨286, 4, 0⟩
def FAB_ERR_WHERE : Fld := ⟨287, 8, 0⟩
def FAB_ROUTE_EN : Fld := ⟨288, 1, 0⟩
def FAB_ROUTE_LINK : Fld := ⟨289, 3, 0⟩
def FAB_LCTL_CMD : Fld := ⟨290, 4, 0⟩
def FAB_LSTAT_STATE : Fld := ⟨291, 3, 0⟩
def FAB_LSTAT_CAUSE : Fld := ⟨292, 4, 0⟩
def FAB_LSTAT_WIDTH : Fld := ⟨293, 8, 0⟩
def FAB_LSTAT_RATE : Fld := ⟨294, 8, 0⟩
def FAB_LREV_CHOSEN : Fld := ⟨295, 20, 0⟩
def FAB_LANN_MAX : Fld := ⟨296, 20, 148247⟩
def FAB_LPEER_CHIP : Fld := ⟨297, 4, 0⟩
def FAB_LPEER_MAX : Fld := ⟨298, 20, 0⟩
def FAB_LPEER_MIN : Fld := ⟨299, 20, 0⟩
def FAB_LCNT_BADFLIT : Fld := ⟨300, 16, 0⟩
def FAB_LCNT_TXFLITS : Fld := ⟨301, 24, 0⟩
def FAB_LCNT_RXFLITS : Fld := ⟨302, 24, 0⟩
def FAB_GRP_EN : Fld := ⟨303, 1, 0⟩
def FAB_GRP_NRANK : Fld := ⟨304, 7, 0⟩
def FAB_GRP_DIGEST : Fld := ⟨305, 32, 0⟩
def ECH_CAP_PRESENT : Fld := ⟨306, 1, 1⟩
def ECH_CAP_MAXLINES : Fld := ⟨307, 32, 131072⟩
def ECH_CTL_SECONDARY : Fld := ⟨308, 1, 0⟩
def ECH_CTL_CMD : Fld := ⟨309, 4, 0⟩
def ECH_STAT_MODE : Fld := ⟨310, 2, 0⟩
def ECH_STAT_ROLE : Fld := ⟨311, 3, 0⟩
def ECH_STAT_PAIR : Fld := ⟨312, 3, 0⟩
def ECH_STAT_TIEBREAK : Fld := ⟨313, 1, 0⟩
def ECH_STAT_PEERTB : Fld := ⟨314, 1, 0⟩
def ECH_STAT_UNRETIRED : Fld := ⟨315, 32, 0⟩
def ECH_HB_LOSS : Fld := ⟨316, 16, 1000⟩
def ECH_HB_PERIOD : Fld := ⟨317, 16, 100⟩
def ECH_CMP_WAIT : Fld := ⟨318, 32, 1000⟩
def ECH_PARTS_PARTS : Fld := ⟨319, 64, 0⟩
def ECH_ERR_CAUSE : Fld := ⟨320, 4, 0⟩
def ECH_CNT_BAD : Fld := ⟨321, 32, 0⟩
def ECH_CNT_RESENT : Fld := ⟨322, 32, 0⟩
def ECH_DIV_Q_ID : Fld := ⟨323, 64, 0⟩
def ECH_DIV_LOCAL_DIGEST : Fld := ⟨324, 64, 0⟩
def ECH_DIV_PEER_DIGEST : Fld := ⟨325, 64, 0⟩
def ECH_CFGDIG_DIGEST : Fld := ⟨326, 64, 0⟩
def ECH_GAL_EN : Fld := ⟨327, 1, 0⟩
def ECH_GAL_SIZE : Fld := ⟨328, 13, 0⟩
def ECH_GAL_BASE : Fld := ⟨329, 13, 0⟩
def FLT_CAP_NGROUP : Fld := ⟨330, 8, 16⟩
def FLT_CAP_RECBYTES : Fld := ⟨331, 8, 64⟩
def FLT_CAP_MINLOG2 : Fld := ⟨332, 8, 8⟩
def FLT_CAP_MAXLOG2 : Fld := ⟨333, 8, 16⟩
def FLT_CAP_LANTERNAON : Fld := ⟨334, 16, 2048⟩
def FLT_CFG_AUTOACK : Fld := ⟨335, 1, 1⟩
def FLT_CFG_PROGOUT : Fld := ⟨336, 1, 0⟩
def FLT_CFG_ACKDELAY : Fld := ⟨337, 32, 1000⟩
def FLT_STAT_FATALOUT : Fld := ⟨338, 1, 0⟩
def FLT_STAT_CONTAINEDOUT : Fld := ⟨339, 1, 0⟩
def FLT_STAT_LANTERN : Fld := ⟨340, 1, 0⟩
def FLT_STAT_AWAKE : Fld := ⟨341, 1, 0⟩
def FLT_STAT_SEQ : Fld := ⟨342, 32, 0⟩
def FLT_FATAL_VALID : Fld := ⟨343, 1, 0⟩
def FLT_FATAL_OVF : Fld := ⟨344, 1, 0⟩
def FLT_FATAL_ESC : Fld := ⟨345, 1, 0⟩
def FLT_FATAL_PV : Fld := ⟨346, 1, 0⟩
def FLT_FATAL_GROUP : Fld := ⟨347, 4, 0⟩
def FLT_FATAL_CAUSE : Fld := ⟨348, 8, 0⟩
def FLT_FATAL_PART : Fld := ⟨349, 6, 0⟩
def FLT_FATAL_SEQ : Fld := ⟨350, 32, 0⟩
def FLT_FATAL_TIME_NS : Fld := ⟨351, 64, 0⟩
def FLT_GRING_BASE_BASE : Fld := ⟨352, 44, 0⟩
def FLT_GRING_CFG_EN : Fld := ⟨353, 1, 0⟩
def FLT_GRING_CFG_IRQ : Fld := ⟨354, 1, 0⟩
def FLT_GRING_CFG_LOG2 : Fld := ⟨355, 5, 8⟩
def FLT_GRING_HEAD_HEAD : Fld := ⟨356, 32, 0⟩
def FLT_GRING_POS_POS : Fld := ⟨357, 32, 0⟩
def FLT_G_DEAD_FIRST : Fld := ⟨358, 32, 0⟩
def FLT_G_DEAD_DEAD : Fld := ⟨359, 32, 0⟩
def FLT_HOLD_BUDGET_BUDGET : Fld := ⟨360, 16, 10⟩
def FLT_INJ_ARM : Fld := ⟨361, 1, 0⟩
def FLT_INJ_DONE : Fld := ⟨362, 1, 0⟩
def FLT_INJ_ERR : Fld := ⟨363, 1, 0⟩
def FLT_INJ_TARGET : Fld := ⟨364, 2, 0⟩
def FLT_INJ_POS2 : Fld := ⟨365, 7, 127⟩
def FLT_INJ_POS1 : Fld := ⟨366, 7, 127⟩
def FLT_INJ_POS0 : Fld := ⟨367, 7, 127⟩
def FLT_INJ_ADDR_WORD : Fld := ⟨368, 61, 0⟩
def FLT_LATCH_C_VALID : Fld := ⟨369, 1, 0⟩
def FLT_LATCH_C_OVF : Fld := ⟨370, 1, 0⟩
def FLT_LATCH_C_ESCL : Fld := ⟨371, 1, 0⟩
def FLT_LATCH_C_ESC : Fld := ⟨372, 1, 0⟩
def FLT_LATCH_C_CAUSE : Fld := ⟨373, 8, 0⟩
def FLT_LATCH_C_PART : Fld := ⟨374, 6, 0⟩
def FLT_LATCH_C_PV : Fld := ⟨375, 1, 0⟩
def FLT_LATCH_C_UNIT : Fld := ⟨376, 13, 0⟩
def FLT_LATCH_C_SEQ : Fld := ⟨377, 32, 0⟩
def FLT_LATCH_K_VALID : Fld := ⟨378, 1, 0⟩
def FLT_LATCH_K_OVF : Fld := ⟨379, 1, 0⟩
def FLT_LATCH_K_ESCL : Fld := ⟨380, 1, 0⟩
def FLT_LATCH_K_ESC : Fld := ⟨381, 1, 0⟩
def FLT_LATCH_K_CAUSE : Fld := ⟨382, 8, 0⟩
def FLT_LATCH_K_PART : Fld := ⟨383, 6, 0⟩
def FLT_LATCH_K_PV : Fld := ⟨384, 1, 0⟩
def FLT_LATCH_K_UNIT : Fld := ⟨385, 13, 0⟩
def FLT_LATCH_K_SEQ : Fld := ⟨386, 32, 0⟩
def FLT_CNT_CONTAINED : Fld := ⟨387, 32, 0⟩
def FLT_CNT_CORRECTED : Fld := ⟨388, 32, 0⟩
def FLT_PRING_BASE_BASE : Fld := ⟨389, 52, 0⟩
def FLT_PRING_CFG_EN : Fld := ⟨390, 1, 0⟩
def FLT_PRING_CFG_IRQ : Fld := ⟨391, 1, 0⟩
def FLT_PRING_CFG_CTX : Fld := ⟨392, 10, 0⟩
def FLT_PRING_CFG_LOG2 : Fld := ⟨393, 5, 8⟩
def FLT_PLATCH_VALID : Fld := ⟨394, 1, 0⟩
def FLT_PLATCH_OVF : Fld := ⟨395, 1, 0⟩
def FLT_PLATCH_ESCL : Fld := ⟨396, 1, 0⟩
def FLT_PLATCH_ESC : Fld := ⟨397, 1, 0⟩
def FLT_PLATCH_CAUSE : Fld := ⟨398, 8, 0⟩
def FLT_PLATCH_PART : Fld := ⟨399, 6, 0⟩
def FLT_PLATCH_PV : Fld := ⟨400, 1, 0⟩
def FLT_PLATCH_GROUP : Fld := ⟨401, 4, 0⟩
def FLT_PLATCH_SEQ : Fld := ⟨402, 32, 0⟩
def PWR_CMD_CMD : Fld := ⟨403, 4, 0⟩
def PWR_STATE_STATE : Fld := ⟨404, 3, 0⟩
def PWR_STATE_EMERG : Fld := ⟨405, 1, 0⟩
def PWR_STATE_REFUSE : Fld := ⟨406, 4, 0⟩
def PWR_WAKE_TIME_TIME : Fld := ⟨407, 64, 0⟩
def PWR_WAKE_CAUSE_COUNT : Fld := ⟨408, 32, 0⟩
def PWR_WAKE_CAUSE_TIMER : Fld := ⟨409, 1, 0⟩
def PWR_WAKE_CAUSE_PWAKE : Fld := ⟨410, 1, 0⟩
def PWR_WAKE_CAUSE_DOORBELL : Fld := ⟨411, 1, 0⟩
def PWR_WAKE_CAUSE_ECHO : Fld := ⟨412, 1, 0⟩
def PWR_WAKE_CAUSE_LINK : Fld := ⟨413, 6, 0⟩
def PWR_SAFE_RAMP : Fld := ⟨414, 16, 8000⟩
def PWR_SAFE_CTL : Fld := ⟨415, 4, 10⟩
def PWR_SAFE_HALL : Fld := ⟨416, 4, 10⟩
def PWR_SAFE_STN : Fld := ⟨417, 4, 8⟩
def PWR_CLAMP_SUPPLY : Fld := ⟨418, 1, 0⟩
def PWR_CLAMP_CTL : Fld := ⟨419, 4, 4⟩
def PWR_CLAMP_HALL : Fld := ⟨420, 4, 4⟩
def PWR_CLAMP_STN : Fld := ⟨421, 4, 2⟩
def PWR_THR_HYST : Fld := ⟨422, 4, 3⟩
def PWR_THR_TRIP : Fld := ⟨423, 12, 920⟩
def PWR_THR_ALERT : Fld := ⟨424, 12, 840⟩
def PWR_THR_HOT : Fld := ⟨425, 12, 760⟩
def PWR_THR_WARM : Fld := ⟨426, 12, 680⟩
def PWR_CAP_ZONES : Fld := ⟨427, 8, 14⟩
def PWR_CAP_SENSORS : Fld := ⟨428, 8, 64⟩
def PWR_CAP_EXT : Fld := ⟨429, 8, 16⟩
def PWR_CAP_LEVELS : Fld := ⟨430, 8, 16⟩
def PWR_CAP_NDOM : Fld := ⟨431, 16, 645⟩
def PWR_CFG_DOWNSLEW : Fld := ⟨432, 1, 0⟩
def PWR_CFG_PHRET : Fld := ⟨433, 1, 0⟩
def PWR_CFG_GATE : Fld := ⟨434, 16, 50⟩
def PWR_CFG_DOMTMO : Fld := ⟨435, 16, 100⟩
def PWR_CFG_SLEW : Fld := ⟨436, 10, 50⟩
def PWR_CEIL_EFFECTIVE : Fld := ⟨437, 16, 3600⟩
def PWR_CEIL_PPORT : Fld := ⟨438, 16, 0⟩
def PWR_CEIL_COMMITTED : Fld := ⟨439, 16, 0⟩
def PWR_CEIL_LIMIT : Fld := ⟨440, 16, 3600⟩
def PWR_STAT_FASTDROP : Fld := ⟨441, 16, 0⟩
def PWR_STAT_OVER : Fld := ⟨442, 16, 0⟩
def PWR_STAT_FALLBACK : Fld := ⟨443, 1, 1⟩
def PWR_STAT_FCSTVALID : Fld := ⟨444, 1, 0⟩
def PWR_STAT_SHAREHOLD : Fld := ⟨445, 1, 0⟩
def PWR_STAT_EFFSLEW : Fld := ⟨446, 10, 50⟩
def PWR_EST_ENVELOPE : Fld := ⟨447, 16, 0⟩
def PWR_EST_P10US : Fld := ⟨448, 16, 0⟩
def PWR_EST_P1MS : Fld := ⟨449, 16, 0⟩
def PWR_ENERGY_UJ : Fld := ⟨450, 64, 0⟩
def PWR_UNATTR_UJ : Fld := ⟨451, 64, 0⟩
def PWR_ISL_REQ : Fld := ⟨452, 4, 0⟩
def PWR_ISL_THERM : Fld := ⟨453, 4, 0⟩
def PWR_ISL_GOV : Fld := ⟨454, 4, 15⟩
def PWR_ISL_CLAMPED : Fld := ⟨455, 1, 0⟩
def PWR_ISL_GATED : Fld := ⟨456, 1, 0⟩
def PWR_ISL_FLOOR : Fld := ⟨457, 4, 0⟩
def PWR_ISL_MAXL : Fld := ⟨458, 4, 15⟩
def PWR_CPOL_DRET : Fld := ⟨459, 1, 0⟩
def PWR_CPOL_NRET : Fld := ⟨460, 1, 1⟩
def PWR_SENS_VALID : Fld := ⟨461, 1, 0⟩
def PWR_SENS_STATE : Fld := ⟨462, 3, 0⟩
def PWR_SENS_ISLAND : Fld := ⟨463, 7, 0⟩
def PWR_SENS_ZONE : Fld := ⟨464, 5, 0⟩
def PWR_SENS_TEMP : Fld := ⟨465, 12, 2048⟩
def PWR_EXTCFG_EN : Fld := ⟨466, 1, 0⟩
def PWR_EXTCFG_STATES : Fld := ⟨467, 1, 0⟩
def PWR_EXTCFG_PORTEN : Fld := ⟨468, 1, 0⟩
def PWR_EXTCFG_PORT : Fld := ⟨469, 5, 0⟩
def PWR_EXTCFG_ZONE : Fld := ⟨470, 5, 0⟩
def PWR_EXTCFG_KIND : Fld := ⟨471, 3, 0⟩
def PWR_EXTCFG_TRIP : Fld := ⟨472, 12, 920⟩
def PWR_EXTCFG_ALERT : Fld := ⟨473, 12, 840⟩
def PWR_EXTCFG_HOT : Fld := ⟨474, 12, 760⟩
def PWR_EXTCFG_WARM : Fld := ⟨475, 12, 680⟩
def PWR_ZONE_STATE : Fld := ⟨476, 3, 0⟩
def PWR_ZONE_CLAMPED : Fld := ⟨477, 1, 0⟩
def PWR_ZONE_NOSENSE : Fld := ⟨478, 1, 0⟩
def PWR_ZONE_CAP : Fld := ⟨479, 4, 0⟩
def PWR_ZONE_PRED : Fld := ⟨480, 12, 0⟩
def PWR_ZMODEL_RJPRPKRKCRCOOL : Fld := ⟨481, 64, 0⟩
def PWR_ZMODEL_CJCPCKCC : Fld := ⟨482, 64, 0⟩
def PWR_ZMODEL_HORIZON : Fld := ⟨483, 16, 2000⟩
def PWR_ZMODEL_GAIN : Fld := ⟨484, 8, 32⟩
def PWR_FCST_SEQ : Fld := ⟨485, 16, 0⟩
def PWR_FCST_UPPER : Fld := ⟨486, 16, 0⟩
def PWR_FCST_EXPECT : Fld := ⟨487, 16, 0⟩
def PWR_DOM_REQ : Fld := ⟨488, 2, 0⟩
def PWR_DOM_STATE : Fld := ⟨489, 2, 0⟩
def PWR_DOM_FAILED : Fld := ⟨490, 1, 0⟩
def FW_CAP_ABI : Fld := ⟨491, 4, 7⟩
def FW_CAP_NCORES : Fld := ⟨492, 4, 6⟩
def FW_CAP_VAULTKIB : Fld := ⟨493, 16, 4096⟩
def FW_CAP_SLOTKIB : Fld := ⟨494, 16, 1536⟩
def FW_CAP_COREKIB : Fld := ⟨495, 16, 512⟩
def FW_BOOT_SLOT : Fld := ⟨496, 1, 0⟩
def FW_BOOT_GO : Fld := ⟨497, 1, 0⟩
def FW_STAT_STATE : Fld := ⟨498, 3, 0⟩
def FW_STAT_VAULTREADY : Fld := ⟨499, 1, 0⟩
def FW_STAT_ACTIVESLOT : Fld := ⟨500, 1, 0⟩
def FW_STAT_REJECT : Fld := ⟨501, 4, 0⟩
def FW_STAT_FLOOR : Fld := ⟨502, 7, 0⟩
def FW_STAT_IMAGERB : Fld := ⟨503, 8, 0⟩
def FW_STAT_EDITION : Fld := ⟨504, 32, 0⟩
def FW_VAULT_ADDR_ERR : Fld := ⟨505, 1, 0⟩
def FW_VAULT_ADDR_AUTOINC : Fld := ⟨506, 1, 0⟩
def FW_VAULT_ADDR_ADDR : Fld := ⟨507, 19, 0⟩
def FW_VAULT_DATA_DATA : Fld := ⟨508, 64, 0⟩
def FW_UPDATE_STATE : Fld := ⟨509, 3, 0⟩
def FW_UPDATE_DEFER : Fld := ⟨510, 3, 0⟩
def FW_UPDATE_REJECT : Fld := ⟨511, 4, 0⟩
def FW_UPDATE_CMD : Fld := ⟨512, 4, 0⟩
def FW_STAGED_EDITION : Fld := ⟨513, 32, 0⟩
def FW_WDT_PERIOD : Fld := ⟨514, 32, 500⟩
def FW_DIGEST_DIGEST : Fld := ⟨515, 64, 0⟩
def FW_LOG_BASE_BASE : Fld := ⟨516, 44, 0⟩
def FW_LOG_CFG_EN : Fld := ⟨517, 1, 0⟩
def FW_LOG_CFG_IRQ : Fld := ⟨518, 1, 0⟩
def FW_LOG_CFG_CORES : Fld := ⟨519, 6, 63⟩
def FW_LOG_CFG_LEVEL : Fld := ⟨520, 2, 1⟩
def FW_LOG_CFG_LOG2 : Fld := ⟨521, 5, 8⟩
def FW_LOG_POS_POS : Fld := ⟨522, 32, 0⟩
def FW_LOG_HEAD_HEAD : Fld := ⟨523, 32, 0⟩
def FW_LOG_DROP_DROPPED : Fld := ⟨524, 32, 0⟩
def FW_CORE_STATE : Fld := ⟨525, 3, 0⟩
def FW_CORE_CAUSE : Fld := ⟨526, 3, 0⟩
def FW_CORE_RESTARTS : Fld := ⟨527, 16, 0⟩
def PRT_CTL_CMD : Fld := ⟨528, 4, 0⟩
def PRT_STAT_STATE : Fld := ⟨529, 2, 0⟩
def PRT_STAT_ABORT : Fld := ⟨530, 1, 0⟩
def PRT_STAT_STEP : Fld := ⟨531, 3, 0⟩
def PRT_STAT_REFUSE : Fld := ⟨532, 4, 0⟩
def PRT_STAT_NQ : Fld := ⟨533, 13, 0⟩
def PRT_STAT_DISABLES : Fld := ⟨534, 32, 0⟩
def PRT_CFG_DRAINLIM : Fld := ⟨535, 32, 0⟩
def PRT_MBOX_CTL_STATE : Fld := ⟨536, 3, 0⟩
def PRT_MBOX_CTL_CMD : Fld := ⟨537, 4, 0⟩
def PRT_MBOX_REQ_WORD : Fld := ⟨538, 64, 0⟩
def PRT_MBOX_RSP_WORD : Fld := ⟨539, 64, 0⟩
def PRT_DONE_DONE : Fld := ⟨540, 64, 0⟩
def PRT_PEND_PEND : Fld := ⟨541, 64, 0⟩
def OBS_CAP_LBFMT : Fld := ⟨542, 8, 1⟩
def OBS_CAP_STAGEK : Fld := ⟨543, 16, 64⟩
def OBS_CAP_MINLOG2 : Fld := ⟨544, 8, 10⟩
def OBS_CAP_MAXLOG2 : Fld := ⟨545, 8, 20⟩
def OBS_CAP_TRCFIFO : Fld := ⟨546, 16, 512⟩
def OBS_CFG_OPENLAB : Fld := ⟨547, 1, 0⟩
def OBS_PLC_SEL_KIND : Fld := ⟨548, 3, 0⟩
def OBS_PLC_SEL_INDEX : Fld := ⟨549, 8, 0⟩
def OBS_PLC_TIME_NS : Fld := ⟨550, 64, 0⟩
def OBS_PLC_BYTES_BYTES : Fld := ⟨551, 64, 0⟩
def OBS_PLC_ENERGY_UJ : Fld := ⟨552, 64, 0⟩
def OBS_ENG_BUSY_NS : Fld := ⟨553, 64, 0⟩
def OBS_STN_BUSY_NS : Fld := ⟨554, 64, 0⟩
def OBS_HALL_SLOTS_SLOTS : Fld := ⟨555, 64, 0⟩
def OBS_LB_BASE_BASE : Fld := ⟨556, 44, 0⟩
def OBS_LB_CFG_EN : Fld := ⟨557, 1, 0⟩
def OBS_LB_CFG_IRQ : Fld := ⟨558, 1, 0⟩
def OBS_LB_CFG_HOLD : Fld := ⟨559, 1, 0⟩
def OBS_LB_CFG_GMODE : Fld := ⟨560, 2, 1⟩
def OBS_LB_CFG_LOG2 : Fld := ⟨561, 5, 10⟩
def OBS_LB_POS_POS : Fld := ⟨562, 32, 0⟩
def OBS_LB_HEAD_HEAD : Fld := ⟨563, 32, 0⟩
def OBS_LB_STAT_DROPPED : Fld := ⟨564, 32, 0⟩
def OBS_LB_STAT_CORR : Fld := ⟨565, 15, 0⟩
def OBS_LB_STAT_STAGED : Fld := ⟨566, 17, 0⟩
def OBS_LB_SEQ_SEQ : Fld := ⟨567, 32, 0⟩
def OBS_LB_MODE_MODES : Fld := ⟨568, 64, 0⟩
def OBS_RP_BASE_BASE : Fld := ⟨569, 44, 0⟩
def OBS_RP_LEN_RECORDS : Fld := ⟨570, 32, 0⟩
def OBS_RP_PARTS_PARTS : Fld := ⟨571, 64, 0⟩
def OBS_RP_CFG_INPUTS : Fld := ⟨572, 1, 0⟩
def OBS_RP_CFG_WAIT : Fld := ⟨573, 32, 100⟩
def OBS_RP_CTL_CMD : Fld := ⟨574, 4, 0⟩
def OBS_RP_STAT_STATE : Fld := ⟨575, 3, 0⟩
def OBS_RP_STAT_CAUSE : Fld := ⟨576, 4, 0⟩
def OBS_RP_STAT_USED : Fld := ⟨577, 32, 0⟩
def OBS_RP_DIV0_SEQ : Fld := ⟨578, 32, 0⟩
def OBS_RP_DIV0_QUEUE : Fld := ⟨579, 12, 0⟩
def OBS_RP_DIV0_KIND : Fld := ⟨580, 7, 0⟩
def OBS_RP_DIV1_SQCOUNT : Fld := ⟨581, 32, 0⟩
def OBS_RP_DIV1_ORDINAL : Fld := ⟨582, 20, 0⟩
def OBS_TRC_CFG_EN : Fld := ⟨583, 1, 0⟩
def OBS_TRC_CFG_LB : Fld := ⟨584, 1, 0⟩
def OBS_TRC_CFG_PM : Fld := ⟨585, 1, 0⟩
def OBS_TRC_CFG_CNT : Fld := ⟨586, 1, 0⟩
def OBS_TRC_CFG_SET : Fld := ⟨587, 8, 0⟩
def OBS_TRC_CFG_PERIOD : Fld := ⟨588, 32, 0⟩
def OBS_TRC_PMASK_PARTS : Fld := ⟨589, 64, 0⟩
def OBS_TRC_STAT_DROPPED : Fld := ⟨590, 32, 0⟩
def OBS_TRC_STAT_ITEMS : Fld := ⟨591, 32, 0⟩
def CMT_CAP_OTPBYTES : Fld := ⟨592, 32, 0⟩
def CMT_CAP_SLOTS : Fld := ⟨593, 16, 0⟩
def CMT_CAP_USED : Fld := ⟨594, 16, 0⟩
def CMT_ARM_SETTING : Fld := ⟨595, 4, 0⟩
def CMT_ARM_LINK : Fld := ⟨596, 3, 0⟩
def CMT_ARM_FORV : Fld := ⟨597, 1, 0⟩
def CMT_ARM_FOR : Fld := ⟨598, 6, 0⟩
def CMT_ARM_VALUE : Fld := ⟨599, 24, 0⟩
def CMT_COMMIT_SETTING : Fld := ⟨600, 4, 0⟩
def CMT_COMMIT_LINK : Fld := ⟨601, 3, 0⟩
def CMT_COMMIT_FORV : Fld := ⟨602, 1, 0⟩
def CMT_COMMIT_FOR : Fld := ⟨603, 6, 0⟩
def CMT_COMMIT_VALUE : Fld := ⟨604, 24, 0⟩
def CMT_STAT_STATE : Fld := ⟨605, 2, 0⟩
def CMT_STAT_DONE : Fld := ⟨606, 1, 0⟩
def CMT_STAT_CAUSE : Fld := ⟨607, 4, 0⟩
def CMT_UID_UID : Fld := ⟨608, 64, 0⟩
def CMT_VAL_COUNT : Fld := ⟨609, 8, 0⟩
def CMT_VAL_VALUE : Fld := ⟨610, 24, 0⟩
def CMT_LINK_REPAIRS : Fld := ⟨611, 4, 0⟩
def CMT_LINK_LOCK : Fld := ⟨612, 24, 0⟩
def CMT_LOGSEL_SLOT : Fld := ⟨613, 16, 0⟩
def CMT_LOG_WORD : Fld := ⟨614, 64, 0⟩
def CMT_CHAL_WORD : Fld := ⟨615, 64, 0⟩
def CMT_TOKEN_WORD : Fld := ⟨616, 64, 0⟩
def PH_PW_SEL_PH : Fld := ⟨617, 21, 0⟩
def PH_PW_VALUE_VALUE : Fld := ⟨618, 64, 0⟩
def PH_PW_POLL_INTERVAL : Fld := ⟨619, 10, 0⟩
def PH_PW_CYCLE_COUNT : Fld := ⟨620, 16, 0⟩
def PH_PW_CYCLE_LEN : Fld := ⟨621, 13, 0⟩
def PH_PW_USE_WUSED : Fld := ⟨622, 18, 0⟩
def PH_PW_USE_WQUOTA : Fld := ⟨623, 18, 0⟩
def SCH_PW_ENG_NS_COUNT : Fld := ⟨624, 64, 0⟩
def SCH_PW_STN_NS_COUNT : Fld := ⟨625, 64, 0⟩
def SCH_PW_BYTES_COUNT : Fld := ⟨626, 64, 0⟩
def SCH_PW_ENERGY_UJ_COUNT : Fld := ⟨627, 64, 0⟩
def SCH_PW_BAL_BALANCE : Fld := ⟨628, 64, 0⟩
def GAL_PW_ADDR_ERR : Fld := ⟨629, 1, 0⟩
def GAL_PW_ADDR_AUTOINC : Fld := ⟨630, 1, 0⟩
def GAL_PW_ADDR_ADDR : Fld := ⟨631, 26, 0⟩
def GAL_PW_DATA_DATA : Fld := ⟨632, 64, 0⟩
def GAL_PW_DROP_SEL_WIN : Fld := ⟨633, 8, 0⟩
def GAL_PW_DROP_RANGE_LINES : Fld := ⟨634, 20, 0⟩
def GAL_PW_DROP_RANGE_BASE : Fld := ⟨635, 20, 0⟩
def GAL_PW_DROP_CTL_OPEN : Fld := ⟨636, 1, 0⟩
def GAL_PW_DROP_CTL_UNIT : Fld := ⟨637, 1, 0⟩
def GAL_PW_DROP_CTL_COURIER : Fld := ⟨638, 1, 0⟩
def GAL_PW_DROP_CTL_SETTLED : Fld := ⟨639, 1, 1⟩
def GAL_PW_DROP_CTL_ERRC : Fld := ⟨640, 4, 0⟩
def GAL_PW_DROP_CTL_SRCCHIPS : Fld := ⟨641, 16, 0⟩
def GAL_PW_DROP_CTL_COUNTER : Fld := ⟨642, 12, 0⟩
def GAL_PW_FRANK_SEL_COUNTER : Fld := ⟨643, 12, 0⟩
def GAL_PW_FRANK_VAL_VALUE : Fld := ⟨644, 64, 0⟩
def XLT_PW_RESUME_ACTION : Fld := ⟨645, 2, 0⟩
def XLT_PW_RESUME_QUEUE : Fld := ⟨646, 12, 0⟩
def XLT_PW_INV_CTL_GO : Fld := ⟨647, 1, 0⟩
def XLT_PW_INV_CTL_BUSY : Fld := ⟨648, 1, 0⟩
def XLT_PW_INV_CTL_ERR : Fld := ⟨649, 1, 0⟩
def XLT_PW_INV_CTL_SCOPE : Fld := ⟨650, 2, 0⟩
def XLT_PW_INV_CTL_SEG : Fld := ⟨651, 6, 0⟩
def XLT_PW_INV_CTL_CTX : Fld := ⟨652, 10, 0⟩
def XLT_PW_INV_START_START : Fld := ⟨653, 64, 0⟩
def XLT_PW_INV_LEN_LENGTH : Fld := ⟨654, 64, 0⟩
def XLT_PW_INV_DONE_COUNT : Fld := ⟨655, 32, 0⟩
def XLT_PW_PFCOUNT_SETASIDE : Fld := ⟨656, 13, 0⟩
def FLT_PW_POS_POS : Fld := ⟨657, 32, 0⟩
def FLT_PW_HEAD_HEAD : Fld := ⟨658, 32, 0⟩
def FLT_PW_DEAD_DEAD : Fld := ⟨659, 32, 0⟩
def FLT_PW_OVF_RECORD : Fld := ⟨660, 64, 0⟩
def OBS_PW_CTL_VIEW : Fld := ⟨661, 7, 0⟩
def OBS_PW_STAT_OPENLAB : Fld := ⟨662, 1, 0⟩
def OBS_PW_STAT_LBMODE : Fld := ⟨663, 2, 0⟩
def OBS_PW_STAT_RPSTATE : Fld := ⟨664, 3, 0⟩
def OBS_PW_ERR_CONTAINED : Fld := ⟨665, 32, 0⟩
def OBS_PW_ERR_CORRECTED : Fld := ⟨666, 32, 0⟩
def OBS_PW_PLC_SEL_KIND : Fld := ⟨667, 3, 0⟩
def OBS_PW_PLC_SEL_INDEX : Fld := ⟨668, 8, 0⟩
def OBS_PW_PLC_TIME_NS : Fld := ⟨669, 64, 0⟩
def OBS_PW_PLC_BYTES_BYTES : Fld := ⟨670, 64, 0⟩
def OBS_PW_PLC_ENERGY_UJ : Fld := ⟨671, 64, 0⟩
def OBS_PW_TRC_CFG : Fld := ⟨672, 64, 0⟩
def OBS_PW_ENG_NS : Fld := ⟨673, 64, 0⟩
def OBS_PW_STN_NS : Fld := ⟨674, 64, 0⟩
def OBS_PW_HALL_SLOTS : Fld := ⟨675, 64, 0⟩
def PRT_PW_STAT_STATE : Fld := ⟨676, 2, 0⟩
def PRT_PW_STAT_ABORT : Fld := ⟨677, 1, 0⟩
def PRT_PW_STAT_STEP : Fld := ⟨678, 3, 0⟩
def PRT_PW_STAT_PART : Fld := ⟨679, 6, 0⟩
def PRT_PW_STAT_MBOX : Fld := ⟨680, 3, 0⟩
def PRT_PW_MBOX_CTL_STATE : Fld := ⟨681, 3, 0⟩
def PRT_PW_MBOX_CTL_CMD : Fld := ⟨682, 4, 0⟩
def PRT_PW_MBOX_REQ_WORD : Fld := ⟨683, 64, 0⟩
def PRT_PW_MBOX_RSP_WORD : Fld := ⟨684, 64, 0⟩
def ECH_PW_STAT_MODE : Fld := ⟨685, 2, 0⟩
def ECH_PW_STAT_ROLE : Fld := ⟨686, 3, 0⟩
def ECH_PW_STAT_MIRRORED : Fld := ⟨687, 1, 0⟩

end F

end Sys2Proof.Machine
end

