-- ==== Sys2Proof/Machine/State.lean ====
section
/-! DEFINITION. The state of the block as plain data, and the state after reset (spec/18 R470, R471). -/

namespace Sys2Proof.Machine

/-! ### Accesses -/

/-- The identity a request carries (spec/10 R267, spec/07 R184): partition, context, and whether it is the privileged path, which no ownership check binds. -/
structure Ident where
  part : Nat
  ctx : Option Nat
  priv : Bool
  deriving DecidableEq, Repr

/-- What an access is made for: what happens when it completes. -/
inductive Purpose where
  | none
  /-- batch read of queue `q`'s ring (spec/02 R42) -/
  | batch (q : Nat)
  /-- a batch read of queue `q` whose result is discarded: the queue left ACTIVE, or ACTIVE before FROZEN, after it was issued (spec/02 R54, R56) -/
  | batchOld (q : Nat)
  /-- pre-translation at scan of a descriptor's command buffer, then of its argument block (spec/02 R47) -/
  | scanXl (q : Nat) (arg : Bool)
  /-- translation of a queue's rings: at ENABLE, or again under R61; `step` 0 descriptor ring, 1 completion ring -/
  | ringXl (q : Nat) (cq : Bool) (why : Nat)
  /-- translation of a started descriptor's ranges again (spec/02 R48) -/
  | startXl (q : Nat) (arg : Bool)
  | argBlock (q : Nat)
  | fetch (q : Nat)
  | record (q : Nat) (irq : Bool) (isEnd : Bool) (sq : Nat)
  | ld (cmd : Nat)
  | st (cmd : Nat)
  | stamp (cmd : Nat)
  | snap (cmd : Nat)
  /-- the first read of a memory fence, and its translation (spec/05 R147) -/
  | fenceRead (cmd : Nat)
  | watchXl (cmd : Nat)
  | watchRead (w : Nat)
  /-- a watch's translation again, for the WAITGE `cmd` (spec/05 R151) -/
  | watchRetrans (cmd : Nat)
  | memsigRead (cmd : Nat)
  | memsigWrite (cmd : Nat)
  | enqRead (cmd : Nat)
  | enqWrite (cmd : Nat) (t : Nat)
  | parcelRead (cmd : Nat)
  | parcelWrite (cmd : Nat)
  | move (cmd : Nat) (wr : Bool)
  | tileHdr (cmd : Nat)
  | tileEntry (cmd : Nat)
  | resolve (cmd : Nat) (k : Nat) (row : Nat) (wr : Bool)
  | passTable (cmd : Nat)
  | passLoad (cmd : Nat) (i : Nat) (what : Nat)
  | feeder (s : Nat) (u : Nat) (n : Nat)
  | emitter (s : Nat) (n : Nat)
  | coll (c : Nat) (step : Nat)
  | engXl (port : Nat) (utag : Nat) (rtag : Nat) (acc : Nat)
  | engGal (port : Nat) (utag : Nat) (gtag : Nat)
  | hostData (p : Option Nat) (hreq : Nat)
  | linkRead (l : Nat) (src : Nat) (tag : Nat)
  | linkWrite (l : Nat) (src : Nat) (tag : Nat)
  | faultRec (ring : Nat) (ix : Nat)
  | ringPage (p : Nat) (ix : Nat)
  | postmark
  | letterbook (ix : Nat)
  | lbGal (ix : Nat)
  | replay
  | echo (ix : Nat)
  | scrub (blk : Nat)
  | writeBack (addr : Nat)
  | patrol
  | invSeg (inv : Nat)
  deriving DecidableEq, Repr

/-- Where the addresses of an access lie: virtual, gallery, or an already translated range. -/
inductive ASpace where
  | va
  | gal
  | spans (l : List Span)
  deriving DecidableEq, Repr

/-- A part of an access: its offset and length in the access, where it goes, and its answer when it has come. -/
structure Part where
  tag : Nat
  off : Nat
  len : Nat
  pa : Nat
  tgt : Tgt
  issued : Bool
  done : Option Status
  deriving DecidableEq, Repr

/-- A walk in progress for the byte at offset `cur` of an access (spec/10 R271, R273): in the segment table between `lo` and `hi`, or in the mirror map at `level`. -/
structure Walk where
  seg : Bool
  lo : Nat
  hi : Nat
  loEnt : Option (List W64)
  level : Nat
  table : Nat
  tag : Nat
  vlo : Nat
  vhi : Nat
  epoch : Nat
  deriving DecidableEq, Repr

/-- What a failed translation reports (spec/10 R275, R289). -/
structure XFail where
  kind : XKind
  level : Nat
  va : Nat
  /-- the access completes with UNCORRECTED: a walk read failed (R274) -/
  bad : Bool
  /-- a page fault (R275, R286) -/
  pf : Bool
  /-- epoch of the translation that failed -/
  epoch : Nat
  deriving DecidableEq, Repr

/-- An access of the block: a range, its translation, its parts and its data (spec/10 R269, spec/18 R481). -/
structure Op where
  id : Nat
  pur : Purpose
  idn : Ident
  req : Nat
  space : ASpace
  addr : Nat
  len : Nat
  wr : Bool
  /-- access kind of R289: 0 read, 1 write, 2 fetch -/
  acc : Nat
  memOnly : Bool
  xlOnly : Bool
  sealed : Bool
  trn : Bool
  data : List Byte
  epoch : Nat
  cur : Nat
  walk : Option Walk
  rewalked : Bool
  parts : List Part
  fail : Option XFail
  deriving DecidableEq, Repr

/-- A request on an M-port that has not been answered (spec/18 R481). -/
structure MReq where
  tag : Nat
  op : Nat
  port : Nat
  pa : Nat
  len : Nat
  wr : Bool
  data : List Byte
  idn : Ident
  sec : Bool
  attr : Nat
  src : Nat
  /-- Whether it has left on the port; a request beyond the limits of R481 waits. -/
  sent : Bool
  /-- Fabric time at which an error response arrived whose error item is awaited. -/
  errAt : Option Nat
  deriving DecidableEq, Repr

/-- A request of a requester to a hall (spec/07 R182, R189). -/
structure HReq where
  tag : Nat
  op : Nat
  req : Nat
  idn : Ident
  addr : Nat
  len : Nat
  wr : Bool
  col : Bool
  /-- the block mask, 2^16 + its bits; 0 where the request names none and touches all its blocks (spec/07 R182) -/
  mask : Nat
  trn : Bool
  sealed : Bool
  narrow : Bool
  data : List Byte
  /-- source chip of a request over a link -/
  src : Option Nat
  first : Option Nat
  deriving DecidableEq, Repr

/-- An entry of a requester's gather buffer (spec/07 R193): the bytes merged so far and the requests that report its status. -/
structure Gather where
  req : Nat
  idn : Ident
  /-- source chip of writes over a link -/
  src : Option Nat
  line : Nat
  bytes : List (Nat × Byte)
  tags : List (Nat × Nat)
  age : Nat
  opened : Nat
  due : Bool
  deriving DecidableEq, Repr

/-- A routed message of a fabric link (spec/11 R298). -/
structure LMsg where
  mtype : Nat
  dst : Nat
  src : Nat
  hops : Nat
  part : Nat
  ctx : Nat
  sec : Bool
  len : Nat
  tag : Nat
  status : Nat
  addr : Nat
  data : List Byte
  deriving DecidableEq, Repr

/-- A request on a fabric link that waits to be sent or to be answered (spec/11 R305, R309). -/
structure LReq where
  tag : Nat
  op : Nat
  msg : LMsg
  sent : Bool
  link : Nat
  since : Nat
  deriving DecidableEq, Repr

/-- A link signal that waits for earlier writes of its chip to land (spec/11 R300): source chip, ADDR field, value, accesses it waits for. -/
structure LSig where
  src : Nat
  addr : Nat
  value : W64
  waits : List Nat
  deriving DecidableEq, Repr

/-! ### Faults -/

/-- A fault on its way to the collector (spec/13 R353 to R362). -/
structure Flt where
  grp : Nat
  cause : Nat
  /-- 0 CORRECTED, 1 CONTAINED, 2 FATAL, 3 notice -/
  cls : Nat
  prog : Bool
  escl : Bool
  unit : Nat
  part : Option Nat
  status : Nat
  detail : List W64
  /-- the command the fault names, which completes when its record's fate is decided (spec/13 R365) -/
  cmd : Option Nat
  /-- the queue whose fetch a page-fault notice names -/
  fetchQ : Option Nat
  deriving DecidableEq, Repr

/-! ### Queues and programs -/

/-- A record of the echo port (spec/12 R337, and the identity exchange of R335). The result of an ENQUEUE carries its target queue and the target's new PCOUNT (log 31). -/
inductive ERec where
  | ident (ident edition cfg : Nat) (tb sec : Bool)
  | heartbeat (mode role : Nat) (tb healthy : Bool)
  | qstate (q st : Nat) (pend : Bool) (sq cq head p pc epoch : Nat) (g : SMap W64) (loc : Option EdKey) (stack : List Frame)
  | phval (ph : Nat) (v : W64)
  | fkval (c : Nat) (v : W64)
  | line (addr : Nat) (data : List Byte) (full : Bool)
  | parcel (part num gen ed : Nat) (dram : Bool) (addr len : Nat) (freed : Bool)
  | sealreg (rg base size mode : Nat)
  | hinge (q sq ord status : Nat) (res : W64) (pcount : Option (Nat × Nat))
  | decision (words : List W64)
  | hostwr (q : Nat) (head : Option Nat)
  | retire (q sq ord : Nat)
  | digest (q sq ord : Nat) (dig : W64)
  deriving DecidableEq, Repr

/-- What the running program of a queue waits for. -/
inductive Blk where
  | idle | ready | starting | fetching | cmd (id : Nat) | ended
  deriving DecidableEq, Repr

/-- A taken descriptor (spec/02 R37, R51). -/
structure Desc where
  count : Nat
  words : List W64
  epoch : Nat
  stale : Bool
  cb : List Span
  arg : List Span
  /-- 0 held, 1 running, 2 program ended -/
  st : Nat
  malformed : Option Status
  /-- a command of it was malformed: its end record raises the interrupt (spec/02 R54) -/
  badCmd : Bool := false
  /-- first status in program order that ended the program: order, status, word, edition -/
  endSt : Option (Nat × Status × Nat × Option Nat)
  overrun : Bool
  restarted : Bool
  migrated : Bool
  time : Nat
  bytes : Nat
  energy : Nat
  /-- a done mark of a mirrored queue's restored checkpoint (spec/12) -/
  aborted : Bool
  deriving DecidableEq, Repr

/-- A completion record waiting to be written (spec/04 R111). -/
structure Rec where
  sq : Nat
  /-- start ordinal of the command, or past every ordinal for an end record -/
  ord : Nat
  isEnd : Bool
  irq : Bool
  words : List W64
  deriving DecidableEq, Repr

/-- A queue of the queue engine and its program (spec/02, spec/03 R62). -/
structure Queue where
  st : QState := .disabled
  prior : QState := .disabled
  pend : Bool := false
  /-- a request held while FROZEN: 2 drain, 3 abort, 4 resume -/
  held : Option Nat := none
  sq : BitVec 32 := 0
  cq : BitVec 32 := 0
  head : BitVec 32 := 0
  resv : Nat := 0
  sqRing : List Span := []
  cqRing : List Span := []
  /-- the descriptor ring and the completion ring are translated -/
  sqOk : Bool := false
  cqOk : Bool := false
  ringReq : Nat := 0
  /-- the descriptor ring failed in the translation in progress; the completion ring is translated all the same (spec/02 R61) -/
  ringBad : Bool := false
  scanning : Bool := false
  batchOut : Bool := false
  scanWords : List (List W64) := []
  scanXl : Bool := false
  scanSpans : List Span := []
  /-- epoch of the translation of the command buffer of the descriptor being examined (spec/10 R279) -/
  scanEpoch : Nat := 0
  /-- count at which the batch being examined began -/
  scanFirst : BitVec 32 := 0
  /-- records of commands that have not retired (spec/12 R340) -/
  echoHeld : List Rec := []
  /-- done marks: count, ordinal, status code, result (spec/12 R342) -/
  marks : List (Nat × Nat × Nat × W64) := []
  /-- commands started and not retired: count, ordinal and the state of the queue before it (spec/12 R339) -/
  snaps : List (Nat × Nat × ERec) := []
  /-- commands completed and not retired: count, ordinal, the number of records to be acknowledged, 0 until it is known, and the lines that were dirty then and are not sent -/
  doneCmds : List (Nat × Nat × Nat × List Nat) := []
  /-- where a takeover goes on: count, ordinal, program counter, edition and call stack (spec/12 R344) -/
  resumeAt : Option (Nat × Nat × Nat × Option EdKey × List Frame) := none
  aborting : Bool := false
  descs : List Desc := []
  recs : List Rec := []
  recsOut : Nat := 0
  bufd : Nat := 0
  g : SMap W64 := []
  p : Nat := 0
  pc : Nat := 0
  loc : Option EdKey := none
  stack : List Frame := []
  winAt : Nat := 0
  win : List W64 := []
  blk : Blk := .idle
  ord : Nat := 0
  pepoch : BitVec 16 := 0
  portMap : SMap Nat := []
  removed : List Nat := []
  stOff : Nat := 0
  /-- starts no command until it is enabled again (spec/12 R350) -/
  locked : Bool := false
  /-- fabric time since which a decision of the queue waits for its record in a replay run (spec/17 R463) -/
  rpSince : Option Nat := none
  /-- fabric time since which a fetch is set aside -/
  asideFetch : Option Nat := none
  /-- the detail of its failed translation (spec/10 R289) -/
  asideDet : List W64 := []
  deriving DecidableEq, Repr

/-- Stages of a command. -/
inductive CmdSt where
  | running
  | held
  | admitted
  | stopping
  | aside (since : Nat)
  | finishing
  /-- waits for the partner's digest (spec/12 R348) -/
  | compare
  deriving DecidableEq, Repr

/-- A tile of a TILEPASS that holds work and has been started (spec/04 R134). -/
structure TileSt where
  k : Nat
  tx : Nat
  ty : Nat
  list : Nat
  count : Nat
  /-- 0 launched, 1 resolving, 2 resolved -/
  st : Nat
  row : Nat
  deriving DecidableEq, Repr

/-- A started command that has not completed (spec/04 R104). -/
structure Cmd where
  id : Nat
  q : Nat
  sq : Nat
  ord : Nat
  word : Nat
  ed : Option Nat
  parcel : Nat
  rpt : Nat
  rst : Bool
  r3 : Bool
  body : Body
  start : Nat
  placed : Bool
  st : CmdSt
  status : Status := .done
  restarted : Bool := false
  migrated : Bool := false
  overrun : Bool := false
  pepoch : Nat := 0
  time : Nat := 0
  bytes : Nat := 0
  energy : Nat := 0
  /-- next unit, chunk, tile or byte to issue -/
  nxt : Nat := 0
  /-- units not yet completed -/
  live : Nat := 0
  fails : List (Nat × Status) := []
  buf : List Byte := []
  aux : Nat := 0
  /-- the queue stops when the command completes (spec/10 R275) -/
  stopQ : Bool := false
  /-- placement offset or port after the map, page-fault and abort marks -/
  abort : Option Status := none
  tiles : List TileSt := []
  /-- admitted as a whole: the ports it holds, whether under SHARE, its estimate, and the charges of its units so far, in ns (spec/06 R169, R173) -/
  whole : Bool := false
  ports : Nat := 0
  wshare : Bool := false
  west : Nat := 0
  wcharge : Nat := 0
  /-- placements its units were admitted to (spec/04 R130) -/
  ran : List Place := []
  /-- output summary (spec/12 R347): predicate, register and its value, pigeonhole and its value, sum of write CRCs, engine digest -/
  sumP : Nat := 0
  sumR : Nat := 0
  sumV : W64 := 0
  sumPh : Nat := 0
  sumPhV : W64 := 0
  crc : Nat := 0
  edig : W64 := 0
  /-- detail of the page fault that set it aside (spec/10 R289) -/
  det : List W64 := []
  /-- the failed access of a COPY that goes from its end to its beginning: the lowest so far (spec/03 R89) -/
  failOp : Option Op := none
  /-- the number a COLLECT has in its group (spec/11 R317) -/
  colN : Option Nat := none
  deriving DecidableEq, Repr

/-- A unit of work on a placement (spec/04 R109, spec/06 R168 to R176). -/
structure Wunit where
  id : Nat
  cmd : Nat
  q : Nat
  part : Nat
  place : Place
  ix : Nat
  epoch : Nat
  share : Bool
  est : Nat
  win : Nat
  deadline : Option Nat
  start : Nat
  bytes : Nat := 0
  energy : Nat := 0

  crossed : Bool := false
  /-- failed translations answered to the unit's engine, newest first, one for a page and kind (spec/10 R280, R289) -/
  xfails : List XFail := []
  deriving DecidableEq, Repr

/-- A parcel number of a partition that is defined or claimed (spec/04 R123, R124). -/
structure Parcel where
  part : Nat
  num : Nat
  gen : Nat
  newest : Option Nat
  claim : Option Nat
  waiting : List Nat
  deriving DecidableEq, Repr

/-- A parcel edition in parcel memory (spec/04 R122, R125). -/
structure Edition where
  key : EdKey
  dram : Bool
  addr : Nat
  len : Nat
  pins : Nat
  published : Bool
  deriving DecidableEq, Repr

/-! ### Pigeonholes -/

/-- States of a pigeonhole row (spec/05 R137). -/
inductive PhState where
  | normal | poisoned | scrubbing
  deriving DecidableEq, Repr

/-- A row of the pigeonhole table without its waiter list (spec/05 R137). -/
structure PhRow where
  value : W64
  st : PhState
  lastq : Option Nat
  /-- positions in error in the row's words, made by injection (spec/13 R369) -/
  err : List Nat
  deriving DecidableEq, Repr

/-- What a waiter waits on. -/
inductive WTgt where
  | ph (n : Nat)
  | watch (w : Nat)
  | counter (n : Nat)
  | nowatch (part pa : Nat) (tgt : Tgt)
  /-- a memory fence that is being translated or read for the first time, since `at`; a further read is due (spec/05 R147, R148) -/
  | fence (again : Bool) (at_ : Nat)
  deriving DecidableEq, Repr

/-- Who waits. -/
inductive Who where
  | queue (q cmd : Nat)
  | relay (c : Nat)
  | engine (port wtag : Nat)
  deriving DecidableEq, Repr

/-- A waiter entry (spec/05 R138, R139). The list of waiters is in joining order. -/
structure Waiter where
  ent : Nat
  tgt : WTgt
  who : Who
  part : Nat
  ctx : Nat
  va : Nat
  thr : W64
  expiry : Option Nat
  since : Nat
  /-- the translation made again that it belongs to, its place in the order then, and whether it has moved (spec/05 R151) -/
  mv : Option (Nat × Nat × Bool) := none
  deriving DecidableEq, Repr

/-- A watch of a memory fence (spec/05 R147, R148). -/
structure Watch where
  id : Nat
  part : Nat
  pa : Nat
  tgt : Tgt
  reading : Bool
  again : Bool
  lastRead : Nat
  deriving DecidableEq, Repr

/-! ### Translation -/

/-- An entry of a translation cache (spec/10 R277, R509). -/
structure Tlb where
  ctx : Nat
  epoch : Nat
  va : Nat
  len : Nat
  pa : Nat
  r : Bool
  w : Bool
  tgt : Nat
  sec : Bool
  attr : Nat
  seg : Option Nat
  /-- LEVEL of the entry it was made from: 0 segment table, 1 and 2 mirror-map leaf (spec/10 R289) -/
  level : Nat
  deriving DecidableEq, Repr

/-- An invalidation (spec/10 R282). -/
structure Inv where
  id : Nat
  ctx : Nat
  scope : Nat
  seg : Nat
  start : Nat
  len : Nat
  /-- the XINVAL command or the partition window that made it -/
  cmd : Option Nat
  pw : Option Nat
  /-- 0 waits, 1 begun (step 1), 2 reading the segment entry, 3 draining -/
  step : Nat
  ports : List Nat
  since : Nat
  epoch : Nat
  ops : List Nat
  deriving DecidableEq, Repr

/-! ### The gallery -/

/-- A hall's moving state: its hall cycle counter and its waiting requests in arrival order (spec/07 R186, R189). -/
structure Hall where
  cyc : Nat := 0
  queue : List HReq := []
  /-- lines of each ownership block not yet scrubbed by requester 121: (block, next line index in this hall) -/
  scrub : List (Nat × Nat) := []
  /-- ownership blocks whose change has taken effect in this hall (spec/07 R185 step 2) -/
  changing : List Nat := []
  /-- ownership blocks whose change waits for the turn boundary -/
  newChange : List Nat := []
  /-- words that await the correction write-back (spec/07 R203) -/
  backs : List Nat := []
  /-- the turn boundary before slot 0 of the turn that now begins has passed (spec/07 R188) -/
  turned : Bool := false
  /-- next line of the patrol pass, when one runs in this hall (spec/07 R203) -/
  patrol : Option Nat := none
  /-- drop windows open in this hall (spec/07 R199) -/
  drops : List Nat := []
  slotsIdle : Nat := 0
  slotsUsed : SMap Nat := []
  deriving DecidableEq, Repr

/-- The effective owner of a block of ownership (spec/07 R184, R185). -/
structure Owner where
  valid : Bool := false
  ctxen : Bool := false
  ctx : Nat := 0
  part : Nat := 0
  deriving DecidableEq, Repr

/-- The gallery: bytes, seal bits, stored errors, owners, franking counters, halls. -/
structure Gallery where
  /-- bytes that are not zero, in canonical form -/
  cells : List Host.Cell := []
  /-- full tile lines, rising (spec/07 seals) -/
  full : List Nat := []
  /-- words with bits in error: word address, bits in error, positions (spec/07 R203, spec/13 R362) -/
  err : SMap (Nat × Nat × Nat) := []
  own : SMap Owner := []
  halls : SMap Hall := []
  gather : List Gather := []
  frank : SMap W64 := []
  /-- increments that cross to the counters: counter, amount (spec/07 R200) -/
  incs : List (Nat × Nat) := []
  /-- patrol period start -/
  patrolAt : Nat := 0
  /-- a period has begun while the pass of the one before still runs (spec/07 R203) -/
  patrolNext : Bool := false
  deriving DecidableEq, Repr

/-! ### Scheduler -/

/-- A window of the timetable: words 0 and 1 (spec/06 R164). -/
abbrev Win := W64 × W64

/-- The scheduler's state beside its registers (spec/06). -/
structure Sched where
  active : List Win := [(0, 65535)]
  shadow : SMap Win := []
  /-- timetable position in ns at fabric time `posAt` -/
  pos : Nat := 0
  posAt : Nat := 0
  still : Bool := false
  win : Nat := 0
  started : Bool := false
  runFrom : Nat := 0
  bal : SMap Int := []
  lastShare : Nat := 63
  /-- fabric time of the last SHARE admission -/
  shareAt : Nat := 0
  /-- partition and, by partition, queue last admitted to a port or to stations -/
  lastPart : Nat := 63
  lastQ : SMap Nat := []
  /-- partition and, by partition, queue last admitted to a courier, the near-memory unit or a relay core (spec/06 R163) -/
  unPart : Nat := 63
  unQ : SMap Nat := []
  stretchAt : Nat := 0
  stretchNs : Nat := 0
  lateMark : Bool := false
  /-- engine ports under watchdog or drain reset: port, deadline -/
  resets : SMap Nat := []
  failed : List Nat := []
  /-- snapshot of the last unit of each placement: partition, TIME, BYTES, ENERGY (spec/04 R115) -/
  plc : SMap (Nat × Nat × Nat × Nat) := []
  deriving DecidableEq, Repr

/-- Translation state beside its registers (spec/10). -/
structure Xlt where
  stc : List Tlb := []
  etb : SMap (List Tlb) := []
  /-- contexts of which a port holds translations since it last reported drained: port, contexts -/
  held : SMap (List Nat) := []
  invs : List Inv := []
  acnt : SMap Nat := []
  notes : List Nat := []
  decayAt : Nat := 0
  deriving DecidableEq, Repr

/-- A record that a fault ring holds or waits for (spec/13 R364, R365). -/
structure RingRec where
  id : Nat
  ring : Nat
  words : List W64
  cmd : Option Nat
  fetchQ : Option Nat
  notice : Bool
  /-- count of the entry, once reserved -/
  count : Option Nat
  issued : Bool
  holdUntil : Option Nat
  deriving DecidableEq, Repr

/-- The fault collector beside its registers (spec/13). -/
structure Coll where
  /-- faults that have reached the collector, each with the fabric time at which it did (spec/13 R357) -/
  pend : List (Nat × Flt) := []
  recs : List RingRec := []
  /-- deadline of the automatic acknowledgement of each CORRECTED latch -/
  autoack : SMap Nat := []
  /-- rings whose next record carries LOST, rings whose first drop is latched -/
  lost : List Nat := []
  dropped : List Nat := []
  /-- step of the fatal halt reached, and its record (spec/13 R366) -/
  halt : Nat := 0
  haltFlt : Option Flt := none
  haltSeq : Nat := 0
  /-- a health ping has not come back; it was still missing at a period's end; the last ping came back; CLK_AON cycle of the last period (spec/13 R367) -/
  pingOut : Bool := false
  pingMissed : Bool := false
  echoOk : Bool := false
  pingAt : Nat := 0
  deriving DecidableEq, Repr


/-- The observation unit beside its registers (spec/17). -/
structure Obs where
  /-- letterbook records made and not yet entered into staging, and whether each must not be dropped -/
  made : List (List W64) := []
  /-- staging (spec/17 R457) -/
  staging : List (List W64) := []
  /-- the next record written carries GAP -/
  gap : Bool := false
  /-- the next record made is a HEADER -/
  hdrDue : Bool := false
  /-- records of the replay source filed and not applied (spec/17 R462) -/
  filed : List (List W64) := []
  /-- a read of the replay source is in flight -/
  rpOut : Bool := false
  /-- a firmware activation has come during the run (spec/17 R465) -/
  rpStale : Bool := false
  /-- items of the trace FIFO: words (spec/17 R454) -/
  trace : List (List W64) := []
  /-- words of the first item that have left; the next trace sequence number; items dropped since the last LOST item; fabric time of the last counter sample -/
  trcOut : Nat := 0
  trcSeq : Nat := 0
  trcLost : Nat := 0
  trcAt : Nat := 0
  /-- postmarks made and not yet written (spec/15 R412), and the next SEQ -/
  marks : List (List W64) := []
  pmSeq : Nat := 0
  deriving DecidableEq, Repr

/-! ### Echo pair -/

/-- An echo flit that has been sent and not acknowledged: sequence number, records, times sent (spec/12 R330). -/
structure EFlit where
  seq : Nat
  units : List Byte
  recs : Nat
  sends : Nat
  deriving DecidableEq, Repr

/-- The echo unit beside its registers (spec/12). -/
structure Echo where
  /-- the port carries flits -/
  portUp : Bool := false
  /-- records made and not yet in a flit; those of lines go first -/
  made : List ERec := []
  lines : List ERec := []
  /-- flits not yet sent: their units, and the records that end in them -/
  tx : List (List Byte × Nat) := []
  unacked : List EFlit := []
  /-- a flit has been accepted that no flit sent has acknowledged -/
  ackDue : Bool := false
  txSeq : Nat := 0
  rxSeq : Nat := 0
  /-- fabric times of the last advance of ACK, of the last heartbeat received, and of the last one sent -/
  lastAdv : Nat := 0
  lastHb : Nat := 0
  hbSent : Nat := 0
  /-- records acknowledged since pairing began, and the number that ends the transfer of R335 step 4 -/
  ackNo : Nat := 0
  syncNeed : Option Nat := none
  /-- lines of the mirrored regions that the transfer has not sent yet; the twin leads and transfers -/
  syncLines : List Nat := []
  syncing : Bool := false
  /-- neither twin saw TIEBREAK at step 3 of R335, where this one waits -/
  waits : Bool := false
  /-- gallery lines dirty (spec/12 R337) -/
  dirty : List Nat := []
  /-- decisions received and not used (spec/12 R344, R346) -/
  decisions : List (List W64) := []
  /-- digests of either side: queue, count, ordinal, digest -/
  mine : List (Nat × Nat × Nat × W64) := []
  peers : List (Nat × Nat × Nat × W64) := []
  /-- last QSTATE of each mirrored queue on the STANDBY twin, and the position of its RETIRE: count and ordinal -/
  ckpts : SMap ERec := []
  ckPos : SMap (Nat × Nat) := []
  /-- the identities of R334 have been exchanged and agree; the partner's ECHO_ROLE is SECONDARY -/
  identOk : Bool := false
  peerSec : Bool := false
  deriving DecidableEq, Repr

/-! ### Stations -/

/-- A started stream (spec/09 R242, R243): kind, flags, address with its offset, distance between rows, shape, bytes moved. -/
structure Strm where
  kind : Nat
  sealed : Bool
  col : Bool
  trn : Bool
  base : Nat
  stride : Nat
  rowBytes : Nat
  rows : Nat
  pos : Nat
  deriving DecidableEq, Repr

/-- An accumulator tile: its mode, its scale origin and its cells, cell (i, j) at 32i + j (spec/08 R220 to R224). -/
structure Tile where
  wide : Bool := false
  e0 : Int := 0
  /-- an MX array operation has added to it since its clear: only then its values are scaled by 2^e0 (spec/08 R223) -/
  mx : Bool := false
  cells : SMap Cell := []
  deriving DecidableEq, Repr

/-- What a passage table gives a position, read and not yet loaded (spec/09 R256). -/
structure PImg where
  prog : List W64 := []
  store : List Byte := []
  sd : List W64 := []
  x : List W64 := []
  deriving DecidableEq, Repr

/-- A dispatched instruction with the value of the X register it names, read at its dispatch (spec/09 R247). -/
structure QIns where
  w : W64
  x : W64
  deriving DecidableEq, Repr

/-- A station beside its registers (spec/08 R209, spec/09 R241 to R259). -/
structure Stn where
  /-- the PASSAGE command it belongs to, and its number of positions -/
  cmd : Nat := 0
  npos : Nat := 0
  seed : W64 := 0
  prog : List W64 := []
  pc : Nat := 0
  /-- open loops, innermost first: first index, index past the body, passes left -/
  loops : List (Nat × Nat × Nat) := []
  /-- the instructions that wait in the units' queues, in dispatch order (spec/09 R247) -/
  dq : List QIns := []
  /-- bytes an instruction still has to push into the emitter queue (spec/09 R249) -/
  push : List Byte := []
  /-- lane registers, 1 KiB each -/
  l : SMap (List Byte) := []
  tiles : SMap Tile := []
  w : SMap Long := []
  /-- bytes of the station store that are not zero -/
  store : List Host.Cell := []
  sd : List W64 := []
  f0 : List Byte := []
  f1 : List Byte := []
  eq : List Byte := []
  s0 : List Strm := []
  s1 : List Strm := []
  se : List Strm := []
  /-- operand bytes an MMA has popped from F0 and F1 -/
  st0 : List Byte := []
  st1 : List Byte := []
  fwdIn : List Byte := []
  backIn : List Byte := []
  /-- the next passage's image while its table is read -/
  img : PImg := {}
  /-- loaded or ended and not yet reported -/
  report : Bool := false
  /-- a failed access not yet reported -/
  fail : Option Status := none
  deriving DecidableEq, Repr

/-! ### Collectives and fabric time -/

/-- A member's part of a collective on this chip (spec/11 R317): its command, group, rank and number; phase 0 reads SRC, 1 translates DST, 2 exchanges with the other ranks, 3 writes DST, 4 has ended; since when it waits, and the status of its end. -/
structure Collv where
  cmd : Nat
  g : Nat
  rank : Nat
  n : Nat
  phase : Nat
  since : Nat
  st : Status
  /-- the entry of the waiter pool its steps wait in (spec/05 R138) -/
  entry : Nat := 4096
  /-- 0 the exchange of DIGEST and fields, else one more than the steps of its schedule that are complete (spec/11 R326) -/
  step : Nat := 0
  /-- what the step sends has been sent -/
  sent : Bool := false
  /-- writes of the step, or of DST, that have ended -/
  pos : Nat := 0
  /-- partial sums, and results of DTYPE, by chunk -/
  part : SMap (List Byte) := []
  fin : SMap (List Byte) := []
  /-- where DST lies -/
  spans : List Span := []
  /-- results that the MWRs of another chip have written to DST -/
  got : List Nat := []
  deriving DecidableEq, Repr

/-- What a rank has sent for a collective: its step (64 more for a step that gathers results), whether it is a break, the offset in units of 512 bytes, the data (spec/11 R298, R317, R325). -/
structure ColRx where
  g : Nat
  n : Nat
  src : Nat
  step : Nat
  brk : Bool
  off : Nat
  data : List Byte
  deriving DecidableEq, Repr

/-- The synchronisation of fabric time (spec/11 R310 to R314): the last offsets in 1/16 ns, the rate correction in 2^-16 ns per CLK_AON cycle, the fraction collected, the times of the last exchange and of the last response. -/
structure TSync where
  offs : List Int := []
  rate : Int := 0
  acc : Int := 0
  sentAt : Nat := 0
  lastRsp : Nat := 0
  parent : Option Nat := none
  /-- CLK_AON cycles since power-on (spec/13 R367, spec/18 R479) -/
  cycles : Nat := 0
  deriving DecidableEq, Repr

/-! ### Power, firmware, settings -/

/-- An exact fraction, in lowest terms (log 32). -/
structure Frac where
  num : Int := 0
  den : Nat := 1
  deriving DecidableEq, Repr

/-- The four nodes of a zone's model: junction, package, cold plate, coolant, in K (spec/14 R397). -/
structure ZNodes where
  j : Frac := {}
  p : Frac := {}
  k : Frac := {}
  c : Frac := {}
  deriving DecidableEq, Repr

/-- Power control beside its registers (spec/14). -/
structure Pwr where
  /-- domains whose request is not acknowledged: fabric time of the request, and whether it has timed out (R373) -/
  domAt : SMap (Nat × Bool) := []
  /-- the next request of a domain, made when the present one is acknowledged -/
  domNext : SMap Nat := []
  /-- domains to be requested again once: fabric time -/
  retryAt : SMap Nat := []
  /-- domains that have been requested again once since their last acknowledgement -/
  retried : List Nat := []
  /-- chambers in OPENING or ZEROING: fabric time at which it ends; chambers that left DARK (spec/07 R205) -/
  chAt : SMap Nat := []
  fromDark : List Nat := []
  /-- chamber targets that override GAL_CPWR_REQ in a low-power state, by hall (R383) -/
  ovr : SMap Nat := []
  /-- links parked at entry, to be enabled again -/
  links : List Nat := []
  /-- the low-power state being entered: 2 NAP, 3 DORMANT; the step of the sequence in progress; the wake sequence is from DORMANT -/
  sleepTo : Nat := 0
  step : Nat := 0
  /-- fabric time at which the entry began -/
  sleepAt : Nat := 0
  fromDormant : Bool := false
  /-- a wake event has crossed and its wake has not begun -/
  wakeDue : Bool := false
  /-- level granted on each island (spec/18 R489) -/
  granted : SMap Nat := []
  /-- islands: fabric time of their last work (R376) -/
  busyAt : SMap Nat := []
  /-- powers of the last 100 intervals, newest first, in 10 mW (R385) -/
  p100 : List Nat := []
  /-- energies not yet a whole µJ, in tenths of a µJ -/
  enFrac : Nat := 0
  /-- number of the last interval, publication and model step, plus 1 -/
  interval : Nat := 0
  pubs : Nat := 0
  steps : Nat := 0
  /-- fabric time of the last publication -/
  fcstAt : Nat := 0
  /-- slew on the P-port while valid -/
  pslew : Option Nat := none
  /-- external inputs: fabric time of the last sample (R391) -/
  extAt : SMap Nat := []
  /-- sensors known to have failed -/
  sfail : List Nat := []
  /-- start of the fallback ramp and the caps at its start (R396) -/
  rampAt : Nat := 0
  rampFrom : SMap Nat := []
  zones : SMap ZNodes := []
  /-- fabric time at which the last emergency ended (spec/15 R422) -/
  emergEnd : Option Nat := none
  deriving DecidableEq, Repr

/-- Firmware and its vault beside the registers (spec/15). -/
structure Fw where
  /-- bytes of the vault that are not zero, in canonical form -/
  vault : List Host.Cell := []
  /-- vault words with bits in error: the positions (spec/15 R404) -/
  verr : SMap (List Nat) := []
  /-- cores whose reload has failed once (R416) -/
  failed : List Nat := []
  /-- commands to run again when their sorter runs (R418) -/
  again : List Nat := []
  /-- the dormant image is in the save area (spec/14 R379) -/
  saved : Bool := false
  /-- the slot that the GO accepted last names (R407) -/
  slot : Nat := 0
  /-- commands of FAB_LCTL that wait for the postmaster: link, command (R420) -/
  lctl : List (Nat × Nat) := []
  deriving DecidableEq, Repr

/-- What the K-port is used for (spec/16 R439, R440, R443). -/
inductive KJob where
  /-- the commit log is read: slot, and its word 0 when it has been read -/
  | read (slot : Nat) (w0 : Option W64)
  /-- an entry is programmed into a slot and read back: 0 program word 1, 1 program word 0, 2 read word 0, 3 read word 1; the word 0 read back; the slot is read again after a restart (R441) -/
  | prog (slot : Nat) (w0 w1 : W64) (step : Nat) (back : W64)
  deriving DecidableEq, Repr

/-- The committed settings beside their registers (spec/16). -/
structure Cmt where
  /-- static inputs: store size ÷ 16, die identity (spec/18 R490) -/
  kbytes : Nat := 128
  uid : W64 := 0
  /-- slots of the log that are not empty, as read -/
  log : SMap (W64 × W64) := []
  /-- slots whose read reported an error -/
  bad : List Nat := []
  /-- fabric time of the ARM -/
  armAt : Nat := 0
  job : Option KJob := none
  /-- request on the K-port: program, word index, data -/
  kreq : Option (Bool × Nat × W64) := none
  /-- lane repairs that wait for the K-port: link, repair -/
  reps : List (Nat × Nat) := []
  /-- lane repairs shown on LREP_TX and LREP_RX of a link that is not DOWN (spec/18 R488) -/
  lrep : SMap (List Nat) := []
  deriving DecidableEq, Repr

/-- A partition's disable sequence (spec/16 R435): fabric time at which step 3 began, the invalidations of step 4, the blocks of ownership of step 5 and the next pigeonhole row to scrub. -/
structure PrtDis where
  at3 : Nat := 0
  invs : List Nat := []
  blks : List Nat := []
  rows : Option Nat := none
  deriving DecidableEq, Repr

/-! ### The whole -/

/-- What left the ports, or was raised, in the last step: the visible behaviour of a step. -/
inductive Out where
  /-- request on an M-port (spec/18 R480) -/
  | mreq (port tag pa len : Nat) (wr : Bool) (data : List Byte) (part : Nat) (ctx : Option Nat) (sec : Bool) (attr src : Nat)
  /-- unit of work on an E-port command channel: header and payload beats (spec/18 R483) -/
  | eCmd (port : Nat) (hdr payload : List W64)
  /-- control message to an engine (spec/18 R486) -/
  | eCtl (port : Nat) (msg : W64)
  /-- translation response (spec/10 R280, spec/18 R485) -/
  | eXl (port rtag : Nat) (kind : XKind) (pa : Nat) (tgt : Tgt) (span epoch : Nat)
  /-- invalidate message (spec/10 R281) -/
  | eInval (port ctx epoch : Nat)
  /-- gallery read data or write acknowledgement to an engine (spec/18 R482) -/
  | eGal (port gtag : Nat) (st : Status) (data : List Byte)
  /-- raise of INTREQ[p] (spec/01 R28) -/
  | intreq (p : Nat)
  /-- raise of GINT[n] (spec/18 R479) -/
  | gint (n : Nat)
  /-- GINT[1], the level, changes (spec/18 R479, spec/10 R290) -/
  | gintLevel (high : Bool)
  /-- a flit of 256 bytes leaves on a link (spec/11 R297) -/
  | flit (l : Nat) (bytes : List Byte)
  /-- LPARK_REQ of a link changes (spec/18 R488) -/
  | lpark (l : Nat) (high : Bool)
  /-- answer of the H-port: a write's response, a read's response and data (spec/18 R475) -/
  | hRsp (wr : Bool) (resp : Resp) (data : List Byte)
  /-- error item of the H-port (spec/18 R477) -/
  | hErr (wr : Bool) (off : Nat) (resp : Resp)
  /-- an echo flit of 256 bytes leaves (spec/12 R330) -/
  | eflit (bytes : List Byte)
  /-- a beat of a forecast (spec/18 R489) -/
  | fcst (bin seq upper expect : Nat)
  /-- a request on the K-port (spec/18 R490) -/
  | kreq (wr : Bool) (addr : Nat) (data : W64)
  /-- a word on the trace output (spec/18 R493) -/
  | trace (w : W64)
  /-- what an access to the TAP reads on TDO (spec/18 R491) -/
  | tdo (v : Nat)
  deriving DecidableEq, Repr

/-- The state of the block. -/
structure State where
  /-- build parameters, which no step changes -/
  b : Build
  /-- waiting commands, first in, first out -/
  pending : List Instr
  /-- fabric time, ns (spec/00 R18) -/
  time : Nat
  /-- the register fields, by field and index -/
  flds : SMap Nat
  /-- outputs of the last step -/
  out : List Out
  /-- next identifier of an access, request, command or unit -/
  nid : Nat
  /-- counter of free values (log 3) -/
  free : Nat
  qs : SMap Queue
  cmds : List Cmd
  units : List Wunit
  pcls : List Parcel
  eds : List Edition
  ops : List Op
  mreqs : List MReq
  lreqs : List LReq
  /-- words between the read and the write of a MEMSIGNAL with MAX: command and physical address (spec/03 R81) -/
  locks : List (Nat × Nat)
  /-- messages to forward and responses to send, in order, with the link in whose receive buffer a forwarded one stands (spec/11 R294, R299) -/
  lout : List (LMsg × Option Nat)
  /-- credits of each link: REQ and RSP units the peer's buffers can take (spec/11 R299) -/
  lcr : SMap (Nat × Nat)
  /-- messages sent on a link that no flit carries yet, and the credits to return (spec/11 R297, R299) -/
  ltx : SMap (List LMsg)
  lret : SMap (Nat × Nat)
  /-- flits sent on a link -/
  ltxn : SMap Nat
  /-- newest value an OUT entry of PH_LINK has not yet sent (spec/05 R154) -/
  linkOut : SMap W64
  /-- link signals that wait for writes to land -/
  lsigs : List LSig
  /-- bytes of a message that continues in the next flit, and flits received, by link -/
  lpart : SMap (List Byte)
  lrx : SMap Nat
  /-- fabric time at which a link began to negotiate -/
  lneg : SMap Nat
  /-- member tables of the collective groups: chip × 64 + partition of rank r of group g at 64g + r (spec/11 R316) -/
  gmem : SMap Nat
  colls : List Collv
  colRx : List ColRx
  /-- COLLECTs counted, by group and rank -/
  colN : SMap Nat
  tsync : TSync
  gal : Gallery
  ph : SMap PhRow
  waits : List Waiter
  watches : List Watch
  sch : Sched
  /-- stations by number -/
  stns : SMap Stn
  xlt : Xlt
  flt : Coll
  obs : Obs
  ech : Echo
  pwr : Pwr
  fw : Fw
  cmt : Cmt
  /-- disable sequences by partition -/
  prt : SMap PrtDis
  /-- open segments of the 1687 network, and the instruction of the TAP (spec/18 R491) -/
  tap : List Nat × Nat
  /-- doorbell writes latched by the porter: partition and offset (spec/01 R33, spec/02 R46) -/
  latch : List (Nat × Nat)
  /-- the completions in the hardware completion buffers, in arrival order: queue and number of command records (spec/15 R417) -/
  cbuf : List (Nat × Nat)
  /-- partitions that are stalled: since when, and the time of the last scan for cycles of waits (spec/05 R156) -/
  stall : SMap (Nat × Nat)
  /-- cycles of waits that have been reported: queues, the commands they were blocked in, and whether each was ACTIVE (spec/05 R158) -/
  cyc : List (List (Nat × Nat × Bool))
  /-- interrupt lines in a pulse, its gap, or with a raise merged: line, CLK_AON cycles left of the 8, and a further pulse (spec/18 R479); 0 to 63 INTREQ, 64 to 71 GINT -/
  irq : SMap (Nat × Bool)
  /-- queue last served by the scan (spec/02 R42) -/
  rr : Nat
  /-- a reset that is asserted (spec/18 R470 to R472): 0 none, 1 PORESET_N, 2 WRESET_N, 3 SAFE_RESET_N, 4 the supply is removed -/
  rst : Nat
  deriving DecidableEq, Repr

/-- A step of the model never stops with a fault of its own: no access of the block is undefined by the spec; an event that cannot take place leaves the state as it is. -/
inductive Fault where
  /-- raised by no command; the type has a value only so that it can be named (safe) -/
  | none
  deriving DecidableEq, Repr

/-- Refusals of the model. -/
inductive Refusal where
  /-- the command has no meaning in the model yet (safe) -/
  | notModelled (mnemonic : String)
  deriving DecidableEq, Repr

/-! ### Reset -/

/-- A field's entry, and the entries of an array of a field. -/
def Fld.at0 (x : Fld) (v : Nat) : SMap Nat := [(x.n * 65536, v)]
def Fld.arr (x : Fld) (n : Nat) (v : Nat → Nat) : SMap Nat := (List.range n).map fun i => (x.n * 65536 + i, v i)

/-- The stations of a group at reset (spec/06 R161). -/
def resetGroup (b : Build) (g : Nat) : Nat := if 4 * g + 3 < b.stations then 15 * 2 ^ (4 * g) else 0

/-- The requesters present in a build (spec/07 R186, R188). -/
def resetOpt (b : Build) (i : Nat) : Nat :=
  let here (r : Nat) : Bool := if r < 32 then decide (r < b.eports) else if r < 96 then decide (r - 32 < b.stations) else if r < 114 then true
    else if r < 120 then decide (r - 114 < b.links) else if r < 122 then true else r == 122 && b.echo
  ((List.range 64).map fun j => if here (64 * i + j) then 2 ^ j else 0).sum

/-- The SAFE level of a zone's class at reset: control 10, halls 10, stations 8 (spec/14 R392, R396; log 36). -/
def resetCap (b : Build) (z : Nat) : Nat := if b.halls / 8 < z ∧ z ≤ b.halls / 8 + b.stations / 8 then 8 else 10

/-- The register fields whose reset value depends on the build or the element; with `go`, the domains that leave reset first are requested ON (spec/18 R494 step 2). -/
def resetFlds (b : Build) (go : Bool) : SMap Nat :=
  let dom (v : Nat) (d : Nat) : Nat := if go && decide (b.domBank 0 ≤ d) then v else 0
  let zones := 2 + b.halls / 8 + b.stations / 8
  F.INT_BUILD_HALLS.at0 b.halls ++ F.INT_BUILD_STATIONS.at0 b.stations ++ F.INT_BUILD_EPORTS.at0 b.eports ++ F.INT_BUILD_LINKS.at0 b.links
    ++ F.INT_BUILD_ECHO.at0 b.echo.toNat ++ F.INT_BUILD_ISLANDS.at0 b.islands ++ F.INT_BUILD_NDOM.at0 b.domains ++ F.INT_SIZES_GALMIB.at0 (8 * b.halls)
    ++ F.INT_FEAT_PAIR.at0 b.echo.toNat ++ F.SCH_SGRP_ACT_STATIONS.arr 16 (resetGroup b) ++ F.SCH_SGRP_STATIONS.arr 16 (resetGroup b)
    ++ F.GAL_CAP_HALLS.at0 b.halls ++ F.GAL_LENIENT_OPT_OPT.arr 2 (resetOpt b) ++ F.STN_ID_ISLAND.arr b.stations (fun n => b.halls + 2 + n / 4)
    ++ F.STN_ID_HOME.arr b.stations (· / 2) ++ F.STN_ID_STATION.arr b.stations (·) ++ F.FAB_CAP_LINKS.at0 b.links ++ F.ECH_CAP_PRESENT.at0 b.echo.toNat
    ++ F.PWR_CAP_ZONES.at0 zones ++ F.PWR_CAP_NDOM.at0 b.domains ++ F.PWR_ZONE_CAP.arr zones (resetCap b)
    ++ F.PWR_DOM_REQ.arr b.domains (dom 3) ++ F.PWR_DOM_STATE.arr b.domains (dom 2) ++ F.CMT_VAL_VALUE.arr 8 (fun i => if i = 7 then 64 else 0)
    ++ F.OBS_PW_CTL_VIEW.arr 64 (·) ++ F.PRT_PW_STAT_PART.arr 64 (·)

/-- The state of a build in PORESET_N, or as it leaves it: every register field at its reset value (an unlisted field reads as its reset value), memory and tables empty, fabric time 0 (spec/18 R470, R471). -/
def State.init (b : Build) (go : Bool) : State :=
  { b, pending := [], time := 0, flds := resetFlds b go, out := [], nid := 1, free := 0, qs := [], cmds := [], units := [], pcls := [],
    eds := [], ops := [], mreqs := [], lreqs := [], locks := [], lout := [], lcr := [], ltx := [], lret := [], ltxn := [], linkOut := [], lsigs := [], lpart := [], lrx := [],
    lneg := [], gmem := [], colls := [], colRx := [], colN := [], tsync := {}, gal := {}, ph := [], waits := [], watches := [], sch := {},
    stns := [], xlt := {}, flt := {}, obs := {}, ech := {},
    pwr := { domAt := if go then (List.range 30).map fun i => (b.domBank 0 + i, (0, false)) else [] }, fw := {}, cmt := {}, prt := [],
    tap := ([], 0), latch := [], cbuf := [], stall := [], cyc := [], irq := [], rr := 4095, rst := if go then 0 else 1 }

/-- The state right after PORESET_N is released: step 2 of the start-up sequence, no command waiting (spec/18 R494). The build is the reference configuration (spec/00 R11). -/
def State.reset : State := State.init Build.uz4r true

end Sys2Proof.Machine
end

