-- ==== Sys2Proof/Machine/Ops.lean ====
section
/-! DEFINITION. Named operations over the state: tables, register fields, queues, commands, faults, outputs, domains. -/

namespace Sys2Proof.Machine

/-! ### Tables -/

/-- The value of key `k` in a table, or the default. -/
def mget {β : Type} (d : β) : SMap β → Nat → β
  | [], _ => d
  | (a, v) :: r, k => if a = k then v else mget d r k

/-- Sets key `k` of a table; keys stay in rising order. -/
def mset {β : Type} : SMap β → Nat → β → SMap β
  | [], k, v => [(k, v)]
  | (a, w) :: r, k, v => if a = k then (k, v) :: r else if k < a then (k, v) :: (a, w) :: r else (a, w) :: mset r k v

/-- Removes key `k` of a table. -/
def mdel {β : Type} (m : SMap β) (k : Nat) : SMap β := m.filter (fun e => e.1 != k)

/-! ### Register fields -/

/-- The key of element `i` of a register field. -/
def Fld.key (x : Fld) (i : Nat) : Nat := x.n * 65536 + i

/-- The value of a register field; element `i` of an array. -/
def State.f (s : State) (x : Fld) (i : Nat := 0) : Nat := mget x.r s.flds (x.key i)

/-- A one-bit register field as a Bool. -/
def State.fb (s : State) (x : Fld) (i : Nat := 0) : Bool := s.f x i != 0

/-- Sets a register field, keeping its width. -/
def State.setF (s : State) (x : Fld) (i : Nat) (v : Nat) : State :=
  { s with flds := mset s.flds (x.key i) (v % 2 ^ x.w) }

/-- Adds to a register field, wrapping at its width (spec/00 R16). -/
def State.incF (s : State) (x : Fld) (i : Nat) (k : Nat := 1) : State := s.setF x i (s.f x i + k)

/-- Adds to a register field, saturating at its width. -/
def State.satF (s : State) (x : Fld) (i : Nat) (k : Nat := 1) : State := s.setF x i (min (s.f x i + k) (2 ^ x.w - 1))

/-! ### Identifiers, outputs, free values -/

def State.emit (s : State) (o : Out) : State := { s with out := s.out ++ [o] }

/-- Takes the next identifier. -/
def State.bump (s : State) : State := { s with nid := s.nid + 1 }

/-- A fresh unspecified word (log 3). -/
def State.freeW (s : State) : W64 × State := (Config.freeWord s.free, { s with free := s.free + 1 })

/-! ### Bytes and words -/

/-- The little-endian bytes of a number. -/
def toBytes (n : Nat) (v : Nat) : List Byte := (List.range n).map fun i => BitVec.ofNat 8 (v / 256 ^ i)

/-- The number little-endian bytes spell (spec/00 R15). -/
def ofBytes : List Byte → Nat
  | [] => 0
  | b :: r => b.toNat + 256 * ofBytes r

/-- The 64-bit words of a list of bytes. -/
def wordsOf : Nat → List Byte → List W64
  | 0, _ => []
  | n + 1, l => BitVec.ofNat 64 (ofBytes (l.take 8)) :: wordsOf n (l.drop 8)

/-- The bytes of 64-bit words, lowest word first. -/
def bytesOf (ws : List W64) : List Byte := ws.flatMap fun w => toBytes 8 w.toNat

/-- Puts `new` into `old` at an offset, keeping its length. -/
def splice (old : List Byte) (off : Nat) (new : List Byte) : List Byte :=
  (old.take off ++ new ++ old.drop (off + new.length)).take old.length

/-- One bit step of the reflected CRC-64 of ECMA-182. -/
def crcStep (c : Nat) : Nat := if c % 2 = 1 then (c / 2) ^^^ 0xC96C5795D7870F42 else c / 2

/-- The CRC-64 of ECMA-182, reflected, initial value and final XOR all ones (spec/12 R330). -/
def crc64 (l : List Byte) : Nat :=
  (l.foldl (fun c b => crcStep (crcStep (crcStep (crcStep (crcStep (crcStep (crcStep (crcStep (c ^^^ b.toNat))))))))) (2 ^ 64 - 1)) ^^^ (2 ^ 64 - 1)

/-! ### Queues and commands -/

def State.q (s : State) (n : Nat) : Queue := mget {} s.qs n

def State.setQ (s : State) (n : Nat) (v : Queue) : State := { s with qs := mset s.qs n v }

def State.qPart (s : State) (n : Nat) : Nat := s.f F.QE_QCFG_PART n
def State.qCtx (s : State) (n : Nat) : Nat := s.f F.QE_QCFG_CTX n
def State.qHyp (s : State) (n : Nat) : Bool := s.fb F.QE_QCFG_HYP n

/-- The identity of a queue's accesses (spec/02 R34). -/
def State.qIdent (s : State) (n : Nat) : Ident := ⟨s.qPart n, some (s.qCtx n), false⟩

/-- The general register `g` of queue `n`; G0 reads 0 (spec/03 R62). -/
def State.greg (s : State) (n g : Nat) : W64 := if g = 0 then 0 else mget 0 (s.q n).g g

/-- Writes a general register; writes to G0 are discarded (spec/03 R62). -/
def State.setG (s : State) (n g : Nat) (v : W64) : State :=
  if g = 0 then s else s.setQ n { s.q n with g := mset (s.q n).g g v }

/-- The predicate `k` of queue `n` (spec/03 R62). -/
def State.pred (s : State) (n k : Nat) : Bool := (s.q n).p.testBit k

/-- Writes a predicate. -/
def State.setP (s : State) (n k : Nat) (v : Bool) : State :=
  if s.pred n k = v then s
  else s.setQ n { s.q n with p := if v then (s.q n).p + 2 ^ k else (s.q n).p - 2 ^ k }

def State.cmd? (s : State) (id : Nat) : Option Cmd := s.cmds.find? (·.id == id)

def State.setCmd (s : State) (c : Cmd) : State :=
  { s with cmds := s.cmds.map fun x => if x.id = c.id then c else x }

def State.dropCmd (s : State) (id : Nat) : State := { s with cmds := s.cmds.filter (·.id != id) }

def State.unit? (s : State) (id : Nat) : Option Wunit := s.units.find? (·.id == id)

def State.setUnit (s : State) (u : Wunit) : State :=
  { s with units := s.units.map fun x => if x.id = u.id then u else x }

/-! ### Statuses and codes -/

/-- The 8-bit code of a status (spec/04 R112). -/
def Status.code : Status → Nat
  | .done => 0 | .aborted => 1 | .malformed => 2 | .xlateFault => 3 | .timeout => 4 | .watchdog => 5
  | .engineError => 6 | .uncorrected => 7 | .chamberDark => 8 | .windowClosed => 9 | .faultOverflow => 0xA
  | .partitionDisabled => 0xB | .collectiveRestarted => 0xC | .diverged => 0xD | .replayDiverged => 0xE
  | .unsupported => 0xF | .sealTimeout => 0x10 | .fenceBackward => 0x11

/-- The status of a code; none for the codes the fabric never writes (spec/04 R112). -/
def Status.ofCode : Nat → Option Status
  | 0 => some .done | 1 => some .aborted | 2 => some .malformed | 3 => some .xlateFault | 4 => some .timeout
  | 5 => some .watchdog | 6 => some .engineError | 7 => some .uncorrected | 8 => some .chamberDark
  | 9 => some .windowClosed | 10 => some .faultOverflow | 11 => some .partitionDisabled
  | 12 => some .collectiveRestarted | 13 => some .diverged | 14 => some .replayDiverged | 15 => some .unsupported
  | 16 => some .sealTimeout | 17 => some .fenceBackward | _ => none

/-- The code of a queue state in QE_QSTAT (spec/02 R60). -/
def QState.code : QState → Nat
  | .disabled => 0 | .idle => 1 | .active => 2 | .draining => 3 | .stoppedError => 4 | .frozen => 5

/-- The code of a translation outcome (spec/10 R275). -/
def XKind.code : XKind → Nat
  | .hit => 0 | .notPresent => 1 | .protection => 2 | .mapError => 3 | .route => 4 | .noncanon => 5

/-- The phase of a count in a ring of 2^n entries (spec/02 R36). -/
def phaseOf (n : Nat) (c : BitVec 32) : Bool := (c.toNat / 2 ^ n) % 2 == 0

/-! ### Faults -/

/-- Hands a fault to the collector (spec/13 R353); FAULT_RAISED processes it. -/
def State.raise (s : State) (x : Flt) : State := { s with flt := { s.flt with pend := s.flt.pend ++ [(s.time, x)] } }

/-- The command a purpose serves. -/
def purposeCmd : Purpose → Option Nat
  | .ld c | .st c | .stamp c | .snap c | .memsigRead c | .memsigWrite c | .enqRead c | .parcelRead c | .parcelWrite c | .tileHdr c
  | .tileEntry c | .passTable c => some c
  | .enqWrite c _ => some c
  | .move c _ => some c
  | .resolve c _ _ _ => some c
  | .coll c _ => some c
  | .passLoad c _ _ => some c
  | _ => none

/-- A command is held: a record that names it waits for space in its ring (spec/13 R365 step 1). -/
def State.cmdHeld (s : State) (c : Nat) : Bool := s.flt.recs.any fun x => x.cmd == some c && x.holdUntil.isSome && x.count.isNone

/-- The placement of a held command issues no further request for it: of the access `op` (spec/13 R365 step 1). -/
def State.opHeld (s : State) (op : Nat) : Bool :=
  match (s.ops.find? (fun (o : Op) => o.id == op)).bind fun o => purposeCmd o.pur with
  | some c => s.cmdHeld c
  | none => false

/-- Where a fault's command stands: queue, descriptor count, word, parcel edition. -/
structure FAt where
  q : Nat
  sq : Nat
  word : Nat
  parcel : Option Nat

/-- The common detail (spec/13 R362). -/
def commonDetail (addr : Nat) (at? : Option FAt) (unit req nbits pos0 pos1 : Nat) : List W64 :=
  let a := at?.getD ⟨0, 0, 0, none⟩
  [BitVec.ofNat 64 addr, BitVec.ofNat 64 (a.sq % 2 ^ 32 * 2 ^ 32 + a.q % 4096 * 2 ^ 20 + a.word % 2 ^ 20),
   BitVec.ofNat 64 (at?.isSome.toNat * 2 ^ 63 + a.parcel.isSome.toNat * 2 ^ 62 + a.parcel.getD 0 % 4096 * 2 ^ 50
     + unit % 8192 * 2 ^ 37 + req % 128 * 2 ^ 30),
   BitVec.ofNat 64 (nbits * 2 ^ 56 + pos0 * 2 ^ 49 + pos1 * 2 ^ 42), 0, 0]

/-- The detail of a translation failure (spec/10 R289). -/
def xlateDetail (va : Nat) (a : FAt) (epoch ctx : Nat) (k : XKind) (acc : Nat) (rst : Bool) (req level : Nat) : List W64 :=
  [BitVec.ofNat 64 va, BitVec.ofNat 64 (a.sq % 2 ^ 32 * 2 ^ 32 + a.q % 4096 * 2 ^ 20 + a.word % 2 ^ 20),
   BitVec.ofNat 64 (epoch % 2 ^ 32 * 2 ^ 32 + ctx % 1024 * 2 ^ 22 + k.code * 2 ^ 18 + acc % 4 * 2 ^ 16
     + rst.toNat * 2 ^ 15 + a.parcel.isSome.toNat * 2 ^ 14 + a.parcel.getD 0 % 4096),
   BitVec.ofNat 64 (req % 128 * 2 ^ 57 + level % 8 * 2 ^ 54), 0, 0]

/-- A CONTAINED fault of origin HW without a command (spec/13 R354). -/
def hwFault (grp cause unit : Nat) (escl : Bool) (part : Option Nat) (addr : Nat) : Flt :=
  ⟨grp, cause, 1, false, escl, unit, part, 0, commonDetail addr none unit 0 0 0 0, none, none⟩

/-! ### Letterbook (spec/17 R455, R456) -/

/-- The mode OBS_LB_MODE gives a partition; 3 acts as FULL. -/
def State.lbMode (s : State) (p : Nat) : Nat := min 2 (s.f F.OBS_LB_MODE_MODES (p / 32) / 4 ^ (p % 32) % 4)

/-- INT_IDENT as it reads (spec/19 R503). -/
def State.identWord (s : State) : Nat :=
  s.f F.INT_IDENT_VENDOR * 2 ^ 48 + s.f F.INT_IDENT_BLOCK * 2 ^ 32 + s.f F.INT_IDENT_MAJOR * 2 ^ 24 + s.f F.INT_IDENT_MINOR * 2 ^ 16

/-- The words of a letterbook record with the next SEQ (spec/17 R455, R456). -/
def State.lbWords (s : State) (kind : Nat) (part : Option Nat) (q w2 w3 : Nat) : List W64 :=
  [BitVec.ofNat 64 (kind % 128 * 2 ^ 56 + part.isSome.toNat * 2 ^ 54 + part.getD 0 % 64 * 2 ^ 48 + q % 4096 * 2 ^ 36
      + s.f F.FAB_ID_CHIP * 2 ^ 32 + s.f F.OBS_LB_SEQ_SEQ), BitVec.ofNat 64 s.time, BitVec.ofNat 64 w2, BitVec.ofNat 64 w3]

/-- Adds a record with the next SEQ. -/
def State.lbAdd (s : State) (ws : List W64) : State :=
  State.incF { s with obs := { s.obs with made := s.obs.made ++ [ws] } } F.OBS_LB_SEQ_SEQ 0

/-- The echo pair sends records of its mirrored state: the twin is ACTIVE or LEADER and the pair SYNCING or PAIRED (spec/12 R337). -/
def State.sends (s : State) : Bool :=
  (s.f F.ECH_STAT_ROLE == 1 || s.f F.ECH_STAT_ROLE == 3) && (s.f F.ECH_STAT_PAIR == 2 || s.f F.ECH_STAT_PAIR == 3)

/-- Hands a record to the mirror engine. -/
def State.mirror (s : State) (r : ERec) : State :=
  if s.sends then { s with ech := { s.ech with made := s.ech.made ++ [r] } } else s

/-- A mirrored queue (spec/12 R336). -/
def State.mirrored (s : State) (q : Nat) : Bool := s.fb F.QE_QCFG_MIRRORED q

/-- A mirrored partition (spec/12 R336). -/
def State.mirPart (s : State) (p : Nat) : Bool := (s.f F.ECH_PARTS_PARTS).testBit p

/-- Makes a letterbook record when the mode of its partition, or GMODE for none, includes its class; a LIGHT record that concerns a mirrored queue reaches the mirror engine whatever the letterbook does with it (spec/17 R455, R456, R458). -/
def State.note (s : State) (part : Option Nat) (full : Bool) (kind : Nat) (q : Option Nat) (w2 w3 : Nat) : State :=
  let mode := match part with
    | some p => s.lbMode p
    | none => min 2 (s.f F.OBS_LB_CFG_GMODE)
  let s := match q with
    | some n => if full = false ∧ s.mirrored n then s.mirror (.decision (s.lbWords kind part n w2 w3)) else s
    | none => s
  if mode = 0 ∨ (full = true ∧ mode < 2) then s
  else
    let s := if s.obs.hdrDue then
        State.lbAdd { s with obs := { s.obs with hdrDue := false } }
          (s.lbWords 0 none 0 (s.f F.FW_STAT_EDITION * 2 ^ 32 + 2 ^ 24 + 7 * 2 ^ 16) s.identWord)
      else s
    s.lbAdd (s.lbWords kind part (q.getD 0) w2 w3)

/-- Unspecified bytes (log 3). -/
def State.freeBytes (s : State) (n : Nat) : List Byte × State := ((List.range n).map fun i => Config.freeByte (s.free + i), { s with free := s.free + n })

/-- A letterbook record of a firmware event; its arguments are not stated (spec/17 R456; log 3). -/
def State.noteFw (s : State) (event : Nat) : State :=
  let (w, s) := s.freeW
  s.note none false 0xB none (event * 2 ^ 56) w.toNat

/-- A raise of an interrupt line: a pulse begins, or one further pulse follows (spec/18 R479); the letterbook records it as kind IRQ. -/
def State.pulse (s : State) (line : Nat) : State :=
  let e := mget (0, false) s.irq line
  { s with irq := mset s.irq line (if e.1 = 0 then (8, false) else (e.1, true)) }

/-- Raises INTREQ[p] (spec/01 R28). -/
def State.irqP (s : State) (p : Nat) : State := ((s.emit (.intreq p)).pulse p).note (some p) true 0x13 none 0 p

/-- Raises GINT[n] (spec/18 R479). -/
def State.irqG (s : State) (n : Nat) : State := ((s.emit (.gint n)).pulse (64 + n)).note none true 0x13 none 0 (64 + n)

/-- Word 2 "SQ, ORD" of spec/17 R456. -/
def sqOrd (sq ord : Nat) : Nat := sq % 2 ^ 32 * 2 ^ 32 + ord % 2 ^ 20 * 2 ^ 12

/-! ### Domains -/

/-- A domain is ON (PWR_DOM.STATE 3) and has not failed. -/
def State.domOn (s : State) (d : Nat) : Bool := s.f F.PWR_DOM_STATE d == 3 && !s.fb F.PWR_DOM_FAILED d

/-- The local chip ID (spec/11 R293). -/
def State.chip (s : State) : Nat := s.f F.FAB_ID_CHIP

/-- A link runs at link protocol revision 1 (spec/11 R304). -/
def State.linkRev1 (s : State) (l : Nat) : Bool := s.f F.FAB_LREV_CHOSEN l / 2 ^ 16 == 1

/-- A chip that is reachable; over a link of revision 1 only the peer is (spec/11 R293, R304). -/
def State.reachable (s : State) (c : Nat) : Bool :=
  let l := s.f F.FAB_ROUTE_LINK c
  c == s.chip || (s.fb F.FAB_ROUTE_EN c && s.f F.FAB_LSTAT_STATE l == 3 && (!s.linkRev1 l || s.f F.FAB_LPEER_CHIP l == c))

/-- The fabric has halted: from step 3 of the fatal halt nothing starts (spec/13 R366). -/
def State.halted (s : State) : Bool := s.flt.halt ≥ 3

/-! ### What runs -/

/-- The control island runs: start-up step 2 reached, neither NAP nor DORMANT, and past step 1 of a wake (spec/18 R494, spec/14 R378, R381). -/
def State.ctlOn (s : State) : Bool :=
  s.rst == 0 && 2 ≤ s.f F.INT_STARTUP_STEP && s.f F.PWR_STATE_STATE != 2 && s.f F.PWR_STATE_STATE != 3
    && !(s.f F.PWR_STATE_STATE == 5 && s.pwr.step == 1)

/-- A firmware core runs (spec/15 R426). -/
def State.coreUp (s : State) (k : Nat) : Bool := s.f F.FW_CORE_STATE k == 1

/-- The sorter that owns a queue runs (spec/01 R26). -/
def State.sorterUp (s : State) (q : Nat) : Bool := s.coreUp (q % 2) && s.ctlOn && !s.halted

/-- The pair keeps a queue from starting commands (spec/12 R331, R350). -/
def State.passive (s : State) (q : Nat) : Bool :=
  (s.q q).locked || (s.mirrored q && (s.f F.ECH_STAT_ROLE == 2 || s.f F.ECH_STAT_ROLE == 5))

/-- The power state takes admissions and scans (spec/14 R378, R381). -/
def State.awake (s : State) : Bool := s.f F.PWR_STATE_STATE ≤ 1

/-- Staging takes one more record, or HOLD does not hold decisions; with the ring off a record is dropped, not held (spec/17 R458; log 124). -/
def State.lbRoom (s : State) : Bool :=
  !s.fb F.OBS_LB_CFG_HOLD || !s.fb F.OBS_LB_CFG_EN || s.obs.made.length + s.obs.staging.length < 65536

/-! ### Decisions that records govern (spec/17 R462, spec/12 R344, R346) -/

/-- Keys of letterbook records: queue, placement, target queue, group, watch. -/
inductive LbKey where
  | queue (q : Nat)
  | place (k i : Nat)
  | target (q : Nat)
  | group (g : Nat)
  | watch (pa : Nat)
  deriving DecidableEq, Repr

/-- Bits `hi` to `lo` of word `i` of a record. -/
def lbBits (r : List W64) (i hi lo : Nat) : Nat := (r.getD i 0).toNat / 2 ^ lo % 2 ^ (hi + 1 - lo)

def lbKind (r : List W64) : Nat := lbBits r 0 62 56

/-- A register offset lies in a per-queue view: the privileged one, or one of a partition window (spec/02 R60, spec/17 R456). -/
def inQueueView (off : Nat) : Bool :=
  (decide (0x10100 ≤ off) && decide (off < 0x10140)) || (decide (0x1000000 ≤ off) && decide (off % 65536 < 0xF000))

/-- The key a record is filed under; a HOSTWR record has one when its register lies in a per-queue view (spec/17 R456). -/
def lbKey (r : List W64) : Option LbKey :=
  match lbKind r with
  | 1 | 3 | 5 | 6 | 7 | 9 | 0x10 => some (.queue (lbBits r 0 47 36))
  | 0x15 => if inQueueView (lbBits r 2 63 0) then some (.queue (lbBits r 0 47 36)) else none
  | 2 => some (.place (lbBits r 2 11 8) (lbBits r 2 7 0))
  | 4 => some (.target (lbBits r 3 63 52))
  | 8 => some (.group (lbBits r 3 63 56))
  | 0x11 => some (.watch (lbBits r 2 63 0))
  | _ => none

/-- What a record says of a decision: nothing, the record to apply, or that the decision waits. -/
inductive Verdict where
  | free
  | must (r : List W64)
  | wait
  deriving DecidableEq, Repr

/-- Partition `p` is replayed: 1 a run is RUNNING, 3 it has DIVERGED. -/
def State.rpState (s : State) (p : Nat) : Nat :=
  if (s.f F.OBS_RP_PARTS_PARTS).testBit p then s.f F.OBS_RP_STAT_STATE else 0

/-- The verdict for a decision of partition `p`, and of queue `q` when one is concerned. -/
def State.verdict (s : State) (p : Nat) (q : Option Nat) (key : LbKey) : Verdict :=
  if s.rpState p = 3 then .wait
  else if s.rpState p = 1 then
    match s.obs.filed.find? (fun r => lbKey r == some key) with
    | some r => .must r
    | none => .wait
  else
    let mir := (q.map s.mirrored).getD false
    let placed := match key with
      | .place _ _ | .group _ => true
      | _ => false
    if mir = false ∨ placed = true then .free
    else
      match s.ech.decisions.find? (fun r => lbKey r == some key) with
      | some r => .must r
      | none => if s.f F.ECH_STAT_ROLE = 4 ∧ s.f F.ECH_STAT_PAIR = 3 then .wait else .free

/-- Removes an applied record; a replay run whose records are all applied is DONE (spec/17 R464). -/
def State.applied (s : State) (r : List W64) : State :=
  if s.obs.filed.contains r then
    let s := { s with obs := { s.obs with filed := s.obs.filed.erase r } }
    if s.obs.filed = [] ∧ s.f F.OBS_RP_LEN_RECORDS ≤ s.f F.OBS_RP_STAT_USED ∧ s.f F.OBS_RP_STAT_STATE = 1 then
      (s.setF F.OBS_RP_STAT_STATE 0 2).irqG 5
    else s
  else { s with ech := { s.ech with decisions := s.ech.decisions.erase r } }

/-- A replay run diverges (spec/17 R463). -/
def State.diverge (s : State) (cause : Nat) (r : List W64) (q sq ord : Nat) : State :=
  if s.f F.OBS_RP_STAT_STATE ≠ 1 then s
  else
    State.irqG (((((((s.setF F.OBS_RP_STAT_STATE 0 3).setF F.OBS_RP_STAT_CAUSE 0 cause).setF F.OBS_RP_DIV0_SEQ 0 (lbBits r 0 31 0)).setF
      F.OBS_RP_DIV0_QUEUE 0 q).setF F.OBS_RP_DIV0_KIND 0 (lbKind r)).setF F.OBS_RP_DIV1_SQCOUNT 0 sq).setF F.OBS_RP_DIV1_ORDINAL 0 ord) 5

end Sys2Proof.Machine
end

