-- ==== Sys2Proof/Machine/Access.lean ====
section
/-! DEFINITION. Accesses of the block: translation (spec/10 R268 to R279), M-ports (spec/18 R480, R481), hall queues (spec/07 R189), requests over links (spec/11 R305), and the gathering of their answers. -/

namespace Sys2Proof.Machine

/-! ### M-ports -/

/-- Two byte ranges overlap. -/
def overlaps (a n b m : Nat) : Bool := a < b + m && b < a + n

/-- A waiting M-port request may be sent: at most 256 are unanswered on its port, and none earlier on the port is a write that overlaps it and is unanswered (spec/18 R481). -/
def canSend (earlier : List MReq) (r : MReq) : Bool :=
  (earlier.filter fun x => x.port == r.port && x.sent).length < 256
    && !(earlier.any fun x => x.port == r.port && x.wr && overlaps x.pa x.len r.pa r.len)

/-- Counts an access for the migration counters (spec/10 R290). -/
def countAcc (s : State) (pa : Nat) : State :=
  let base := s.f F.XLT_ACNT_BASE_BASE * 2097152
  if s.fb F.XLT_ACNT_CFG_EN = false ∨ pa < base ∨ base + 65536 * 2097152 ≤ pa then s
  else
    let i := (pa - base) / 2097152
    let c := mget 0 s.xlt.acnt i
    let th := max 1 (s.f F.XLT_ACNT_CFG_THRESH)
    let c' := min (c + 1) (2 ^ 32 - 1)
    let s := { s with xlt := { s.xlt with acnt := mset s.xlt.acnt i c' } }
    if c < th ∧ th ≤ c' then
      if s.xlt.notes.length < 64 then
        -- GINT[1] rises (spec/18 R479)
        let s := if s.xlt.notes = [] then (s.emit (.gintLevel true)).note none true 0x13 none 0 65 else s
        State.noteFw { s with xlt := { s.xlt with notes := s.xlt.notes ++ [i] } } 5
      else s.satF F.XLT_MIGR_NOTE_LOST 0
    else s

/-- The command whose MEMSIGNAL the request of an access belongs to: for its read, and for its write. -/
def memsigOf (s : State) (op : Nat) : Option Nat × Option Nat :=
  match (s.ops.find? (fun (o : Op) => o.id == op)).map Op.pur with
  | some (.memsigRead c) => (some c, none)
  | some (.memsigWrite c) => (none, some c)
  | _ => (none, none)

/-- A word between the read and the write of a MEMSIGNAL with MAX keeps a request of access `op` waiting, on an M-port or on a link (spec/03 R81; log 91). -/
def lockedOut (s : State) (op : Nat) (wr : Bool) (pa len : Nat) : Bool :=
  let (rd, w) := memsigOf s op
  (wr || rd.isSome) && s.locks.any fun e => overlaps e.2 8 pa len && w != some e.1

/-- A MEMSIGNAL's read that leaves locks its word. -/
def lockWord (s : State) (op pa : Nat) : State :=
  match (memsigOf s op).1 with
  | some c => { s with locks := s.locks ++ [(c, pa)] }
  | none => s

/-- Sends, in order, the waiting M-port requests that may be sent; none after step 7 of the fatal halt (spec/13 R366). -/
def sendM : List MReq → List MReq → State → State
  | done, [], s => { s with mreqs := done }
  | done, r :: rest, s =>
    if r.sent = false ∧ canSend done r = true ∧ s.flt.halt < 7 ∧ lockedOut s r.op r.wr r.pa r.len = false ∧ s.opHeld r.op = false then
      sendM (done ++ [{ r with sent := true }]) rest
        ((countAcc (lockWord s r.op r.pa) r.pa).emit (.mreq r.port r.tag r.pa r.len r.wr r.data r.idn.part r.idn.ctx r.sec r.attr r.src))
    else sendM (done ++ [r]) rest s

def State.pumpM (s : State) : State := sendM [] s.mreqs s

/-- Queues a request on the M-port of its address and sends what may be sent (spec/18 R481). -/
def State.mIssue (s : State) (op pa len : Nat) (wr : Bool) (data : List Byte) (idn : Ident) (sec : Bool) (attr src : Nat) : State :=
  State.pumpM { s with mreqs := s.mreqs ++ [⟨s.nid, op, pa / 512 % 8, pa, len, wr, data, idn, sec, attr, src, false, none⟩], nid := s.nid + 1 }

/-! ### Halls -/

def State.hall (s : State) (h : Nat) : Hall := mget {} s.gal.halls h

def State.setHall (s : State) (h : Nat) (v : Hall) : State :=
  { s with gal := { s.gal with halls := mset s.gal.halls h v } }

/-- The hall of a gallery address (spec/07 R180). -/
def State.hallOf (s : State) (a : Nat) : Nat := a / 512 % s.b.halls

/-- The wheel entry of slot `k` of hall `h`: its owner, if the slot is owned by a present requester (spec/07 R186, spec/00 R9). -/
def wheelOwner (s : State) (h k : Nat) : Option Nat :=
  let e := s.f F.GAL_WHEEL_ACT_ENTRIES (4 * h + k / 8) / 256 ^ (k % 8) % 256
  let r := e % 128
  if e < 128 then none
  else if (s.b.eports ≤ r ∧ r < 32) ∨ (32 + s.b.stations ≤ r ∧ r < 96) ∨ (114 + s.b.links ≤ r ∧ r < 120)
      ∨ (r = 122 ∧ s.b.echo = false) ∨ 122 < r then none
  else some r

/-- A requester has a slot in the active wheel of a hall. -/
def hasSlot (s : State) (h r : Nat) : Bool := (List.range 32).any fun k => wheelOwner s h k == some r

/-- A request no slot of its hall can serve: the hall is STRICT, its wheel gives the requester none, and it is no narrow write, whose gather entry takes free slots (spec/07 R189, R507). -/
def starved (s : State) (h : Nat) (r : HReq) : Bool :=
  s.f F.GAL_WHEEL_MODE_MODE h == 0 && !hasSlot s h r.req && !(r.wr && r.narrow)

/-- GAL_ERR takes the cause STARVE. -/
def noteStarve (s : State) (h : Nat) (r : HReq) : State :=
  ((s.setF F.GAL_ERR_CAUSE 0 4).setF F.GAL_ERR_REQ 0 r.req).setF F.GAL_ERR_WHERE 0 h

/-- Puts a request into its hall's queue; STARVE when no slot of a STRICT hall can serve it (spec/07 R189). -/
def State.hIssue (s : State) (r : HReq) : State :=
  let h := s.hallOf r.addr
  let s1 := s.setHall h { s.hall h with queue := (s.hall h).queue ++ [r] }
  if starved s h r then noteStarve s1 h r else s1

/-! ### Links -/

/-- A link is UP (spec/11 R301). -/
def State.linkUp (s : State) (l : Nat) : Bool := s.f F.FAB_LSTAT_STATE l == 3

/-- Units of 16 bytes a routed message occupies (spec/11 R298). -/
def LMsg.units (m : LMsg) : Nat :=
  match m.mtype with
  | 1 | 6 | 0x11 => 1
  | 2 => 1 + (m.addr % 16 + m.len + 1 + 15) / 16
  | 4 => 2
  | _ => 1 + (m.len + 1 + 15) / 16

/-- A message of the RSP channel (spec/11 R298). -/
def LMsg.isRsp (m : LMsg) : Bool := m.mtype == 0x10 || m.mtype == 0x11

/-- The credits of a link's two channels (spec/11 R299). -/
def State.credits (s : State) (l : Nat) : Nat × Nat := mget (1024, 1024) s.lcr l

/-- The link a message for chip `c` leaves on, when it is UP (spec/11 R294). -/
def State.routeUp (s : State) (c : Nat) : Option Nat :=
  let l := s.f F.FAB_ROUTE_LINK c
  if s.fb F.FAB_ROUTE_EN c ∧ s.linkUp l ∧ l < s.b.links then some l else none

/-- The 16 bytes of a message's header (spec/11 R298). -/
def LMsg.header (m : LMsg) : List Byte :=
  bytesOf [BitVec.ofNat 64 (m.mtype * 2 ^ 58 + m.dst % 16 * 2 ^ 54 + m.src % 16 * 2 ^ 50 + m.hops % 8 * 2 ^ 47 + m.part % 64 * 2 ^ 41 + m.ctx % 1024 * 2 ^ 31
      + m.sec.toNat * 2 ^ 30 + m.len % 512 * 2 ^ 20 + m.tag % 65536),
    BitVec.ofNat 64 (m.status % 256 * 2 ^ 56 + m.addr % 2 ^ 56)]

/-- A list of bytes cut, or filled with zeros, to a length. -/
def padTo (n : Nat) (l : List Byte) : List Byte := l.take n ++ List.replicate (n - l.length) 0

/-- The units of a message: the data of an MWR begins at byte ADDR mod 16 of the first data unit (spec/11 R298). -/
def LMsg.bytes (m : LMsg) : List Byte :=
  padTo (16 * m.units) (m.header ++ (if m.mtype = 2 then List.replicate (m.addr % 16) 0 else []) ++ padTo (if m.mtype = 4 then 8 else m.len + 1) m.data)

/-- A flit (spec/11 R297): its kind, the sending chip, FIRST, the credits it returns, its units. -/
def flitOf' (kind src first rq rs : Nat) (units : List Byte) : List Byte :=
  bytesOf [BitVec.ofNat 64 (kind * 2 ^ 56 + src % 16 * 2 ^ 52 + first * 2 ^ 40 + rq % 65536 * 2 ^ 16 + rs % 65536), 0] ++ padTo 240 units

/-- Index of the first unit of a flit in which a message header starts. -/
def firstHead (heads : List Bool) : Nat := ((List.range 15).find? fun i => heads.getD i false).getD 0xFF

/-- Traffic flits that carry units, marked where a header starts; the first flit returns the credits (spec/11 R297, R299). -/
def trafficFlits : Nat → Nat → Nat × Nat → List Bool → List Byte → List (List Byte)
  | 0, _, _, _, _ => []
  | n + 1, src, cr, heads, d =>
    if d = [] ∧ cr = (0, 0) then []
    else flitOf' 1 src (firstHead heads) cr.1 cr.2 (d.take 240) :: trafficFlits n src (0, 0) (heads.drop 15) (d.drop 240)

/-- Counts and sends a flit (spec/11 R297, R328). -/
def State.sendFlit (s : State) (l : Nat) (flit : List Byte) : State :=
  let n := mget 0 s.ltxn l + 1
  (State.emit { s with ltxn := mset s.ltxn l n } (.flit l flit)).setF F.FAB_LCNT_TXFLITS l (n / 2 ^ 16)

/-- Sends the messages and credits of a link that wait for a flit. -/
def State.flushLink (s : State) (l : Nat) : State :=
  let ms := mget [] s.ltx l
  let cr := mget (0, 0) s.lret l
  let heads := ms.flatMap fun m => true :: List.replicate (m.units - 1) false
  (trafficFlits (heads.length / 15 + 2) s.chip cr heads (ms.flatMap LMsg.bytes)).foldl (fun s x => s.sendFlit l x)
    { s with ltx := mdel s.ltx l, lret := mdel s.lret l }

/-- The flits of what a command has sent on the links. -/
def State.flushLinks (s : State) : State := (((s.ltx.map Prod.fst) ++ (s.lret.map Prod.fst)).eraseDups).foldl State.flushLink s

/-- Sends a control flit, after the traffic sent before it (spec/11 R297; log 28). -/
def State.sendCtl (s : State) (l : Nat) (ws : List W64) : State := (s.flushLink l).sendFlit l (flitOf' 2 s.chip 0 0 0 (bytesOf ws))

/-- Credits of a message's units, which have left the receive buffer of a link that is UP (spec/11 R299). -/
def State.returnCredits (s : State) (l : Nat) (m : LMsg) : State :=
  let (rq, rs) := mget (0, 0) s.lret l
  if s.linkUp l then { s with lret := mset s.lret l (if m.isRsp then (rq, rs + m.units) else (rq + m.units, rs)) } else s

/-- Sends a message when its route is UP and credits for all its units are held; the Bool says whether it left. -/
def State.sendMsg (s : State) (m : LMsg) : State × Bool :=
  match s.routeUp m.dst with
  | none => (s, false)
  | some l =>
    let (rq, rs) := s.credits l
    if (if m.isRsp then rs else rq) < m.units then (s, false)
    else
      let cr := if m.isRsp then (rq, rs - m.units) else (rq - m.units, rs)
      ({ s with lcr := mset s.lcr l cr, ltx := mset s.ltx l (mget [] s.ltx l ++ [m]) }, true)

/-- Sends what can leave of responses and forwarded messages, of requests, and of link signals, each in order (spec/11 R299, R305, R309, spec/05 R154). -/
def State.pumpL (s : State) : State :=
  let s := (s.lout.foldl (init := (s, ([] : List (LMsg × Option Nat)))) fun (s, kept) e =>
    if kept.any (fun k => k.1.dst == e.1.dst && k.1.isRsp == e.1.isRsp) then (s, kept ++ [e])
    else
      let (s, ok) := s.sendMsg e.1
      if ok then (match e.2 with
        | some l => (s.returnCredits l e.1, kept)
        | none => (s, kept))
      else (s, kept ++ [e])) |> fun (s, kept) => { s with lout := kept }
  let s := s.lreqs.foldl (init := s) fun s r =>
    if r.sent ∨ lockedOut s r.op (r.msg.mtype == 2) r.msg.addr (r.msg.len + 1) then s
    else
      let (s', ok) := s.sendMsg r.msg
      let s' := if ok then lockWord s' r.op r.msg.addr else s'
      if ok then { s' with lreqs := s'.lreqs.map fun (x : LReq) => if x.tag = r.tag then { x with sent := true, link := s.f F.FAB_ROUTE_LINK r.msg.dst } else x }
      else s
  s.linkOut.foldl (init := s) fun s e =>
    let m : LMsg := ⟨4, s.f F.PH_LINK_CHIP e.1, s.chip, 0, 0, 0, false, 0, 0, 0,
      s.f F.PH_LINK_LOCAL e.1 * 2 ^ 21 + s.f F.PH_LINK_REMOTE e.1, toBytes 8 e.2.toNat⟩
    let (s', ok) := s.sendMsg m
    if ok then { s' with linkOut := mdel s'.linkOut e.1 } else s

/-! ### Translation -/

/-- The translation a lookup found: what it maps and what it allows. -/
structure Found where
  va : Nat
  len : Nat
  pa : Nat
  r : Bool
  w : Bool
  tgt : Nat
  sec : Bool
  attr : Nat
  seg : Option Nat
  level : Nat

/-- A shared-cache entry of the context and epoch that covers `va` (spec/10 R277). -/
def stcLookup (s : State) (ctx va : Nat) : Option Tlb :=
  s.xlt.stc.find? fun t => t.ctx == ctx && t.epoch == s.f F.XLT_CTX_EPOCH ctx && t.va ≤ va && va < t.va + t.len

/-- An entry of the engine translation buffer of a port (spec/10 R277). -/
def etbLookup (s : State) (k ctx va : Nat) : Option Tlb :=
  (mget [] s.xlt.etb k).find? fun t => t.ctx == ctx && t.epoch == s.f F.XLT_CTX_EPOCH ctx && t.va ≤ va && va < t.va + t.len

/-- The cached translation an access may use: an engine's from its own buffer first. -/
def cacheLookup (s : State) (pur : Purpose) (ctx va : Nat) : Option Tlb :=
  match pur with
  | .engXl k _ _ _ => (etbLookup s k ctx va).orElse fun _ => stcLookup s ctx va
  | _ => stcLookup s ctx va

/-- A physical address in the gallery aperture of its chip (spec/11 R295). -/
def inAperture (pa : Nat) : Bool := pa / 2 ^ 29 % 2 ^ 23 == 2 ^ 23 - 1

/-- The physical or gallery addresses around `pa` whose pages all translate alike: below and above the gallery capacity, in and below the aperture of one chip (spec/10 R269, R272, spec/11 R295). -/
def evenRange (s : State) (gal : Bool) (pa : Nat) : Nat × Nat :=
  if gal then (if pa < s.b.galleryBytes then (0, s.b.galleryBytes) else (s.b.galleryBytes, 2 ^ 57))
  else
    let base := pa / 2 ^ 52 * 2 ^ 52
    let ap := base + 2 ^ 52 - 2 ^ 29
    if pa < ap then (base, ap)
    else if pa / 2 ^ 52 % 16 ≠ s.chip then (ap, base + 2 ^ 52)
    else if pa < ap + s.b.galleryBytes then (ap, ap + s.b.galleryBytes)
    else (ap + s.b.galleryBytes, base + 2 ^ 52)

/-- What a found translation gives an access: the physical address and target, or the kind of its failure in the order of spec/10 R275. -/
def evalFound (s : State) (ctx va : Nat) (wr memOnly : Bool) (e : Found) : Except XKind (Nat × Tgt) :=
  let pa := e.pa + (va - e.va)
  let aperture := inAperture pa
  let chip := pa / 2 ^ 52 % 16
  let perm := if wr then e.w else e.r
  if e.tgt = 2 then
    if s.b.galleryBytes ≤ pa then .error .mapError
    else if perm = false ∨ memOnly = true then .error .protection
    else .ok (pa, .gallery)
  else
    let sec := e.sec
    -- the capacity check of R272 for a local gallery address of R295 (log 45)
    if chip = s.chip ∧ aperture ∧ s.b.galleryBytes ≤ pa % 2 ^ 29 then .error .mapError
    else if perm = false ∨ (e.tgt = 1 ∧ s.fb F.XLT_CTX_SEC ctx = false) ∨ (memOnly = true ∧ aperture) then .error .protection
    else if chip = s.chip ∧ aperture then .ok (pa % 2 ^ 29, .gallery)
    else if chip = s.chip then .ok (pa, .mem sec e.attr)
    else if s.reachable chip then .ok (pa, .chip chip sec e.attr)
    else .error .route

/-- What a segment entry gives for `va` (spec/10 R270, R271): none for MISS. -/
def segHit (ent : List W64) (va : Nat) : Option (Except XKind Found) :=
  match ent with
  | [w0, w1, w2, w3] =>
    let vstart := bitsOf' w0 56 12 * 4096
    let npages := bitsOf' w1 44 0
    let valid := w2.toNat.testBit 11
    if valid = false ∨ va < vstart ∨ vstart + npages * 4096 ≤ va then none
    else
      let pa := bitsOf' w2 55 12 * 4096
      let tgt := bitsOf' w2 7 6
      if 2 ^ 56 ≤ pa + (va - vstart) ∨ tgt = 3 ∨ w3 ≠ 0 ∨ bitsOf' w0 63 57 ≠ 0 ∨ bitsOf' w0 11 0 ≠ 0
          ∨ bitsOf' w1 63 45 ≠ 0 ∨ bitsOf' w2 63 56 ≠ 0 ∨ bitsOf' w2 8 8 ≠ 0 ∨ bitsOf' w2 1 0 ≠ 0 then some (.error .mapError)
      else some (.ok ⟨vstart, min (npages * 4096) (2 ^ 56 - pa), pa, w2.toNat.testBit 10, w2.toNat.testBit 9, tgt, tgt == 1, bitsOf' w2 5 2, none, 0⟩)
  | _ => some (.error .mapError)
where
  bitsOf' (w : W64) (hi lo : Nat) : Nat := (w.toNat / 2 ^ lo) % 2 ^ (hi + 1 - lo)

/-- What a mirror-map entry at a level gives for `va` (spec/10 R273): the next table, a leaf, or a failure. -/
inductive MmRes where
  | table (pa : Nat)
  | leaf (e : Found)
  | fail (k : XKind)

def mmEntry (s : State) (ctx level va : Nat) (e : W64) : MmRes :=
  let n := e.toNat
  let addr := n / 4096 % 2 ^ 44
  let leaf := n.testBit 1
  if n.testBit 0 = false then .fail .notPresent
  else if n / 2 ^ 56 ≠ 0 ∨ n / 8 % 32 ≠ 0 then .fail .mapError
  else if leaf then
    let size := if level = 2 then 2 ^ 30 else 2 ^ 21
    if 2 < level ∨ addr * 4096 % size ≠ 0 then .fail .mapError
    else .leaf ⟨va / size * size, size, addr * 4096, true, n.testBit 2, 0, s.fb F.XLT_CTX_SEC ctx, n / 256 % 16, none, level⟩
  else if level = 1 ∨ n / 256 % 16 ≠ 0 ∨ n.testBit 2 ∨ addr / 2 ^ 40 % 16 ≠ s.chip then .fail .mapError
  else .table (addr * 4096)

/-- Installs a translation in the shared cache, newest first, at most 16,384 entries; a segment entry covers its part of the 2 MiB region of the address (spec/10 R277). -/
def stcInstall (s : State) (ctx va : Nat) (e : Found) : State :=
  let lo := if e.seg.isSome then max e.va (va / 2097152 * 2097152) else e.va
  let hi := if e.seg.isSome then min (e.va + e.len) ((va / 2097152 + 1) * 2097152) else e.va + e.len
  let t : Tlb := ⟨ctx, s.f F.XLT_CTX_EPOCH ctx, lo, hi - lo, e.pa + (lo - e.va), e.r, e.w, e.tgt, e.sec, e.attr, e.seg, e.level⟩
  { s with xlt := { s.xlt with stc := (t :: s.xlt.stc).take 16384 } }

/-! ### Operations -/

def State.op? (s : State) (id : Nat) : Option Op := s.ops.find? (·.id == id)

def State.setOp (s : State) (o : Op) : State := { s with ops := s.ops.map fun x => if x.id = o.id then o else x }

/-- Issues one part of an access to its target. -/
def issuePart (s : State) (o : Op) (off len pa : Nat) (tgt : Tgt) : State :=
  let tag := s.nid
  let data := if o.wr then (o.data.drop off).take len else []
  let add (s : State) (p : Part) : State := s.setOp { (s.op? o.id).getD o with parts := ((s.op? o.id).getD o).parts ++ [p] }
  if o.xlOnly then (add s ⟨tag, off, len, pa, tgt, true, some .done⟩).bump
  else
    match tgt with
    | .mem sec attr =>
      let src := match o.pur with
        | .linkRead _ c _ => c
        | .linkWrite _ c _ => c
        | _ => s.chip
      (add s ⟨tag, off, len, pa, tgt, true, none⟩).mIssue o.id pa len o.wr data o.idn sec attr src
    | .gallery =>
      let h := s.hallOf pa
      if s.domOn (s.b.domLogic h) = false then (add s ⟨tag, off, len, pa, tgt, true, some .chamberDark⟩).bump
      else
        let narrow := pa % 32 != 0 || len % 32 != 0
        (State.bump (add s ⟨tag, off, len, pa, tgt, true, none⟩)).hIssue
          ⟨tag, o.id, o.req, o.idn, pa, len, o.wr, false, 0, o.trn, o.sealed, narrow, data, none, none⟩
    | .chip c sec _ =>
      let m : LMsg := ⟨if o.wr then 2 else 1, c, s.chip, 0, o.idn.part, o.idn.ctx.getD 0, sec, len - 1, tag % 65536, 0, pa, data⟩
      let s := add s ⟨tag, off, len, pa, tgt, true, none⟩
      State.pumpL { s with lreqs := s.lreqs ++ [⟨tag, o.id, m, false, 0, s.time⟩], nid := s.nid + 1 }

/-- Issues a translated run in parts that cross no 512-byte boundary (spec/18 R481, spec/11 R305, spec/07 R182). -/
def issueRun : Nat → State → Op → Nat → Nat → Nat → Tgt → State
  | 0, s, _, _, _, _, _ => s
  | n + 1, s, o, off, len, pa, tgt =>
    if len = 0 then s
    else
      let lp1 := match tgt with
        | .chip c _ _ => !o.wr && s.linkRev1 (s.f F.FAB_ROUTE_LINK c)
        | _ => false
      let k := if o.xlOnly then len else min (min len (512 - pa % 512)) (if lp1 then 256 else 512)
      issueRun n (issuePart s o off k pa tgt) o (off + k) (len - k) (pa + k) tgt

/-- The translation of the byte at `cur` fails. -/
def failXl (s : State) (o : Op) (k : XKind) (level : Nat) (bad pf : Bool) : State :=
  s.setOp { o with fail := some ⟨k, level, o.addr + o.cur, bad, pf, s.f F.XLT_CTX_EPOCH (o.idn.ctx.getD 0)⟩, walk := none }

/-- A found translation cut to the addresses from `vlo` up to `vhi`. -/
def Found.cut (e : Found) (vlo vhi : Nat) : Found :=
  let lo := max e.va vlo
  { e with va := lo, len := min (e.va + e.len) vhi - lo, pa := e.pa + (lo - e.va) }

/-- A found translation cut to the pages around `va` that translate alike (spec/10 R269). -/
def Found.even (e : Found) (s : State) (va : Nat) : Found :=
  let (lo, hi) := evenRange s (e.tgt == 2) (e.pa + (va - e.va))
  e.cut (e.va + (lo - e.pa)) (e.va + (hi - e.pa))

/-- A translation was found, by a walk or in a cache: install a walk's in the shared cache and issue its run, or report the failure; no failed translation is installed (spec/10 R277); PROTECTION is reported only after a translation without the caches (spec/10 R276). The Bool says that the translation goes on. -/
def useFound (s : State) (o : Op) (e : Found) (walked : Bool) : State × Bool :=
  let ctx := o.idn.ctx.getD 0
  let va := o.addr + o.cur
  let e := e.even s va
  match evalFound s ctx va o.wr o.memOnly e with
  | .ok (pa, tgt) =>
    let s := if walked then stcInstall s ctx va e else s
    let n := min (o.len - o.cur) (e.va + e.len - va)
    let s := issueRun (n / 256 + 3) s o o.cur n pa tgt
    (s.setOp { (s.op? o.id).getD o with cur := o.cur + n, walk := none, rewalked := false }, true)
  | .error k =>
    if k = .protection ∧ o.rewalked = false then (s.setOp { o with walk := none, rewalked := true }, true)
    else (failXl s o k e.level false false, false)

/-- The addresses below and above which the pseudocode of spec/10 R271 would end at another entry, or the same entry would answer otherwise, after a search that ended at `ent`. -/
def segBounds (ent : List W64) (va vlo vhi : Nat) : Nat × Nat :=
  match ent with
  | [w0, w1, w2, _] =>
    let vstart := w0.toNat / 4096 % 2 ^ 45 * 4096
    let vend := vstart + w1.toNat % 2 ^ 45 * 4096
    if w2.toNat.testBit 11 = false then (vlo, vhi)
    else if va < vstart then (vlo, min vhi vstart)
    else if vend ≤ va then (max vlo vend, vhi)
    else (max vlo vstart, min vhi vend)
  | _ => (vlo, vhi)


/-- Issues the next read of a walk of operation `o` (spec/10 R271, R273). -/
def walkRead (s : State) (o : Op) (w : Walk) : State :=
  let ctx := o.idn.ctx.getD 0
  let va := o.addr + o.cur
  let idn : Ident := ⟨o.idn.part, some ctx, false⟩
  let (pa, n) :=
    if w.seg then (s.f F.XLT_CTX_SEGBASE ctx * 4096 + 32 * (if 1 < w.hi - w.lo then (w.lo + w.hi) / 2 else w.lo), 32)
    else (w.table + 8 * (va / 2 ^ (21 + 9 * (w.level - 1)) % 512), 8)
  let s1 := s.setOp { o with walk := some { w with tag := s.nid } }
  s1.mIssue o.id pa n false [] idn false 0 s.chip

/-- Neither a segment nor the cache maps the address: the mirror map, or not present (spec/10 R269). -/
def walkMm (s : State) (o : Op) (vlo vhi : Nat) : State × Bool :=
  let ctx := o.idn.ctx.getD 0
  if s.fb F.XLT_CTX_MMEN ctx then
    (walkRead s o ⟨false, 0, 0, none, 4, s.f F.XLT_CTX_MMROOT ctx * 4096, 0, vlo, vhi, s.f F.XLT_CTX_EPOCH ctx⟩, false)
  else if o.rewalked = false then (s.setOp { o with walk := none, rewalked := true }, true)
  else (failXl s o .notPresent 0 false true, false)

/-- The pieces of a translated range that bytes `off` to `off + len - 1` of it occupy. -/
def spansOf (l : List Span) (off len : Nat) : List Span :=
  l.filterMap fun x =>
    let lo := max x.off off
    let hi := min (x.off + x.len) (off + len)
    if lo < hi then some ⟨lo, hi - lo, x.pa + (lo - x.off), x.tgt⟩ else none

/-- One step of the translation of an operation: the Bool says whether it can go on at once. -/
def xlOne (s : State) (o : Op) : State × Bool :=
  match o.space with
  | .spans l =>
    let s := (spansOf l o.addr o.len).foldl (init := s) fun s x => issueRun (x.len / 256 + 3) s o (x.off - o.addr) x.len x.pa x.tgt
    (s.setOp { (s.op? o.id).getD o with cur := o.len }, false)
  | .gal =>
    let s := issueRun (o.len / 512 + 2) s o 0 o.len o.addr .gallery
    (s.setOp { (s.op? o.id).getD o with cur := o.len }, false)
  | .va =>
    let ctx := o.idn.ctx.getD 0
    let va := o.addr + o.cur
    if 2 ^ 57 ≤ va then (failXl s o .noncanon 0 false false, false)
    else if s.fb F.XLT_CTX_EN ctx = false then (failXl s o .notPresent 0 false false, false)
    else
      match (if o.rewalked then none else cacheLookup s o.pur ctx va) with
      | some t => useFound s o ⟨t.va, t.len, t.pa, t.r, t.w, t.tgt, t.sec, t.attr, t.seg, t.level⟩ false
      | none =>
        let n := min (s.f F.XLT_CTX_SEGCNT ctx) 64
        if n = 0 then walkMm s o 0 (2 ^ 57)
        else (walkRead s o ⟨true, 0, n, none, 0, 0, 0, 0, 2 ^ 57, s.f F.XLT_CTX_EPOCH ctx⟩, false)

/-- Translates and issues an operation as far as it goes without a walk read. -/
def xlGo : Nat → State → Nat → State
  | 0, s, _ => s
  | n + 1, s, id =>
    match s.op? id with
    | none => s
    | some o =>
      if o.fail.isSome ∨ o.walk.isSome ∨ o.len ≤ o.cur ∨ s.opHeld id then s
      else
        let (s, more) := xlOne s o
        if more then xlGo n s id else s

/-- The accesses of commands that are held no longer go on. -/
def xlResume (s : State) : State :=
  let s := (s.ops.filter fun o => o.fail.isNone && o.walk.isNone && decide (o.cur < o.len) && !s.opHeld o.id).foldl
    (fun s o => xlGo (o.len / 4096 + 8) s o.id) s
  s.pumpM

/-- Starts an access; its identifier is the state's next one. -/
def State.startOp (s : State) (o : Op) : State :=
  let o := { o with id := s.nid, data := if o.wr then o.data else List.replicate (if o.xlOnly then 0 else o.len) 0,
                    epoch := s.f F.XLT_CTX_EPOCH (o.idn.ctx.getD 0) }
  xlGo (o.len / 4096 + 8) { s with ops := s.ops ++ [o], nid := s.nid + 1 } o.id

/-- A fresh access. -/
def mkOp (pur : Purpose) (idn : Ident) (req : Nat) (sp : ASpace) (addr len : Nat) (wr : Bool) (data : List Byte) : Op :=
  ⟨0, pur, idn, req, sp, addr, len, wr, wr.toNat, false, false, false, false, data, 0, 0, none, false, [], none⟩

/-- The data of a walk read has come: the walk goes on, ends in a translation, or fails (spec/10 R271, R273, R274, R276, R278). -/
def walkData (s : State) (id : Nat) (resp : Resp) (data : List Byte) : State :=
  match s.op? id with
  | none => s
  | some o =>
    match o.walk with
    | none => s
    | some w =>
      let ctx := o.idn.ctx.getD 0
      let va := o.addr + o.cur
      let fuel := o.len / 4096 + 8
      let stale := w.epoch != s.f F.XLT_CTX_EPOCH ctx
      let go (r : State × Bool) : State := if r.2 then xlGo fuel r.1 id else r.1
      -- a walk that began before an increment of the epoch decides nothing: the access is translated again (spec/10 R278)
      let conclude (r : State × Bool) : State := if stale then xlGo fuel (s.setOp { o with walk := none }) id else go r
      if resp ≠ .okay then conclude (failXl s o .mapError (if w.seg then 0 else w.level) true false, false)
      else if w.seg then
        let ent := wordsOf 4 data
        let mid := if 1 < w.hi - w.lo then (w.lo + w.hi) / 2 else w.lo
        let vstart := (ent.headD 0).toNat / 4096 % 2 ^ 45 * 4096
        let w' := if 1 < w.hi - w.lo then
            (if vstart ≤ va then { w with lo := mid, loEnt := some ent, vlo := max w.vlo vstart } else { w with hi := mid, vhi := min w.vhi vstart })
          else { w with loEnt := some ent }
        if 1 < w'.hi - w'.lo ∨ w'.loEnt = none then walkRead s o w'
        else
          let (vlo, vhi) := segBounds (w'.loEnt.getD []) va w'.vlo w'.vhi
          match segHit (w'.loEnt.getD []) va with
          | none => conclude (walkMm s { o with walk := none } vlo vhi)
          | some (.error k) => conclude (failXl s o k 0 false false, false)
          | some (.ok e) => conclude (useFound s o { (e.cut vlo vhi) with seg := some w'.lo } true)
      else
        match mmEntry s ctx w.level va ((wordsOf 1 data).headD 0) with
        | .table pa => walkRead s o { w with level := w.level - 1, table := pa }
        | .leaf e => conclude (useFound s o (e.cut w.vlo w.vhi) true)
        | .fail k =>
          conclude (if k = .notPresent ∧ o.rewalked = false then (s.setOp { o with walk := none, rewalked := true }, true)
            else (failXl s o k w.level false (k == .notPresent), false))

/-- Marks a part answered and stores what it read. -/
def partDone (s : State) (id tag : Nat) (st : Status) (data : List Byte) : State :=
  match s.op? id with
  | none => s
  | some o =>
    match o.parts.find? (·.tag == tag) with
    | none => s
    | some p =>
      s.setOp { o with
        parts := o.parts.map fun x => if x.tag = tag then { x with done := some st } else x
        data := if o.wr ∨ st ≠ .done then o.data else splice o.data p.off (data.take p.len) }

/-- An operation has its translation and every answer. -/
def Op.complete (o : Op) : Bool :=
  o.walk.isNone && (o.fail.isSome || o.len ≤ o.cur) && o.parts.all (·.done.isSome)

/-- The first part of a complete operation that failed below the address whose translation failed. -/
def Op.badPart (o : Op) : Option Part :=
  o.parts.find? fun p => p.done != some .done && (match o.fail with
    | some x => decide (o.addr + p.off < x.va)
    | none => true)

/-- The status of a complete operation: of its first failed part in address order (spec/10 R269, spec/03 R89). -/
def Op.status (o : Op) : Status :=
  match o.badPart with
  | some p => p.done.getD .done
  | none => match o.fail with
    | some x => if x.bad then .uncorrected else .xlateFault
    | none => .done

/-- The translation failure that decides a complete operation's status, if a translation does. -/
def Op.xfail (o : Op) : Option XFail :=
  match o.badPart with
  | some _ => none
  | none => o.fail

/-- The translated pieces of a complete operation. -/
def Op.spans (o : Op) : List Span := o.parts.map fun p => ⟨p.off, p.len, p.pa, p.tgt⟩

/-- Every piece of a range lies in memory reached through the M-ports. -/
def allMem (l : List Span) : Bool := l.all fun x => match x.tgt with
  | .mem _ _ => true
  | _ => false

end Sys2Proof.Machine
end

