-- ==== Sys2Proof/Machine/Operands.lean ====
section
/-! DEFINITION. The encodings of the Ubzico command set (spec/03): fields of a word, the decoder's checks 1, 2, 4, 5 and the part of 6 that needs no state, and the encoder written from the same tables. -/

namespace Sys2Proof.Machine

/-- Splits a number into fields of the given widths, least significant first. -/
def unpackBits : List Nat → Nat → List Nat
  | [], _ => []
  | w :: ws, n => n % 2 ^ w :: unpackBits ws (n / 2 ^ w)

/-- Joins fields (width, value), least significant first. -/
def packBits : List (Nat × Nat) → Nat
  | [] => 0
  | (w, v) :: r => v % 2 ^ w + 2 ^ w * packBits r

/-- A one-bit field. -/
def bit1 (n : Nat) : Bool := n == 1

/-- Bits hi to lo of a word, as a number. -/
def bitsOf (w : W64) (hi lo : Nat) : Nat := (w.toNat / 2 ^ lo) % 2 ^ (hi + 1 - lo)

/-- Sign extension of an n-bit number to 64 bits. -/
def sext (n v : Nat) : W64 :=
  BitVec.ofNat 64 (if v % 2 ^ n < 2 ^ (n - 1) then v % 2 ^ n else 2 ^ 64 - 2 ^ n + v % 2 ^ n)

/-- The opcode of an arithmetic or logic operation (spec/03 R70). -/
def AluOp.code : AluOp → Nat
  | .add => 0x11 | .sub => 0x12 | .and => 0x13 | .or => 0x14 | .xor => 0x15 | .shl => 0x16 | .shr _ => 0x17

/-- The operation of an opcode and its AR bit; AR is 0 for every opcode other than SHR (spec/03 R76). -/
def AluOp.ofCode (op ar : Nat) : Option AluOp :=
  match op, ar with
  | 0x11, 0 => some .add | 0x12, 0 => some .sub | 0x13, 0 => some .and | 0x14, 0 => some .or
  | 0x15, 0 => some .xor | 0x16, 0 => some .shl | 0x17, 0 => some (.shr false) | 0x17, 1 => some (.shr true)
  | _, _ => none

/-- The second operand of spec/03 R76: GB is 0 with IMM = 1, IMM24 is 0 with IMM = 0. -/
def srcOf (imm gb v : Nat) : Option Src :=
  match imm with
  | 0 => if v = 0 then some (.reg gb) else none
  | _ => if gb = 0 then some (.imm v) else none

/-- A value held in a register or in the last word (spec/03 R79, R80, R81). -/
def valOf (vreg gv : Nat) (ws : List W64) : Option Val :=
  match vreg, ws with
  | 1, [] => some (.reg gv)
  | 0, [v] => if gv = 0 then some (.word v) else none
  | _, _ => none

/-- The substitution word (spec/03 R84): a register whose MASK bit is clear is 0. -/
def substOf : List W64 → Option (Option Subst)
  | [] => some none
  | [w] =>
    match unpackBits [40, 5, 5, 5, 5, 4] w.toNat with
    | [rsv, r4, r3, r2, r1, m] =>
      if rsv = 0 ∧ (m.testBit 0 ∨ r1 = 0) ∧ (m.testBit 1 ∨ r2 = 0) ∧ (m.testBit 2 ∨ r3 = 0) ∧ (m.testBit 3 ∨ r4 = 0)
      then some (some ⟨m, r1, r2, r3, r4⟩) else none
    | _ => none
  | _ => none

/-- Bytes of FILL's pattern at and beyond PLEN are 0 (spec/03 R88, R17). -/
def patternOk (plen : Nat) (ws : List W64) : Bool :=
  (ws.zipIdx).all fun (w, i) => if plen ≤ 8 * i then w.toNat == 0 else if 8 * i + 8 ≤ plen then true
    else w.toNat / 2 ^ (8 * (plen - 8 * i)) == 0

/-- Alignment of an address word. -/
def alignedTo (n : Nat) (w : W64) : Bool := w.toNat % n == 0

/-- The body of a command from its opcode, bits [44:0] of word 0 and words 1 to WC; `r3` is a revision 3 buffer (spec/03 R70, R73 to R100, R103). A sealed DMA of one row needs strides that are multiples of 512 too: a choice of the model beside R89 (DESIGN CHOICE; log 104). -/
def decodeBody (r3 : Bool) (op b : Nat) (ws : List W64) : Option Body :=
  if r3 ∧ (op = 0x04 ∨ op = 0x05 ∨ op = 0x50 ∨ op = 0x51 ∨ op = 0x58 ∨ op = 0x70 ∨ op = 0x71 ∨ op = 0x72) then none else
  match op with
  | 0x00 => if b = 0 ∧ ws.all (· == 0) ∧ ws.length ≤ 7 then some (.nop ws.length) else none
  | 0x01 =>
    match unpackBits [32, 13] b, ws with
    | [off, 0], [] => some (.jump off)
    | _, _ => none
  | 0x02 =>
    match unpackBits [32, 5, 5, 3] b, ws with
    | [off, gb, ga, c], [] => some (.branch c ga gb off)
    | _, _ => none
  | 0x03 =>
    match unpackBits [32, 5, 8] b, ws with
    | [off, gc, 0], [] => some (.loop gc off)
    | _, _ => none
  | 0x04 =>
    match unpackBits [12, 33] b, ws with
    | [p, 0], [] => some (.callp p)
    | _, _ => none
  | 0x05 => if b = 0 ∧ ws = [] then some .ret else none
  | 0x10 =>
    match unpackBits [32, 5, 8] b, ws with
    | [i, gd, 0], [] => some (.movi gd i)
    | [0, gd, 0], [v] => some (.movil gd v)
    | _, _ => none
  | 0x18 =>
    match unpackBits [24, 2, 2, 5, 5, 3, 3, 1] b, ws with
    | [v, 0, comb, gb, ga, pd, c, im], [] =>
      if comb = 3 then none else (srcOf im gb v).map fun s => .cmp c pd ga s comb
    | _, _ => none
  | 0x19 =>
    match unpackBits [32, 2, 5, 5, 1] b, ws with
    | [off, sz, ga, gd, sp], [] => some (.ld (bit1 sp) gd ga sz off)
    | _, _ => none
  | 0x1A =>
    match unpackBits [32, 2, 5, 5, 1] b, ws with
    | [off, sz, ga, gs, sp], [] => some (.st (bit1 sp) gs ga sz off)
    | _, _ => none
  | 0x20 =>
    match unpackBits [32, 3, 1, 5, 1, 1, 2] b, ws with
    | [t, pt, pte, gt, threg, tc, kind], target :: r =>
      if kind = 3 ∨ (pte = 0 ∧ pt ≠ 0) ∨ (r3 ∧ pte = 1) then none
      else if (kind = 0 ∧ 2 ^ 21 ≤ target.toNat) ∨ (kind = 1 ∧ ¬ alignedTo 8 target) ∨ (kind = 2 ∧ 4096 ≤ target.toNat) then none
      else (valOf threg gt r).map fun v =>
        .waitge kind (bit1 tc) (if pte = 1 then some pt else none) t target v
    | _, _ => none
  | 0x21 =>
    match unpackBits [21, 16, 5, 1, 2] b with
    | [ph, 0, gv, vr, f] =>
      match f with
      | 0 => (valOf vr gv ws).map fun v => .signal .set v ph
      | 1 => (valOf vr gv ws).map fun v => .signal .add v ph
      | 2 => if r3 then none else (valOf vr gv ws).map fun v => .signal .max v ph
      | _ => none
    | _ => none
  | 0x22 =>
    match unpackBits [38, 5, 1, 1] b, ws with
    | [0, gv, vr, m], a :: r => if alignedTo 8 a then (valOf vr gv r).map fun v => .memsignal (bit1 m) v a else none
    | _, _ => none
  | 0x23 => if b = 0 ∧ ws = [] then some .barrier else none
  | 0x30 =>
    match unpackBits [32, 2, 4, 5, 1, 1] b, ws with
    | [d, 0, eg, port, pin, np], p1 :: p2 :: p3 :: p4 :: r =>
      if (np = 1 ∧ d = 0) ∨ (pin = 1 ∧ eg ≠ 0) ∨ (pin = 0 ∧ port ≠ 0) ∨ (r3 ∧ r ≠ []) then none
      else (substOf r).map fun s => .launch (bit1 np) (bit1 pin) port eg d [p1, p2, p3, p4] s
    | _, _ => none
  | 0x31 =>
    match unpackBits [32, 2, 4, 6, 1] b, ws with
    | [d, 0, eg, 0, np], w1 :: w2 :: p1 :: p2 :: p3 :: p4 :: r =>
      match unpackBits [32, 32] w1.toNat, unpackBits [32, 32] w2.toNat with
      | [gx, gy], [ch, gz] =>
        if (np = 1 ∧ d = 0) ∨ gx = 0 ∨ gy = 0 ∨ gz = 0 ∨ ch = 0 ∨ 2 ^ 48 < gx * gy * gz ∨ (r3 ∧ r ≠ []) then none
        else (substOf r).map fun s => .dispatch (bit1 np) eg d gx gy gz ch [p1, p2, p3, p4] s
      | _, _ => none
    | _, _ => none
  | 0x32 =>
    match unpackBits [32, 2, 4, 6, 1] b, ws with
    | [d, 0, eg, 0, np], [tl, w2, p1, p2, p3, p4, rs] =>
      match unpackBits [29, 3, 16, 16] w2.toNat with
      | [tb, 0, tx, ty] =>
        if (np = 1 ∧ d = 0) ∨ tx = 0 ∨ ty = 0 ∨ tb % 512 ≠ 0 ∨ ¬ alignedTo 64 tl then none
        else some (.tilepass (bit1 np) eg d tl tx ty tb [p1, p2, p3, p4] rs)
      | _ => none
    | _, _ => none
  | 0x40 =>
    match unpackBits [32, 8, 1, 1, 1, 1, 1] b, ws with
    | [len, 0, ds, ss, trn, dsp, ssp], [src, dst] =>
      if len = 0 ∨ (ss = 1 ∧ (ssp = 0 ∨ ¬ alignedTo 512 src ∨ len % 512 ≠ 0))
        ∨ (ds = 1 ∧ (dsp = 0 ∨ ¬ alignedTo 512 dst ∨ len % 512 ≠ 0))
        ∨ (trn = 1 ∧ (ssp = 0 ∨ dsp = 0 ∨ ¬ alignedTo 512 src ∨ ¬ alignedTo 512 dst ∨ len % 512 ≠ 0)) then none
      else some (.copy (bit1 ssp) (bit1 dsp) (bit1 trn) (bit1 ss) (bit1 ds) len src dst)
    | _, _ => none
  | 0x41 =>
    match unpackBits [32, 6, 6, 1] b, ws with
    | [len, 0, pl, sp], [dst, a0, a1, a2, a3] =>
      if len = 0 ∨ pl = 0 ∨ 32 < pl ∨ ¬ patternOk pl [a0, a1, a2, a3] then none
      else some (.fill (bit1 sp) pl len dst [a0, a1, a2, a3])
    | _, _ => none
  | 0x42 =>
    match unpackBits [41, 1, 1, 1, 1] b, ws with
    | [0, ds, ss, dsp, ssp], [src, dst, w3, w4] =>
      match unpackBits [32, 32] w3.toNat, unpackBits [32, 16, 16] w4.toNat with
      | [dstr, sstr], [rb, 0, rows] =>
        if rows = 0 ∨ rb = 0
          ∨ (ss = 1 ∧ (ssp = 0 ∨ ¬ alignedTo 512 src ∨ rb % 512 ≠ 0 ∨ sstr % 512 ≠ 0))
          ∨ (ds = 1 ∧ (dsp = 0 ∨ ¬ alignedTo 512 dst ∨ rb % 512 ≠ 0 ∨ dstr % 512 ≠ 0)) then none
        else some (.dma (bit1 ssp) (bit1 dsp) (bit1 ss) (bit1 ds) src dst sstr dstr rows rb)
      | _, _ => none
    | _, _ => none
  | 0x43 =>
    match unpackBits [6, 32, 1, 1, 1, 4] b, ws with
    | [rg, 0, full, peek, perm, 0], [wb, wsz] =>
      if 2 ^ 29 ≤ wb.toNat ∨ 2 ^ 29 ≤ wsz.toNat ∨ wb.toNat % 512 ≠ 0 ∨ wsz.toNat % 512 ≠ 0 ∨ wsz.toNat = 0 then none
      else some (.seal (bit1 perm) (bit1 peek) (bit1 full) rg wb.toNat wsz.toNat)
    | _, _ => none
  | 0x44 =>
    match unpackBits [6, 39] b, ws with
    | [rg, 0], [] => some (.unseal rg)
    | _, _ => none
  | 0x45 =>
    match unpackBits [12, 27, 5, 1] b, ws with
    | [c, 0, gd, r], [] => if r = 0 ∧ gd ≠ 0 then none else some (.frank (bit1 r) gd c)
    | _, _ => none
  | 0x50 =>
    match unpackBits [32, 6, 6, 1] b, ws with
    | [d, cnt, first, np], [pa, w2, seed] =>
      match unpackBits [48, 8, 7, 1] w2.toNat with
      | [0, 1, 0, sp] =>
        if (np = 1 ∧ d = 0) ∨ ¬ alignedTo 64 pa then none
        else some (.passage (bit1 np) first cnt d pa (bit1 sp) seed)
      | _ => none
    | _, _ => none
  | 0x51 =>
    match unpackBits [6, 39] b, ws with
    | [f, 0], [] => some (.pstop f)
    | _, _ => none
  | 0x58 =>
    match unpackBits [12, 33] b, ws with
    | [tq, 0], [src] => if alignedTo 64 src then some (.enqueue tq src) else none
    | _, _ => none
  | 0x60 =>
    match unpackBits [32, 8, 1, 3, 1] b, ws with
    | [d, g, ex, o, np], [src, dst, w3] =>
      match unpackBits [16, 8, 1, 1, 2, 4, 32] w3.toNat with
      | [0, root, dsp, ssp, ro, dt, cnt] =>
        if (np = 1 ∧ d = 0) ∨ 4 < o ∨ 6 < dt ∨ ro = 3 ∨ cnt = 0 ∨ (r3 ∧ ex = 1)
          ∨ (2 ≤ o ∧ ro ≠ 0) ∨ (o ≠ 3 ∧ root ≠ 0) ∨ (ex = 1 ∧ (ro ≠ 0 ∨ 4 < dt)) then none
        else some (.collect (bit1 np) o (bit1 ex) g d src dst cnt dt ro (bit1 ssp) (bit1 dsp) root)
      | _ => none
    | _, _ => none
  | 0x68 =>
    match unpackBits [32, 5, 7, 1] b, ws with
    | [0, gd, 0, 0], [] => some (.stamp gd)
    | [0, 0, 0, 1], [a] => if alignedTo 8 a then some (.stampm a) else none
    | _, _ => none
  | 0x69 =>
    match unpackBits [8, 37] b, ws with
    | [s, 0], [a] => if alignedTo 64 a then some (.snap s a) else none
    | _, _ => none
  | 0x70 =>
    match unpackBits [12, 32, 1] b, ws with
    | [p, 0, l], [src, w2] =>
      if ¬ alignedTo 8 src ∨ w2.toNat = 0 ∨ 2 ^ 20 ≤ w2.toNat then none else some (.pdef (bit1 l) p src w2.toNat)
    | _, _ => none
  | 0x71 =>
    match unpackBits [12, 20, 8, 5] b, ws with
    | [p, off, 0, gd], [src, w2] =>
      if ¬ alignedTo 8 src ∨ w2.toNat = 0 ∨ 2 ^ 20 ≤ w2.toNat then none else some (.ppatch gd off p src w2.toNat)
    | _, _ => none
  | 0x72 =>
    match unpackBits [12, 33] b, ws with
    | [p, 0], [] => some (.pfree p)
    | _, _ => none
  | 0xF0 =>
    match unpackBits [10, 6, 27, 2] b, ws with
    | [c, 0, 0, 0], [] => some (.xinval 0 0 c 0 0)
    | [c, sg, 0, 1], [] => some (.xinval 1 sg c 0 0)
    | [c, 0, 0, 2], [st, ln] =>
      if ¬ alignedTo 4096 st ∨ ¬ alignedTo 4096 ln ∨ ln.toNat = 0 then none else some (.xinval 2 0 c st ln)
    | _, _ => none
  | 0xF1 =>
    match unpackBits [21, 24] b, ws with
    | [ph, 0], [v] => some (.phreset ph v)
    | _, _ => none
  | _ =>
    match unpackBits [24, 4, 1, 5, 5, 5, 1] b, ws with
    | [v, 0, ar, gb, ga, gd, im], [] =>
      (AluOp.ofCode op ar).bind fun o => (srcOf im gb v).map fun s => .alu o gd ga s
    | _, _ => none

/-- A command from its words, word 0 first (spec/03 R66, R67, R71 checks 1, 2, 4, 5 and 6 as far as no state bears on it). -/
def decodeCmd (r3 : Bool) (w0 : W64) (ws : List W64) : Option (Hdr × Body) :=
  match unpackBits [45, 3, 1, 2, 3, 1, 1, 8] w0.toNat with
  | [b, wc, rst, rpt, psel, pn, pc, op] =>
    if ws.length ≠ wc ∨ rpt = 3 ∨ (pc = 0 ∧ (pn ≠ 0 ∨ psel ≠ 0)) ∨ (r3 ∧ rst = 1) then none
    else (decodeBody r3 op b ws).map fun body => (⟨bit1 pc, bit1 pn, psel, rpt, bit1 rst⟩, body)
  | _ => none

/-- The number of words of a command: WC + 1 (spec/03 R66). -/
def cmdLen (w0 : W64) : Nat := bitsOf w0 47 45 + 1

/-- The register or immediate parts of an encoding. -/
def Src.enc : Src → Nat × Nat × Nat
  | .reg g => (0, g, 0)
  | .imm v => (1, 0, v)

/-- The parts of a value's encoding: the register flag, the register and the words. -/
def Val.enc : Val → Nat × Nat × List W64
  | .reg g => (1, g, [])
  | .word v => (0, 0, [v])

/-- A substitution word. -/
def substWords : Option Subst → List W64
  | none => []
  | some s => [BitVec.ofNat 64 (packBits [(40, 0), (5, s.r4), (5, s.r3), (5, s.r2), (5, s.r1), (4, s.mask)])]

/-- A 64-bit word from its fields. -/
def wordOf (fs : List (Nat × Nat)) : W64 := BitVec.ofNat 64 (packBits fs)

/-- The arithmetic right shift bit of an operation. -/
def AluOp.ar : AluOp → Nat
  | .shr true => 1
  | _ => 0

/-- The code of a signal form (spec/03 R80). -/
def SigForm.code : SigForm → Nat
  | .set => 0 | .add => 1 | .max => 2

/-- The encoding of a command body: opcode, bits [44:0] of word 0, words 1 to WC (spec/03 R73 to R100). -/
def encodeBody : Body → Nat × Nat × List W64
  | .nop wc => (0x00, 0, List.replicate wc 0)
  | .jump off => (0x01, packBits [(32, off), (13, 0)], [])
  | .branch c ga gb off => (0x02, packBits [(32, off), (5, gb), (5, ga), (3, c)], [])
  | .loop gc off => (0x03, packBits [(32, off), (5, gc), (8, 0)], [])
  | .callp p => (0x04, packBits [(12, p), (33, 0)], [])
  | .ret => (0x05, 0, [])
  | .movi gd i => (0x10, packBits [(32, i), (5, gd), (8, 0)], [])
  | .movil gd v => (0x10, packBits [(32, 0), (5, gd), (8, 0)], [v])
  | .alu o gd ga s =>
    (o.code, packBits [(24, s.enc.2.2), (4, 0), (1, o.ar), (5, s.enc.2.1), (5, ga), (5, gd), (1, s.enc.1)], [])
  | .cmp c pd ga s comb =>
    (0x18, packBits [(24, s.enc.2.2), (2, 0), (2, comb), (5, s.enc.2.1), (5, ga), (3, pd), (3, c), (1, s.enc.1)], [])
  | .ld sp gd ga sz off => (0x19, packBits [(32, off), (2, sz), (5, ga), (5, gd), (1, sp.toNat)], [])
  | .st sp gs ga sz off => (0x1A, packBits [(32, off), (2, sz), (5, ga), (5, gs), (1, sp.toNat)], [])
  | .waitge k tc pt t tg v =>
    (0x20, packBits [(32, t), (3, pt.getD 0), (1, pt.isSome.toNat), (5, v.enc.2.1), (1, v.enc.1), (1, tc.toNat), (2, k)],
      tg :: v.enc.2.2)
  | .signal f v ph => (0x21, packBits [(21, ph), (16, 0), (5, v.enc.2.1), (1, v.enc.1), (2, f.code)], v.enc.2.2)
  | .memsignal m v a => (0x22, packBits [(38, 0), (5, v.enc.2.1), (1, v.enc.1), (1, m.toNat)], a :: v.enc.2.2)
  | .barrier => (0x23, 0, [])
  | .launch np pin port eg d pl s =>
    (0x30, packBits [(32, d), (2, 0), (4, eg), (5, port), (1, pin.toNat), (1, np.toNat)], pl ++ substWords s)
  | .dispatch np eg d gx gy gz ch pl s =>
    (0x31, packBits [(32, d), (2, 0), (4, eg), (6, 0), (1, np.toNat)],
      wordOf [(32, gx), (32, gy)] :: wordOf [(32, ch), (32, gz)] :: (pl ++ substWords s))
  | .tilepass np eg d tl tx ty tb pl rs =>
    (0x32, packBits [(32, d), (2, 0), (4, eg), (6, 0), (1, np.toNat)],
      tl :: wordOf [(29, tb), (3, 0), (16, tx), (16, ty)] :: (pl ++ [rs]))
  | .copy ssp dsp trn ss ds len src dst =>
    (0x40, packBits [(32, len), (8, 0), (1, ds.toNat), (1, ss.toNat), (1, trn.toNat), (1, dsp.toNat), (1, ssp.toNat)], [src, dst])
  | .fill sp pl len dst pat => (0x41, packBits [(32, len), (6, 0), (6, pl), (1, sp.toNat)], dst :: pat)
  | .dma ssp dsp ss ds src dst sstr dstr rows rb =>
    (0x42, packBits [(41, 0), (1, ds.toNat), (1, ss.toNat), (1, dsp.toNat), (1, ssp.toNat)],
      [src, dst, wordOf [(32, dstr), (32, sstr)], wordOf [(32, rb), (16, 0), (16, rows)]])
  | .seal perm peek full rg base size =>
    (0x43, packBits [(6, rg), (32, 0), (1, full.toNat), (1, peek.toNat), (1, perm.toNat), (4, 0)],
      [BitVec.ofNat 64 base, BitVec.ofNat 64 size])
  | .unseal rg => (0x44, packBits [(6, rg), (39, 0)], [])
  | .frank r gd c => (0x45, packBits [(12, c), (27, 0), (5, gd), (1, r.toNat)], [])
  | .passage np first cnt d pa sp seed =>
    (0x50, packBits [(32, d), (6, cnt), (6, first), (1, np.toNat)],
      [pa, wordOf [(48, 0), (8, 1), (7, 0), (1, sp.toNat)], seed])
  | .pstop f => (0x51, packBits [(6, f), (39, 0)], [])
  | .enqueue tq src => (0x58, packBits [(12, tq), (33, 0)], [src])
  | .collect np o ex g d src dst cnt dt ro ssp dsp root =>
    (0x60, packBits [(32, d), (8, g), (1, ex.toNat), (3, o), (1, np.toNat)],
      [src, dst, wordOf [(16, 0), (8, root), (1, dsp.toNat), (1, ssp.toNat), (2, ro), (4, dt), (32, cnt)]])
  | .stamp gd => (0x68, packBits [(32, 0), (5, gd), (7, 0), (1, 0)], [])
  | .stampm a => (0x68, packBits [(32, 0), (5, 0), (7, 0), (1, 1)], [a])
  | .snap st a => (0x69, packBits [(8, st), (37, 0)], [a])
  | .pdef l p src len => (0x70, packBits [(12, p), (32, 0), (1, l.toNat)], [src, BitVec.ofNat 64 len])
  | .ppatch gd off p src cnt => (0x71, packBits [(12, p), (20, off), (8, 0), (5, gd)], [src, BitVec.ofNat 64 cnt])
  | .pfree p => (0x72, packBits [(12, p), (33, 0)], [])
  | .xinval sc sg c st ln =>
    (0xF0, packBits [(10, c), (6, sg), (27, 0), (2, sc)], if sc = 2 then [st, ln] else [])
  | .phreset ph v => (0xF1, packBits [(21, ph), (24, 0)], [v])

/-- The words of a command (spec/03 R66). -/
def encodeCmd (h : Hdr) (b : Body) : List W64 :=
  wordOf [(45, (encodeBody b).2.1), (3, (encodeBody b).2.2.length), (1, h.rst.toNat), (2, h.rpt), (3, h.psel),
    (1, h.pn.toNat), (1, h.pc.toNat), (8, (encodeBody b).1)] :: (encodeBody b).2.2

/-- Decodes the words of one command. -/
def decodeWords (r3 : Bool) : List W64 → Option (Hdr × Body)
  | [] => none
  | w0 :: ws => decodeCmd r3 w0 ws

/-- The fields of a header lie in their ranges (spec/03 R66, R67). -/
def Hdr.wf (h : Hdr) : Bool := h.psel < 8 && h.rpt < 3 && (h.pc || (!h.pn && h.psel == 0))

def Src.wf : Src → Bool
  | .reg g => g < 32
  | .imm v => v < 2 ^ 24

def Val.wf : Val → Bool
  | .reg g => g < 32
  | .word _ => true

def Subst.wf (s : Subst) : Bool :=
  s.mask < 16 && s.r1 < 32 && s.r2 < 32 && s.r3 < 32 && s.r4 < 32 && (s.mask.testBit 0 || s.r1 == 0)
    && (s.mask.testBit 1 || s.r2 == 0) && (s.mask.testBit 2 || s.r3 == 0) && (s.mask.testBit 3 || s.r4 == 0)

def substWf : Option Subst → Bool
  | none => true
  | some s => s.wf

/-- The fields of a command body lie in the ranges spec/03 states for them, as far as no state bears on them. -/
def Body.wf : Body → Bool
  | .nop wc => wc ≤ 7
  | .jump off => off < 2 ^ 32
  | .branch c ga gb off => c < 8 && ga < 32 && gb < 32 && off < 2 ^ 32
  | .loop gc off => gc < 32 && off < 2 ^ 32
  | .callp p => p < 4096
  | .ret => true
  | .movi gd i => gd < 32 && i < 2 ^ 32
  | .movil gd _ => gd < 32
  | .alu _ gd ga s => gd < 32 && ga < 32 && s.wf
  | .cmp c pd ga s comb => c < 8 && pd < 8 && ga < 32 && s.wf && comb < 3
  | .ld _ gd ga sz off => gd < 32 && ga < 32 && sz < 4 && off < 2 ^ 32
  | .st _ gs ga sz off => gs < 32 && ga < 32 && sz < 4 && off < 2 ^ 32
  | .waitge k _ pt t tg v =>
    k < 3 && pt.getD 0 < 8 && t < 2 ^ 32 && v.wf &&
      (if k = 0 then tg.toNat < 2 ^ 21 else if k = 1 then alignedTo 8 tg else tg.toNat < 4096)
  | .signal _ v ph => v.wf && ph < 2 ^ 21
  | .memsignal _ v a => v.wf && alignedTo 8 a
  | .barrier => true
  | .launch np pin port eg d pl s =>
    port < 32 && eg < 16 && d < 2 ^ 32 && (!np || d != 0) && (if pin then eg == 0 else port == 0) && pl.length == 4 && substWf s
  | .dispatch np eg d gx gy gz ch pl s =>
    eg < 16 && d < 2 ^ 32 && (!np || d != 0) && gx < 2 ^ 32 && gy < 2 ^ 32 && gz < 2 ^ 32 && ch < 2 ^ 32
      && gx != 0 && gy != 0 && gz != 0 && ch != 0 && gx * gy * gz ≤ 2 ^ 48 && pl.length == 4 && substWf s
  | .tilepass np eg d tl tx ty tb pl _ =>
    eg < 16 && d < 2 ^ 32 && (!np || d != 0) && alignedTo 64 tl && tx < 2 ^ 16 && ty < 2 ^ 16 && tx != 0 && ty != 0
      && tb < 2 ^ 29 && tb % 512 == 0 && pl.length == 4
  | .copy ssp dsp trn ss ds len src dst =>
    len < 2 ^ 32 && len != 0 && (!ss || (ssp && alignedTo 512 src && len % 512 == 0))
      && (!ds || (dsp && alignedTo 512 dst && len % 512 == 0))
      && (!trn || (ssp && dsp && alignedTo 512 src && alignedTo 512 dst && len % 512 == 0))
  | .fill _ pl len _ pat => len < 2 ^ 32 && len != 0 && pl != 0 && pl ≤ 32 && pat.length == 4 && patternOk pl pat
  | .dma ssp dsp ss ds src dst sstr dstr rows rb =>
    sstr < 2 ^ 32 && dstr < 2 ^ 32 && rows < 2 ^ 16 && rb < 2 ^ 32 && rows != 0 && rb != 0
      && (!ss || (ssp && alignedTo 512 src && rb % 512 == 0 && sstr % 512 == 0))
      && (!ds || (dsp && alignedTo 512 dst && rb % 512 == 0 && dstr % 512 == 0))
  | .seal _ _ _ rg base size =>
    rg < 64 && base < 2 ^ 29 && size < 2 ^ 29 && base % 512 == 0 && size % 512 == 0 && size != 0
  | .unseal rg => rg < 64
  | .frank r gd c => gd < 32 && c < 4096 && (r || gd == 0)
  | .passage np first cnt d pa _ _ => first < 64 && cnt < 64 && d < 2 ^ 32 && (!np || d != 0) && alignedTo 64 pa
  | .pstop f => f < 64
  | .enqueue tq src => tq < 4096 && alignedTo 64 src
  | .collect np o ex g d _ _ cnt dt ro _ _ root =>
    o ≤ 4 && g < 256 && d < 2 ^ 32 && (!np || d != 0) && cnt < 2 ^ 32 && cnt != 0 && dt ≤ 6 && ro < 3 && root < 256
      && (o < 2 || ro == 0) && (o == 3 || root == 0) && (!ex || (ro == 0 && dt ≤ 4))
  | .stamp gd => gd < 32
  | .stampm a => alignedTo 8 a
  | .snap sn a => sn < 256 && alignedTo 64 a
  | .pdef _ p src len => p < 4096 && alignedTo 8 src && len != 0 && len < 2 ^ 20
  | .ppatch gd off p src cnt => gd < 32 && off < 2 ^ 20 && p < 4096 && alignedTo 8 src && cnt != 0 && cnt < 2 ^ 20
  | .pfree p => p < 4096
  | .xinval sc sg c va ln =>
    sc < 3 && c < 1024 && (if sc = 2 then sg == 0 && alignedTo 4096 va && alignedTo 4096 ln && ln.toNat != 0
      else va == 0 && ln == 0 && (if sc = 1 then sg < 64 else sg == 0))
  | .phreset ph _ => ph < 2 ^ 21

end Sys2Proof.Machine
end

