-- ==== Sys2Proof/Machine/QueueOps.lean ====
section
/-! DEFINITION. Operations of the queue engine and the sorter: rings and records (spec/02), the cycle of a program (spec/03 R63), starts and completions of commands (spec/04 R104 to R116). -/

namespace Sys2Proof.Machine

/-! ### Rings and completion entries -/

/-- log2 of the entries of a queue's descriptor ring and completion ring (spec/02 R35). -/
def State.sqLog (s : State) (q : Nat) : Nat := s.f F.QE_QSIZE_SQLOG2 q
def State.cqLog (s : State) (q : Nat) : Nat := s.f F.QE_QSIZE_CQLOG2 q

/-- A completion entry is free to be reserved (spec/02 R50). -/
def cqFree (s : State) (q : Nat) : Bool :=
  ((s.q q).cq - (s.q q).head).toNat + (s.q q).resv < 2 ^ s.cqLog q

/-- Reserves one completion entry (spec/02 R50). -/
def reserve (s : State) (q : Nat) : State := s.setQ q { s.q q with resv := (s.q q).resv + 1 }

/-- Word 0 of a record with the phase of its count (spec/02 R49, spec/04 R111). -/
def withPhase (n : Nat) (c : BitVec 32) (ws : List W64) : List W64 :=
  match ws with
  | [] => []
  | w :: r => (if phaseOf n c then w ||| 0x8000000000000000#64 else w &&& 0x7FFFFFFFFFFFFFFF#64) :: r

/-- An end record's word 0 with the placement epoch its queue has when the record is written (spec/04 R113). -/
def withEpoch (e : BitVec 16) (r : Rec) : List W64 :=
  match r.isEnd, r.words with
  | true, w :: l => ((w &&& 0xFFFF0000FFFFFFFF#64) ||| BitVec.ofNat 64 (e.toNat * 2 ^ 32)) :: l
  | _, l => l

/-- No record of the queue is written: it is FROZEN, its completion ring is untranslated, it is mirrored at a FENCED twin, or the fatal halt has reached step 6 (spec/02 R61, spec/12 R331, spec/13 R366, spec/15 R417). -/
def recsWait (s : State) (q : Nat) : Bool :=
  (s.q q).st == .frozen || !(s.q q).cqOk || (s.mirrored q && s.f F.ECH_STAT_ROLE == 5) || decide (6 ≤ s.flt.halt)

/-- Issues the writes of a queue's waiting records, in order, at successive counts (spec/02 R49, spec/04 R114). -/
def writeRecs : Nat → State → Nat → State
  | 0, s, _ => s
  | n + 1, s, q =>
    let Q := s.q q
    match Q.recs with
    | [] => s
    | r :: rest =>
      if recsWait s q then s
      else
        let m := s.cqLog q
        let ws := withPhase m Q.cq (withEpoch Q.pepoch r)
        let off := 32 * (Q.cq.toNat % 2 ^ m)
        let s := s.setQ q { Q with recs := rest, cq := Q.cq + 1, resv := Q.resv - 1, recsOut := Q.recsOut + 1 }
        let s := s.startOp (mkOp (.record q r.irq r.isEnd r.sq) (s.qIdent q) 112 (.spans Q.cqRing) off 32 true (bytesOf ws))
        writeRecs n s q

/-- The records of a queue wait for retirement, or are not written at all (spec/12 R331, R340). -/
def holdsRecs (s : State) (q : Nat) : Bool :=
  s.mirrored q && (s.f F.ECH_STAT_ROLE == 5 || (s.f F.ECH_STAT_MODE == 1 && s.sends))

/-- Adds a record to a queue and issues what can be issued. -/
def pushRec (s : State) (q : Nat) (r : Rec) : State :=
  if holdsRecs s q then s.setQ q { s.q q with echoHeld := (s.q q).echoHeld ++ [r] }
  else
    let s := s.setQ q { s.q q with recs := (s.q q).recs ++ [r] }
    writeRecs (s.q q).recs.length s q

/-- A completion of a FROZEN queue waits at its crossing: the hardware completion buffers hold 4,096 (spec/15 R417). -/
def cbufFull (s : State) (q : Nat) : Bool := (s.q q).st == .frozen && decide (4096 ≤ s.cbuf.length)

/-- The words of a completion record without its phase (spec/04 R111, R113). -/
def recWords (isEnd : Bool) (status : Status) (ov rs mg : Bool) (inpcl : Option Nat) (pepoch tag sq word time energy bytes : Nat) : List W64 :=
  [BitVec.ofNat 64 ((!isEnd).toNat * 2 ^ 60 + status.code * 2 ^ 52 + ov.toNat * 2 ^ 51 + rs.toNat * 2 ^ 50 + mg.toNat * 2 ^ 49
      + inpcl.isSome.toNat * 2 ^ 48 + pepoch % 2 ^ 16 * 2 ^ 32 + tag % 2 ^ 32),
   BitVec.ofNat 64 (sq % 2 ^ 32 * 2 ^ 32 + word % 2 ^ 20 * 2 ^ 12 + inpcl.getD 0 % 4096),
   BitVec.ofNat 64 time,
   BitVec.ofNat 64 (min energy 0xFFFFFF * 2 ^ 40 + min bytes (2 ^ 40 - 1))]

/-! ### Descriptors -/

def descTag (d : Desc) : Nat := bitsOf (d.words.headD 0) 31 0
def descType (d : Desc) : Nat := bitsOf (d.words.headD 0) 59 56
def descRev (d : Desc) : Nat := bitsOf (d.words.headD 0) 55 52
def descIrq (d : Desc) : Bool := (d.words.headD 0).toNat.testBit 51
def descArgv (d : Desc) : Bool := (d.words.headD 0).toNat.testBit 50
def descFence (d : Desc) : Bool := (d.words.headD 0).toNat.testBit 49
def descCbLen (d : Desc) : Nat := bitsOf (d.words.getD 2 0) 19 0

/-- Replaces a descriptor of a queue, found by its count. -/
def setDesc (s : State) (q : Nat) (d : Desc) : State :=
  s.setQ q { s.q q with descs := (s.q q).descs.map fun x => if x.count = d.count then d else x }

/-- The descriptor whose program runs. -/
def curDesc (s : State) (q : Nat) : Option Desc := (s.q q).descs.find? (·.st == 1)

def descAt (s : State) (q sq : Nat) : Option Desc := (s.q q).descs.find? (·.count == sq)

/-- The end record of a descriptor (spec/02 R51, spec/04 R113). -/
def endRecord (d : Desc) : Rec :=
  let st := match d.malformed, d.endSt with
    | some m, _ => m
    | none, some e => e.2.1
    | none, none => if d.aborted then .aborted else .done
  let word := match d.endSt with
    | some e => if d.malformed.isSome then 0 else e.2.2.1
    | none => 0
  let pcl := match d.endSt with
    | some e => if d.malformed.isSome then none else e.2.2.2
    | none => none
  ⟨d.count, 2 ^ 20, true, descIrq d || d.badCmd || d.malformed.isSome,
    recWords true st d.overrun d.restarted d.migrated pcl 0 (descTag d) d.count word d.time d.energy d.bytes⟩

/-- Pushes the end records that are due: in the order of the counts, each once its program has ended and its commands have completed (spec/02 R51, spec/03 R63). -/
def pushEnds : Nat → State → Nat → State
  | 0, s, _ => s
  | n + 1, s, q =>
    match (s.q q).descs.find? (fun d => d.st < 3) with
    | none => s
    | some d =>
      if d.st = 2 ∧ (s.cmds.any fun c => c.q == q && c.sq == d.count) = false then
        pushEnds n (pushRec (setDesc s q { d with st := 3 }) q (endRecord d)) q
      else s

/-- The moves of a queue that depend only on its own state: IDLE and ACTIVE, and DRAINING to DISABLED (spec/02 R52). -/
def queueSettle (s : State) (q : Nat) : State :=
  let Q := s.q q
  match Q.st with
  | .idle => if Q.pend then s.setQ q { Q with st := .active } else s
  | .active =>
    if Q.scanning = false ∧ Q.batchOut = false ∧ Q.scanWords = [] ∧ Q.pend = false ∧ Q.descs = [] ∧ Q.recs = [] ∧ Q.recsOut = 0
    then s.setQ q { Q with st := .idle } else s
  | .draining =>
    if Q.descs = [] ∧ Q.recs = [] ∧ Q.recsOut = 0 then s.setQ q { Q with st := .disabled, pend := false, aborting := false } else s
  | _ => s

/-- A descriptor read of the queue is in flight, its result to be used or not. -/
def readsDescs (s : State) (q : Nat) : Bool := s.ops.any fun o => o.pur == .batch q || o.pur == .batchOld q

/-- QE_QSTAT.IDLE (spec/02 R58). -/
def queueIdle (s : State) (q : Nat) : Bool :=
  let Q := s.q q
  Q.descs == [] && !readsDescs s q && Q.recs == [] && Q.recsOut == 0

/-- The scan of a queue ends where it stands: the result of a batch read in flight will be discarded (spec/02 R54, R56). -/
def dropScan (s : State) (q : Nat) : State :=
  { s.setQ q { s.q q with scanning := false, batchOut := false, scanWords := [], scanXl := false } with
    ops := (s.ops.filter fun o => match o.pur with
      | .scanXl n _ => n != q
      | _ => true).map fun o => if o.pur = .batch q then { o with pur := .batchOld q } else o }

/-! ### Parcels -/

def findParcel (s : State) (p n : Nat) : Option Parcel := s.pcls.find? fun x => x.part == p && x.num == n

def edition? (s : State) (k : EdKey) : Option Edition := s.eds.find? (·.key == k)

/-- The editions that the checkpoints a following twin holds name: their pins stand at the partner (spec/12 R337, R345). -/
def ckptKeys (s : State) : List EdKey :=
  s.ech.ckpts.flatMap fun e => match e.2 with
    | .qstate _ _ _ _ _ _ _ _ _ _ loc stack => loc.toList ++ stack.filterMap (·.loc)
    | _ => []

/-- An edition is reclaimed once it is unpinned and no longer the newest of a defined parcel (spec/04 R126). -/
def reclaim (s : State) : State :=
  { s with eds := s.eds.filter fun e =>
      e.pins != 0 || !e.published || (ckptKeys s).contains e.key || s.pcls.any fun p => p.part == e.key.part && p.num == e.key.parcel && p.gen == e.key.gen && p.newest == some e.key.ed }

/-- Changes the pin count of an edition by one (spec/04 R125). -/
def pin (s : State) (k : EdKey) (up : Bool) : State :=
  { s with eds := s.eds.map fun e => if e.key = k then { e with pins := if up then e.pins + 1 else e.pins - 1 } else e }

/-- Releases every open call of a queue's program (spec/04 R125). -/
def unpinAll (s : State) (q : Nat) : State :=
  let Q := s.q q
  let keys := Q.loc.toList ++ Q.stack.filterMap (·.loc)
  reclaim ((keys.foldl (fun s k => pin s k false) s).setQ q { Q with loc := none, stack := [] })

/-! ### The program cycle (spec/03 R63) -/

/-- The length in words of what the program counter runs in: the buffer or the edition. -/
def progLen (s : State) (q : Nat) : Nat :=
  match (s.q q).loc with
  | some k => ((edition? s k).map (·.len)).getD 0
  | none => ((curDesc s q).map descCbLen).getD 0

/-- The running buffer is decoded under revision 3; a parcel always runs on revision 4 (spec/03 R74, R103). -/
def isR3 (s : State) (q : Nat) : Bool :=
  (s.q q).loc == none && (match curDesc s q with
    | some d => descRev d == 3
    | none => false)

/-- The words of the command at the program counter, when they have been fetched (log 7). -/
def cmdWords (s : State) (q : Nat) : Option (List W64) :=
  let Q := s.q q
  if Q.pc < Q.winAt then none
  else
    match Q.win.drop (Q.pc - Q.winAt) with
    | [] => none
    | w :: r => if r.length + 1 < cmdLen w then none else some ((w :: r).take (cmdLen w))

/-- The command is with its sorter's firmware, which has not returned it (spec/01 R30, spec/03 R70; log 92): COLLECT, XINVAL, and LAUNCH and DISPATCH of revision 3 are handed on when they start. -/
def withFirmware (c : Cmd) : Bool :=
  match c.body with
  | .tilepass .. => c.buf == [] && (c.st == .held || c.st == .running)
  | .snap .. | .pdef .. | .ppatch .. | .pfree .. | .phreset .. => c.st == .running
  | _ => false

/-- The decoder of the queue's sorter is occupied by a command that has trapped (spec/01 R30). -/
def decoderBusy (s : State) (q : Nat) : Bool := s.cmds.any fun c => c.q % 2 == q % 2 && withFirmware c

/-- The command a queue's decoder holds ready to start, with its length (spec/03 R63, R71, spec/01 R30). -/
def ready (s : State) (q : Nat) : Option (Hdr × Body) :=
  if (s.q q).blk = .ready ∧ (s.q q).st ≠ .frozen ∧ s.sorterUp q ∧ s.passive q = false ∧ (s.q q).aborting = false ∧ decoderBusy s q = false then
    (cmdWords s q).bind (decodeWords (isR3 s q)) else none

/-- Length in words of the ready command. -/
def readyLen (s : State) (q : Nat) : Nat := ((cmdWords s q).map List.length).getD 1

/-- Present engine ports in the active mask of a group (spec/06 R161). -/
def groupPorts (s : State) (g : Nat) : List Nat :=
  (List.range s.b.eports).filter fun k => (s.f F.SCH_EGRP_ACT_PORTS g).testBit k

/-- A pigeonhole lies in the partition's allotment (spec/05 R141). -/
def inAllot (s : State) (p n : Nat) : Bool :=
  s.fb F.PH_PART_BASE_EN p && s.f F.PH_PART_BASE_BASE p ≤ n && n ≤ s.f F.PH_PART_LIMIT_LAST p

/-- A franking counter is held by the partition (spec/07 R198). -/
def holdsCounter (s : State) (p n : Nat) : Bool :=
  s.fb F.GAL_FRANK_PART_EN p && s.f F.GAL_FRANK_PART_BASE p ≤ n && n ≤ s.f F.GAL_FRANK_PART_LAST p

/-- An ownership entry READY or SCRUBBING gives its effective owner (spec/07 R184, R185). -/
def ownerOf (s : State) (blk : Nat) : Owner := mget {} s.gal.own blk

/-- A byte range lies within the gallery ranges of a partition (spec/07 R184). -/
def inGalleryRanges (s : State) (p base size : Nat) : Bool :=
  decide (base + size ≤ s.b.galleryBytes) && (List.range ((base + size + 65535) / 65536 - base / 65536)).all fun i =>
    (ownerOf s (base / 65536 + i)).valid && (ownerOf s (base / 65536 + i)).part == p

/-- Chip and partition of rank `r` of a collective group (spec/11 R316). -/
def memberAt (s : State) (g r : Nat) : Nat × Nat := (mget 0 s.gmem (64 * g + r) / 64, mget 0 s.gmem (64 * g + r) % 64)

/-- The rank of a partition of this chip in a group. -/
def rankOf (s : State) (g p : Nat) : Option Nat := (List.range (s.f F.FAB_GRP_NRANK g)).find? fun r => memberAt s g r == (s.chip, p)

/-- A gallery address field lies below the capacity (spec/03 R72, check 6). -/
def galOk (s : State) (sp : Bool) (a : W64) : Bool := !sp || decide (a.toNat < s.b.galleryBytes)

/-- The checks at decode that depend on the state: check 6 and check 7 (spec/03 R71, R72, R85, R90 to R95, R118). -/
def checkBody (s : State) (q : Nat) : Body → Bool
  | .waitge k _ _ _ t _ => if k = 0 then inAllot s (s.qPart q) t.toNat else if k = 2 then holdsCounter s (s.qPart q) t.toNat else true
  | .signal _ _ ph => inAllot s (s.qPart q) ph
  | .launch _ pin port eg _ _ _ => if pin then decide (port < s.b.eports) else groupPorts s eg != []
  | .dispatch _ eg _ _ _ _ _ _ _ => groupPorts s eg != []
  | .tilepass _ eg _ _ _ _ tb _ _ => groupPorts s eg != [] && decide (tb < s.b.galleryBytes)
  | .copy ssp dsp _ _ _ _ src dst => galOk s ssp src && galOk s dsp dst
  | .fill sp _ _ dst _ => galOk s sp dst
  | .dma ssp dsp _ _ src dst _ _ _ _ => galOk s ssp src && galOk s dsp dst
  | .seal _ _ _ rg base size =>
    s.fb F.GAL_SEAL_MODE_ALLOT rg && s.f F.GAL_SEAL_MODE_OWNER rg == s.qPart q && inGalleryRanges s (s.qPart q) base size
  | .unseal rg => s.fb F.GAL_SEAL_MODE_ALLOT rg && s.f F.GAL_SEAL_MODE_OWNER rg == s.qPart q
  | .frank _ _ c => holdsCounter s (s.qPart q) c
  | .passage _ first cnt _ pa sp _ => decide (first < s.b.stations) && decide (cnt + 1 ≤ s.b.stations) && galOk s sp pa
  | .pstop first => decide (first < s.b.stations)
  | .enqueue t _ =>
    s.fb F.QE_ENQ_TARGET t && (s.qPart t == s.qPart q || (s.f F.QE_FWD_GRANT (s.qPart t)).testBit (s.qPart q))
  | .collect _ _ _ g _ src dst _ _ _ ssp dsp root =>
    s.fb F.FAB_GRP_EN g && (rankOf s g (s.qPart q)).isSome && galOk s ssp src && galOk s dsp dst && decide (root < s.f F.FAB_GRP_NRANK g)
  | .xinval .. => s.qHyp q
  | .phreset .. => s.qHyp q
  | .snap set _ => [0, 1, 2, 3, 0x10, 0x11, 0x12, 0x13, 0x14].contains set
  | _ => true

/-- Placed commands: the scheduler places them (spec/03 R64). -/
def isPlaced : Body → Bool
  | .launch .. | .dispatch .. | .tilepass .. | .copy .. | .fill .. | .dma .. | .passage .. | .collect .. => true
  | _ => false

/-- What a mirrored queue does not permit fails check 6 (spec/12 R341). -/
def mirrorOk (h : Hdr) : Body → Bool
  | .copy _ _ _ ss ds _ _ _ => h.rst && !ss && !ds
  | .dma _ _ ss ds _ _ _ _ _ _ => h.rst && !ss && !ds
  | b => !isPlaced b || h.rst

/-- The checks at decode that depend on the state. -/
def checkEnv (s : State) (q : Nat) (h : Hdr) (b : Body) : Bool := checkBody s q b && (!s.mirrored q || mirrorOk h b)

/-- The condition of a command holds (spec/03 R67). -/
def condHolds (s : State) (q : Nat) (h : Hdr) : Bool := !h.pc || (s.pred q h.psel != h.pn)

/-- Where the running command stands: word and parcel (spec/02 R54, spec/03 R71). -/
def atWord (s : State) (q : Nat) : Nat × Option Nat := ((s.q q).pc, (s.q q).loc.map (·.parcel))

/-- The word QE_ERR_INDEX reports: for a command in a parcel, the CALLP made at depth 0 (spec/03 R71). -/
def errWord (s : State) (q : Nat) : Nat :=
  match (s.q q).stack with
  | [] => (s.q q).pc
  | f :: r => (r.getLastD f).top

/-- Latches the cause of a stop, the ring index, and the word for cause COMMAND (spec/02 R54, R61). -/
def setErr (s : State) (q cause : Nat) (word : Option Nat) (index : Nat) : State :=
  let s := (s.setF F.QE_ERR_INDEX_CAUSE q cause).setF F.QE_ERR_INDEX_INDEX q index
  match word with
  | some w => s.setF F.QE_ERR_INDEX_WORD q w
  | none => s

/-- ACTIVE becomes STOPPED_ERROR; other states keep (spec/02 R54, spec/10 R275). -/
def stopQueue (s : State) (q : Nat) : State :=
  let s' := dropScan s q
  if (s.q q).st = .active then s'.setQ q { s'.q q with st := .stoppedError }
  else if (s.q q).st = .frozen ∧ (s.q q).prior = .active then s'.setQ q { s'.q q with prior := .stoppedError }
  else s

/-- The accesses a queue's sorter makes for its running program: fetches, the argument block, their translations. -/
def forProgram (q : Nat) : Purpose → Bool
  | .startXl n _ | .argBlock n | .fetch n => n == q
  | _ => false

/-- The program of the running descriptor ends; its open calls are released and what is being read for it is of no more use (spec/03 R63, R102, spec/04 R125). -/
def endProgram (s : State) (q : Nat) : State :=
  match curDesc s q with
  | none => s
  | some d =>
    let s := unpinAll (setDesc { s with ops := s.ops.filter fun o => !forProgram q o.pur } q { d with st := 2 }) q
    s.setQ q { s.q q with blk := .idle }

/-- The first status in program order that ends a program (spec/03 R102). -/
def noteEnd (d : Desc) (ord : Nat) (st : Status) (word : Nat) (pcl : Option Nat) : Desc :=
  match d.endSt with
  | some e => if ord < e.1 then { d with endSt := some (ord, st, word, pcl) } else d
  | none => { d with endSt := some (ord, st, word, pcl) }

/-- A malformed command (spec/02 R54, spec/03 R71). -/
def malformedCmd (s : State) (q : Nat) : State :=
  match curDesc s q with
  | none => s
  | some d =>
    let (w, pcl) := atWord s q
    let ed := ((s.q q).loc.map (·.ed)).getD 0
    let s := setErr s q 8 (some (errWord s q)) (d.count % 2 ^ s.sqLog q)
    let s := s.raise ⟨0, 1, 1, true, false, q, some (s.qPart q), Status.malformed.code,
      commonDetail ed (some ⟨q, d.count, w, pcl⟩) q 0 0 0 0, none, none⟩
    let s := setDesc s q { noteEnd d (s.q q).ord .malformed w pcl with badCmd := true }
    let s := endProgram (stopQueue s q) q
    pushEnds (s.q q).descs.length s q

/-- Where the words of the running program stand, as translated pieces. -/
def progSpans (s : State) (q : Nat) : List Span :=
  match (s.q q).loc with
  | some k => match edition? s k with
    | some e => [⟨0, 8 * e.len, e.addr, if e.dram then .mem false 0 else .gallery⟩]
    | none => []
  | none => ((curDesc s q).map (·.cb)).getD []

/-- The translation a descriptor holds was made under the current epoch of its context (spec/02 R48, spec/10 R278, R279). -/
def descFresh (s : State) (q : Nat) (d : Desc) : Bool := !d.stale && d.epoch == s.f F.XLT_CTX_EPOCH (s.qCtx q)

/-- Where a fetch reads: in a command buffer whose translation is of an older epoch, by its virtual address (spec/10 R283). -/
def fetchFrom (s : State) (q : Nat) : ASpace × Nat :=
  match (s.q q).loc, curDesc s q with
  | none, some d => if descFresh s q d then (.spans d.cb, 8 * (s.q q).pc) else (.va, (d.words.getD 1 0).toNat + 8 * (s.q q).pc)
  | _, _ => (.spans (progSpans s q), 8 * (s.q q).pc)

/-- Fetches up to 8 words at the program counter (log 7). -/
def startFetch (s : State) (q : Nat) : State :=
  let Q := s.q q
  let n := min 8 (progLen s q - Q.pc)
  let o := { mkOp (.fetch q) (s.qIdent q) 112 (fetchFrom s q).1 (fetchFrom s q).2 (8 * n) false [] with acc := 2, memOnly := Q.loc.isNone }
  (s.setQ q { Q with blk := .fetching, winAt := Q.pc, win := [] }).startOp o

/-- Returns from a parcel call: RET, or the end of the edition (spec/03 R74, spec/04 R125). -/
def doReturn (s : State) (q : Nat) : State :=
  let Q := s.q q
  match Q.stack with
  | [] => endProgram s q
  | f :: r =>
    let s := match Q.loc with
      | some k => pin s k false
      | none => s
    reclaim (s.setQ q { Q with stack := r, loc := f.loc, pc := f.pc, win := [], winAt := 0 })

/-- The status a disabled queue's abandoned commands take (spec/02 R57, spec/16 R436). -/
def abortStatus (s : State) (q : Nat) : Status :=
  if s.f F.PRT_STAT_STATE (s.qPart q) = 2 ∧ s.fb F.PRT_STAT_ABORT (s.qPart q) then .partitionDisabled else .aborted

/-- Ends the program of a queue with a status, before its next command. -/
def endProgramWith (s : State) (q : Nat) (st : Status) : State :=
  match curDesc s q with
  | none => s
  | some d =>
    let (w, pcl) := atWord s q
    let s := endProgram (setDesc s q (noteEnd d (s.q q).ord st w pcl)) q
    pushEnds (s.q q).descs.length s q

/-- Ends the program of a queue that aborts, before its next command (spec/02 R57). -/
def abortProgram (s : State) (q : Nat) : State := endProgramWith s q (abortStatus s q)

/-- Advances a queue's decoder until it holds a command ready to start, waits for a fetch, or the program ends: end of buffer, end of edition, malformed and skipped commands, an abort (spec/03 R63, R67, R71, R74, spec/02 R57). -/
def advanceN : Nat → State → Nat → State
  | 0, s, _ => s
  | n + 1, s, q =>
    let Q := s.q q
    if Q.blk ≠ .ready ∨ Q.st = .frozen ∨ s.sorterUp q = false ∨ s.passive q ∨ decoderBusy s q then s
    else if progLen s q ≤ Q.pc then
      if Q.stack = [] then
        let s := endProgram s q
        pushEnds (s.q q).descs.length s q
      else advanceN n (doReturn s q) q
    else if Q.aborting then abortProgram s q
    else
      match cmdWords s q with
      | none =>
        let w := (Q.win.drop (Q.pc - Q.winAt)).head?
        if Q.winAt ≤ Q.pc ∧ (w.map fun x => decide (progLen s q < Q.pc + cmdLen x)).getD false then malformedCmd s q
        else startFetch s q
      | some ws =>
        match decodeWords (isR3 s q) ws with
        | none => malformedCmd s q
        | some (h, b) =>
          if checkEnv s q h b = false ∨ progLen s q < Q.pc + ws.length then malformedCmd s q
          else if condHolds s q h then s
          else advanceN n (s.setQ q { Q with pc := Q.pc + ws.length }) q

/-- The words a program may run through without a fetch are at most 8, so 32 rounds suffice between two fetches (log 7). -/
def advance (s : State) (q : Nat) : State := advanceN 32 s q

/-! ### Start and completion of commands -/

/-- Placed commands of a queue that have not completed (spec/04 R106). -/
def placedCount (s : State) (q : Nat) : Nat := (s.cmds.filter fun c => c.q == q && c.placed).length

/-- The command traps to sorter firmware (spec/03 R70, R103). -/
def traps (r3 : Bool) : Body → Bool
  | .tilepass .. | .collect .. | .snap .. | .pdef .. | .ppatch .. | .pfree .. | .xinval .. | .phreset .. => true
  | .launch .. | .dispatch .. => r3
  | _ => false

/-- A pending update holds trapped commands and collectives (spec/15 R422). -/
def updateHolds (s : State) : Bool :=
  s.f F.FW_UPDATE_STATE == 2 || (s.f F.FW_UPDATE_STATE == 3 && !([1, 2, 4].contains (s.f F.FW_UPDATE_DEFER)))

/-- A command that a page fault has set aside (spec/10 R286). -/
def isAside (c : Cmd) : Bool := match c.st with
  | .aside _ => true
  | _ => false

/-- A command of the queue is set aside (spec/10 R286). -/
def hasAside (s : State) (q : Nat) : Bool :=
  s.cmds.any fun c => c.q == q && isAside c

/-- Whether the ready command may start: fewer than 64 placed commands outstanding, a completion entry for its record, no command set aside, no update that holds it (spec/04 R106, spec/02 R50, spec/10 R286, spec/15 R422). -/
def mayStart (s : State) (q : Nat) (h : Hdr) (b : Body) : Bool :=
  placedCount s q < 64 && (h.rpt == 0 || cqFree s q) && !hasAside s q && !(traps (isR3 s q) b && updateHolds s)

/-- The state of a mirrored queue as QSTATE carries it; descriptors it has taken are to be scanned again (spec/12 R337, R344; log 31). -/
def qsnap (s : State) (q sq : Nat) : ERec :=
  let Q := s.q q
  .qstate q Q.st.code (Q.pend || Q.scanning || Q.descs != []) sq Q.cq.toNat Q.head.toNat Q.p Q.pc Q.pepoch.toNat Q.g Q.loc Q.stack

/-- Commands of the queue retire (spec/12 R339): the ACTIVE twin of a MIRROR pair. -/
def retires (s : State) (q : Nat) : Bool := s.mirrored q && s.sends && s.f F.ECH_STAT_MODE == 1

/-- Keeps the state of a queue before a command starts, for its checkpoint. -/
def snapBefore (s : State) (q sq : Nat) : State :=
  if retires s q then s.setQ q { s.q q with snaps := (s.q q).snaps ++ [(sq, (s.q q).ord, qsnap s q sq)] } else s

/-- Starts the ready command: its record entry is reserved, its operands are those of this moment, the program counter moves past it (spec/03 R63, R65, R68, spec/04 R104). Answers the command's identifier. -/
def startCmd (s : State) (q : Nat) (h : Hdr) (b : Body) : State × Nat :=
  let Q := s.q q
  let sq := ((curDesc s q).map (·.count)).getD 0
  let id := s.nid
  let (w, pcl) := atWord s q
  let placed := isPlaced b
  let c : Cmd := { id, q, sq, ord := Q.ord, word := w, ed := pcl, parcel := pcl.getD 0, rpt := h.rpt, rst := h.rst, r3 := isR3 s q,
                   body := b, start := s.time, placed, st := if placed then .held else .running, pepoch := Q.pepoch.toNat }
  let s := snapBefore s q sq
  let s := if h.rpt = 0 then s else reserve s q
  let s := s.setQ q { s.q q with pc := Q.pc + readyLen s q, ord := Q.ord + 1, blk := if placed then .ready else .cmd id }
  ({ s with cmds := s.cmds ++ [c], nid := s.nid + 1 }, id)

/-- A status that ends the program (spec/03 R102). -/
def endsProgram (c : Cmd) (st : Status) : Bool :=
  match st with
  | .done => false
  | .timeout => match c.body with
    | .waitge _ tcont _ _ _ _ => !tcont
    | _ => true
  | .aborted => match c.body with
    | .passage .. => c.abort != some .done
    | _ => true
  | _ => true

/-- BARRIER completes when every command the program started before it has completed (spec/03 R82). -/
def barrierDone (s : State) (c : Cmd) : Bool := !(s.cmds.any fun x => x.q == c.q && x.sq == c.sq && x.ord < c.ord)

/-- Hinge commands (spec/12 R341). -/
def isHinge : Body → Bool
  | .signal f _ _ => f != .max
  | .frank r _ _ => !r
  | .seal .. | .unseal .. | .pdef .. | .ppatch .. | .pfree .. | .enqueue .. => true
  | _ => false

/-- The mirror engine's share of a completion (spec/12 R339, R342). -/
def echoComplete (s : State) (c : Cmd) (st : Status) : State :=
  if s.mirrored c.q ∧ s.sends then
    let s := if isHinge c.body then
        s.mirror (.hinge c.q c.sq c.ord st.code c.sumV (match c.body with
          | .enqueue t _ => some (t, s.f F.QE_ENQ_PCOUNT t)
          | _ => none))
      else s
    if retires s c.q then
      State.satF (s.setQ c.q { s.q c.q with doneCmds := (s.q c.q).doneCmds ++ [(c.sq, c.ord, 0, s.ech.dirty)] }) F.ECH_STAT_UNRETIRED 0
    else s
  else s

/-- The balance of a partition in ns (spec/06 R173). -/
def bal (s : State) (p : Nat) : Int := mget 0 s.sch.bal p
def addBal (s : State) (p : Nat) (d : Int) : State := { s with sch := { s.sch with bal := mset s.sch.bal p (bal s p + d) } }

/-- A command admitted as a whole under SHARE has ended: the balance rises by its estimate and falls by the charges of its units (spec/06 R173). -/
def wholeSettle (s : State) (c : Cmd) : State :=
  if c.whole ∧ c.wshare then addBal s (s.qPart c.q) ((c.west : Int) - c.wcharge) else s

/-- The completion actions of a command after its signals: its record, the sums of its descriptor, the end of its program, the queue's stop (spec/01 R28, spec/03 R102, spec/04 R113, R114, spec/10 R275). -/
def completeOne (s : State) (c : Cmd) (st : Status) : State :=
  let q := c.q
  let time := if c.placed then c.time else s.time - c.start
  let s := wholeSettle (echoComplete (s.dropCmd c.id) c st) c
  let s := if (s.q q).st = .frozen then { s with cbuf := s.cbuf ++ [(q, (decide (c.rpt ≠ 0)).toNat)] } else s
  match descAt s q c.sq with
  | none => s
  | some d =>
    let s := if c.rpt = 0 then s else
      pushRec s q ⟨c.sq, c.ord, false, c.rpt == 2, recWords false st c.overrun c.restarted c.migrated c.ed c.pepoch (descTag d) c.sq c.word time c.energy c.bytes⟩
    let d := (descAt s q c.sq).getD d
    let d := { d with overrun := d.overrun || c.overrun, restarted := d.restarted || c.restarted, migrated := d.migrated || c.migrated,
                      time := min (d.time + time) (2 ^ 64 - 1), bytes := min (d.bytes + c.bytes) (2 ^ 40 - 1), energy := min (d.energy + c.energy) 0xFFFFFF }
    let ends := endsProgram c st
    let d := if ends then noteEnd d c.ord st c.word c.ed else d
    let s := setDesc s q d
    let s := if c.stopQ then setErr (stopQueue s q) q 7 none (c.sq % 2 ^ s.sqLog q) else s
    let s := if (s.q q).blk = .cmd c.id then s.setQ q { s.q q with blk := .ready } else s
    if ends ∧ d.st = 1 then endProgram s q else s

/-- Completes a command, then a BARRIER that waited for it, and lets the queue go on. -/
def completeNow (s : State) (id : Nat) (st : Status) : State :=
  match s.cmd? id with
  | none => s
  | some c =>
    let s := completeOne s c st
    let s := match s.cmds.find? (fun x => x.q == c.q && x.body == .barrier && barrierDone s x) with
      | some x => completeOne s x .done
      | none => s
    let s := pushEnds (s.q c.q).descs.length s c.q
    queueSettle (advance s c.q) c.q

/-- The output summary of a completed command (spec/12 R347). -/
def summary (c : Cmd) (st : Status) : List Byte :=
  bytesOf [BitVec.ofNat 64 (c.q % 4096 * 2 ^ 52 + c.sq % 2 ^ 32 * 2 ^ 20 + c.ord % 2 ^ 20),
    BitVec.ofNat 64 (st.code * 2 ^ 56 + c.sumP * 2 ^ 48 + c.sumR * 2 ^ 43), c.sumV, BitVec.ofNat 64 (c.sumPh * 2 ^ 43), c.sumPhV,
    BitVec.ofNat 64 c.bytes, BitVec.ofNat 64 c.crc, c.edig]

/-- Both twins execute the queue's commands and compare (spec/12 R331, R348). -/
def compares (s : State) (q : Nat) : Bool :=
  s.mirrored q && s.f F.ECH_STAT_MODE == 2 && s.f F.ECH_STAT_PAIR == 3 && (s.f F.ECH_STAT_ROLE == 3 || s.f F.ECH_STAT_ROLE == 4)

/-- Completes a command; in COMPARE its completion actions wait for the partner's digest (spec/12 R347, R348). -/
def completeCmd (s : State) (id : Nat) (st : Status) : State :=
  match s.cmd? id with
  | none => s
  | some c =>
    if compares s c.q ∧ c.st ≠ .compare then
      let dig := BitVec.ofNat 64 (crc64 (summary c st))
      let s := s.setCmd { c with st := .compare, status := st, aux := s.time }
      { s with ech := { s.ech with made := s.ech.made ++ [.digest c.q c.sq c.ord dig], mine := s.ech.mine ++ [(c.q, c.sq, c.ord, dig)] } }
    else completeNow s id st

/-- A fault record that names the command is still on its way (spec/13 R365). -/
def faultPending (s : State) (id : Nat) : Bool :=
  s.flt.pend.any (fun x => x.2.cmd == some id) || s.flt.recs.any (fun x => x.cmd == some id)

/-- The statuses of a gallery access that a command may report (spec/03 R101). -/
def reportsGal : Body → List Status
  | .ld .. | .st .. => [.chamberDark, .windowClosed]
  | .launch .. | .dispatch .. | .tilepass .. | .passage .. => [.chamberDark, .sealTimeout]
  | .copy .. | .fill .. | .dma .. => [.chamberDark, .windowClosed, .sealTimeout]
  | .collect .. => [.windowClosed]
  | _ => []

/-- The status a command reports: a refusal of the gallery that is not listed for it is reported as UNCORRECTED (spec/03 R101; log 93). -/
def Body.report (b : Body) (st : Status) : Status :=
  match st with
  | .chamberDark | .windowClosed | .sealTimeout => if (reportsGal b).contains st then st else .uncorrected
  | _ => st

/-- Ends a command with a status: at once, or when the fate of its fault records is decided (spec/13 R365). -/
def endCmd (s : State) (id : Nat) (st : Status) : State :=
  let st := ((s.cmd? id).map fun c => c.body.report st).getD st
  if st ≠ .done ∧ faultPending s id then
    match s.cmd? id with
    | some c => s.setCmd { c with st := .finishing, status := st }
    | none => s
  else completeCmd s id st

/-- The place of a command for a fault record. -/
def Cmd.at (c : Cmd) : FAt := ⟨c.q, c.sq, c.word, c.ed⟩

/-- The status of an access whose translation failed (spec/10 R274, R275). -/
def XFail.status (x : XFail) : Status := if x.bad then .uncorrected else .xlateFault

/-- The detail of a translation failure of a command's access (spec/10 R289). -/
def cmdDetail (c : Cmd) (o : Op) (x : XFail) : List W64 :=
  xlateDetail x.va c.at x.epoch (o.idn.ctx.getD 0) x.kind o.acc c.rst o.req x.level

/-- The CONTAINED fault of a translation failure that is no page fault of a RESTARTABLE command; page faults are counted (spec/10 R275, R286). -/
def raiseXfail (s : State) (c : Cmd) (o : Op) (x : XFail) : State :=
  (if x.pf then s.incF F.XLT_STAT_PFAULTS 0 else s).raise
    ⟨5, 1, 1, true, false, o.req, some (s.qPart c.q), x.status.code, cmdDetail c o x, some c.id, none⟩

/-- A translation failure of a command's access: page fault or stop (spec/10 R275, R286, R289). -/
def cmdXfail (s : State) (c : Cmd) (o : Op) (x : XFail) : State :=
  if x.pf ∧ c.rst then
    let s := (s.setCmd { c with st := .aside s.time, det := cmdDetail c o x }).incF F.XLT_STAT_PFAULTS 0
    s.raise ⟨5, 0x10, 3, true, false, o.req, some (s.qPart c.q), 0, cmdDetail c o x, some c.id, none⟩
  else endCmd (raiseXfail (s.setCmd { c with stopQ := true }) c o x) c.id x.status

/-- Ends a command with the outcome of a complete access. -/
def endByOp (s : State) (id : Nat) (o : Op) : State :=
  match s.cmd? id with
  | none => s
  | some c =>
    match o.xfail with
    | some x => cmdXfail s c o x
    | none =>
      -- a refusal at another chip stops the queue as kind ROUTE does (spec/11 R308)
      let rem := o.parts.any fun p => p.done == some .xlateFault && (match p.tgt with | .chip .. => true | _ => false)
      endCmd (if rem then s.setCmd { c with stopQ := true } else s) id o.status

end Sys2Proof.Machine
end

