-- ==== Sys2Proof/Machine/PhOps.lean ====
section
/-! DEFINITION. Operations of the pigeonhole unit (spec/05): rows, signals, waiters, watches, franking waits. -/

namespace Sys2Proof.Machine

/-! ### Rows -/

/-- The row of a pigeonhole. -/
def State.row (s : State) (n : Nat) : PhRow := mget ⟨0, .normal, none, []⟩ s.ph n

def State.setRow (s : State) (n : Nat) (r : PhRow) : State := { s with ph := mset s.ph n r }

/-- Indices at which a register field holds a value that is not 0. -/
def State.setIdx (s : State) (x : Fld) : List Nat :=
  s.flds.filterMap fun e => if e.1 / 65536 = x.n ∧ e.2 ≠ 0 then some (e.1 % 65536) else none

/-- Enabled PH_LINK entries of a direction that name a pigeonhole (spec/05 R137, R153). -/
def linkEntries (s : State) (dir n : Nat) : List Nat :=
  (s.setIdx F.PH_LINK_EN).filter fun i => s.f F.PH_LINK_DIR i == dir && s.f F.PH_LINK_LOCAL i == n

/-- The partition whose allotment holds a pigeonhole. -/
def phPart (s : State) (n : Nat) : Option Nat := (s.setIdx F.PH_PART_BASE_EN).find? fun p => inAllot s p n

/-! ### Waiters -/

/-- The waiters on a target, in list order. -/
def waitersOn (s : State) (t : WTgt) : List Waiter := s.waits.filter (·.tgt == t)

/-- An access that a WAITGE makes before it has joined a watch (spec/05 R147). -/
def forFence (cmd : Nat) : Purpose → Bool
  | .watchXl c | .fenceRead c => c == cmd
  | _ => false

/-- A waiter leaves; what is being translated or read for its wait is of no more use. -/
def dropWaiter (s : State) (w : Waiter) : State :=
  { s with waits := s.waits.filter (·.ent != w.ent),
           ops := match w.tgt, w.who with
             | .fence .., .queue _ c => s.ops.filter fun o => !forFence c o.pur
             | _, _ => s.ops }

/-- Ends the WAITGE of a command: its predicate, then its completion (spec/03 R79). -/
def endWait (s : State) (cmd : Nat) (st : Status) : State :=
  match s.cmd? cmd with
  | none => s
  | some c =>
    let s := match c.body with
      | .waitge _ _ (some p) _ _ _ =>
        if st = .done then (s.setP c.q p true).setCmd { c with sumP := p * 2 + 1 }
        else if st = .timeout then (s.setP c.q p false).setCmd { c with sumP := p * 2 } else s
      | _ => s
    endCmd s cmd st

/-- Takes a waiter off its list and ends its wait with a status: WAITOK and WAITERR for an engine (spec/05 R139, R144, spec/18 R486). -/
def wake (s : State) (w : Waiter) (st : Status) : State :=
  let s := dropWaiter s w
  match w.who with
  | .queue _ c => endWait s c st
  | .relay _ => s
  | .engine k t => s.emit (.eCtl k (BitVec.ofNat 64 ((if st = .done then 0x83 else 0x85) * 2 ^ 56 + t % 256 * 2 ^ 48)))

/-- Ends the waits of every waiter on a target with one status. -/
def wakeAll (s : State) (t : WTgt) (st : Status) : State := (waitersOn s t).foldl (fun s w => wake s w st) s

/-- Wakes, in list order, every waiter on a target whose threshold a value meets (spec/05 R139). -/
def wakeMet (s : State) (t : WTgt) (v : W64) : State :=
  ((waitersOn s t).filter fun w => w.thr ≤ v).foldl (fun s w => wake s w .done) s

/-- Entries of the engine pool a partition holds (spec/05 R138). -/
def wUsed (s : State) (p : Nat) : Nat := (s.waits.filter fun w => w.part == p && 8192 ≤ w.ent).length

/-- The first entry of the engine pool not in use, from a place the spec leaves open (log 3). -/
def poolEntry (used : List Nat) : Nat → Nat → Nat
  | 0, k => 8192 + k % 253952
  | n + 1, k => if used.contains (8192 + k % 253952) then poolEntry used n (k + 1) else 8192 + k % 253952

/-! ### Errors of a row (spec/05 R140, spec/13 R355) -/

/-- A CORRECTED or CONTAINED fault of a stored word with its positions (spec/13 R362). -/
def eccFault (grp cause cls unit : Nat) (addr req : Nat) (pos : List Nat) : Flt :=
  ⟨grp, cause, cls, false, true, unit, none, 0,
    commonDetail addr none unit req (min 3 pos.length) (if pos.length < 3 then pos.getD 0 127 else 127) (if pos.length < 3 then pos.getD 1 127 else 127),
    none, none⟩

/-- Reads a row's words: corrects one or two errors, or poisons the row and wakes its waiters with UNCORRECTED. -/
def phTouch (s : State) (n : Nat) : State :=
  let r := s.row n
  if r.err = [] then s
  else if r.err.length ≤ 2 then (s.setRow n { r with err := [] }).raise (eccFault 2 1 0 (n % 16) n 0 r.err)
  else
    let s := (s.setRow n { r with err := [], st := .poisoned }).raise (eccFault 2 2 1 (n % 16) n 0 r.err)
    wakeAll s (.ph n) .uncorrected

/-- Positions that an armed injection inverts: 127 none, 79 to 126 act as 127, a position named twice twice (spec/13 R369). -/
def injPos (s : State) : List Nat :=
  let l := [s.f F.FLT_INJ_POS0, s.f F.FLT_INJ_POS1, s.f F.FLT_INJ_POS2].filter (· < 79)
  l.filter (fun p => (l.filter (· == p)).length % 2 == 1) |>.foldr (fun p r => if r.contains p then r else p :: r) []

/-- An injection is armed for word `w` of the store `target`: 0 gallery, 1 pigeonhole table, 2 vault. -/
def injHits (s : State) (target w : Nat) : Bool := s.fb F.FLT_INJ_ARM && s.f F.FLT_INJ_TARGET == target && s.f F.FLT_INJ_ADDR_WORD == w

/-- The injection has been stored (spec/13 R369). -/
def injDone (s : State) : State := (s.setF F.FLT_INJ_ARM 0 0).setF F.FLT_INJ_DONE 0 1

/-- A write of a row's VALUE (word 2n) or of its word 1 stores an armed injection. -/
def phInj (s : State) (n : Nat) (value : Bool) : State :=
  if (value && injHits s 1 (2 * n)) || injHits s 1 (2 * n + 1) then
    injDone (s.setRow n { s.row n with err := (s.row n).err ++ injPos s })
  else s

/-! ### Signals -/

/-- What became of a signal (spec/03 R80, spec/05 R140, R142). -/
inductive SigRes where
  | applied | backward | poisoned | discarded
  deriving DecidableEq, Repr

/-- The status a SIGNAL takes from it. -/
def SigRes.status : SigRes → Status
  | .applied => .done
  | .backward => .fenceBackward
  | .poisoned => .uncorrected
  | .discarded => .partitionDisabled

/-- The value a signal form makes of an old value; none for FENCE_BACKWARD (spec/03 R80). -/
def SigForm.apply (f : SigForm) (old v : W64) : Option W64 :=
  match f with
  | .set => if v < old then none else some v
  | .add => if 0xFFFFFFFFFFFFFFFF#64 - old < v then none else some (old + v)
  | .max => some (if old < v then v else old)

/-- Records a new value of a pigeonhole: mirror, link signals, waiters (spec/12 R337, spec/05 R139, R153, R154). -/
def phChanged (s : State) (n : Nat) (v : W64) (changed links : Bool) : State :=
  let s := if (phPart s n).any (s.mirPart ·) then s.mirror (.phval n v) else s
  let s := if changed && links then
      State.pumpL ((linkEntries s 0 n).foldl (fun s i => { s with linkOut := mset s.linkOut i v }) s)
    else s
  wakeMet s (.ph n) v

/-- Applies a signal to a pigeonhole, whole (spec/03 R80, spec/05 R143). `lastq` is the queue of a SIGNAL command. -/
def phSignal (s : State) (n : Nat) (f : SigForm) (v : W64) (lastq : Option Nat) : State × SigRes :=
  let s := phTouch s n
  let r := s.row n
  match r.st with
  | .scrubbing => (s, .discarded)
  | .poisoned => (s, .poisoned)
  | .normal =>
    match f.apply r.value v with
    | none => (s, .backward)
    | some v' =>
      let changed := v' != r.value
      let s := if changed then phInj (s.setRow n { r with value := v', lastq }) n true else s
      -- an ADD of 0 is recorded too (spec/03 R80)
      ((if changed || f == .add then phChanged s n v' changed true else wakeMet s (.ph n) v'), .applied)

/-- PHRESET (spec/03 R100, spec/05 R140, R146, R153). -/
def phReset (s : State) (n : Nat) (v : W64) : State :=
  let s := phTouch s n
  let s := if (s.row n).st = .poisoned then wakeAll s (.ph n) .uncorrected else s
  let s := phInj (s.setRow n ⟨v, .normal, none, []⟩) n true
  phChanged s n v true false

/-- The first half of a row's scrub: STATE becomes SCRUBBING and every waiter is completed with PARTITION_DISABLED (spec/05 R142). -/
def phScrubMark (s : State) (n : Nat) : State :=
  wakeAll (phInj (s.setRow n { s.row n with st := .scrubbing, err := [] }) n false) (.ph n) .partitionDisabled

/-- The second half: VALUE 0, word 1 0, STATE NORMAL; a VALUE that changes is sent to the OUT entries (spec/05 R142, R153). -/
def phScrubWrite (s : State) (n : Nat) : State :=
  let v := (s.row n).value
  let s := phInj { s with ph := mdel s.ph n } n true
  if v = 0 then s else State.pumpL ((linkEntries s 0 n).foldl (fun s i => { s with linkOut := mset s.linkOut i 0 }) s)

/-! ### Watches (spec/05 R147, R148) -/

def findWatch (s : State) (part pa : Nat) : Option Watch := s.watches.find? fun w => w.part == part && w.pa == pa

def setWatch (s : State) (w : Watch) : State := { s with watches := s.watches.map fun x => if x.id = w.id then w else x }

/-- A watch whose last waiter has left is freed. -/
def freeWatches (s : State) : State :=
  { s with watches := s.watches.filter fun w => s.waits.any fun x => x.tgt == .watch w.id }

/-- The value a watch's read returned (spec/05 R148): waiters that it meets are woken; the letterbook records it in FULL. -/
def watchValue (s : State) (w : Watch) (v : W64) : State :=
  let s := s.note (some w.part) true 0x11 none w.pa v.toNat
  freeWatches (wakeMet s (.watch w.id) v)

/-- Reads the fence of a watch, or notes that a further read is due; in a replay run with INPUTS the recorded value stands for the read (spec/05 R148, spec/17 R462). -/
def watchRead (s : State) (w : Watch) : State :=
  if w.reading then setWatch s { w with again := true }
  else
    let ctx := ((waitersOn s (.watch w.id)).head?.map (·.ctx)).getD 0
    let s := setWatch s { w with reading := true, again := false, lastRead := s.time }
    match (if s.fb F.OBS_RP_CFG_INPUTS then s.verdict w.part none (.watch w.pa) else .free) with
    | .must r => watchValue (setWatch (s.applied r) { w with reading := false, again := false, lastRead := s.time }) w (r.getD 3 0)
    | _ => s.startOp (mkOp (.watchRead w.id) ⟨w.part, some ctx, false⟩ 112 (.spans [⟨0, 8, w.pa, w.tgt⟩]) 0 8 false [])

/-- A waiter that has moved stands before those of the same move that were behind it (spec/05 R151). -/
def movedAfter (x y : Waiter) : Bool :=
  match x.mv, y.mv with
  | some (b, i, _), some (b', j, moved) => b == b' && decide (i < j) && moved
  | _, _ => false

/-- A waiter joins the tail of a list; one that moves keeps its order among those that moved with it (spec/05 R139, R151). -/
def addWaiter (s : State) (x : Waiter) : State :=
  { s with waits := s.waits.takeWhile (fun y => !movedAfter x y) ++ [x] ++ s.waits.dropWhile fun y => !movedAfter x y }

/-- A waiter joins the watch of a word, or waits for a free watch, since `at_`; a new watch takes in everyone who waits for one on the word. With `read` the fence is read (spec/05 R147, R151). -/
def joinWatch (s : State) (x : Waiter) (part pa : Nat) (tgt : Tgt) (read : Bool) (at_ : Nat) : State :=
  match findWatch s part pa with
  | some w =>
    let s := addWaiter s { x with tgt := .watch w.id }
    if read then watchRead s w else s
  | none =>
    if s.watches.length < 4096 then
      let w : Watch := ⟨s.nid, part, pa, tgt, false, false, at_⟩
      let s := addWaiter s { x with tgt := .nowatch part pa tgt }
      let s := State.bump { s with watches := s.watches ++ [w],
                                   waits := s.waits.map fun (y : Waiter) => if y.tgt = .nowatch part pa tgt then { y with tgt := .watch w.id } else y }
      if read then watchRead s w else s
    else addWaiter s { x with tgt := .nowatch part pa tgt }

/-- The waiter of a WAITGE whose memory fence is being translated or read for the first time. -/
def fenceWaiter (s : State) (cmd : Nat) : Option Waiter :=
  s.waits.find? fun w => match w.who, w.tgt with
    | .queue _ c, .fence .. => c == cmd
    | _, _ => false

/-- The first read of a memory fence has returned: the wait ends, or the WAITGE joins a watch (spec/05 R147, R148). -/
def fenceValue (s : State) (w : Waiter) (again : Bool) (at_ pa : Nat) (tgt : Tgt) (v : W64) : State :=
  let s := s.note (some w.part) true 0x11 none pa v.toNat
  if w.thr ≤ v then wake s w .done else joinWatch (dropWaiter s w) w w.part pa tgt again at_

/-- Reads a memory fence for the first time; in a replay run with INPUTS the recorded value stands for the read (spec/05 R147, spec/17 R462). -/
def fenceRead (s : State) (cmd : Nat) (w : Waiter) (pa : Nat) (tgt : Tgt) : State :=
  match (if s.fb F.OBS_RP_CFG_INPUTS then s.verdict w.part none (.watch pa) else .free) with
  | .must r => fenceValue (s.applied r) w false s.time pa tgt (r.getD 3 0)
  | _ => State.startOp { s with waits := s.waits.map fun x => if x.ent = w.ent then { w with tgt := .fence false s.time } else x }
      (mkOp (.fenceRead cmd) ⟨w.part, some w.ctx, false⟩ 112 (.spans [⟨0, 8, pa, tgt⟩]) 0 8 false [])

/-- The first read of a memory fence has ended (spec/05 R147, R148). -/
def fenceReadDone (s : State) (cmd : Nat) (o : Op) : State :=
  match fenceWaiter s cmd, o.space with
  | some w, .spans (sp :: _) =>
    if o.status ≠ .done then wake s w .uncorrected
    else match w.tgt with
      | .fence again t => fenceValue s w again t sp.pa sp.tgt ((wordsOf 1 o.data).headD 0)
      | _ => s
  | _, _ => s

/-- A first read in flight that may miss a write: a further read is due (spec/05 R148, R159). -/
def fenceAgain (s : State) (hit : Waiter → Span → Bool) : State :=
  { s with waits := s.waits.map fun (w : Waiter) => match w.tgt, w.who with
      | .fence _ t, .queue _ c =>
        if s.ops.any fun o => o.pur == .fenceRead c && (match o.space with
            | .spans (sp :: _) => hit w sp
            | _ => false) then { w with tgt := .fence true t } else w
      | _, _ => w }

/-- A watch's read has ended (spec/05 R148). -/
def watchDone (s : State) (id : Nat) (o : Op) : State :=
  match s.watches.find? (·.id == id) with
  | none => s
  | some w =>
    let s := setWatch s { w with reading := false, again := false }
    if o.status ≠ .done then freeWatches (wakeAll s (.watch id) .uncorrected)
    else
      let s := watchValue s w ((wordsOf 1 o.data).headD 0)
      match s.watches.find? (·.id == id) with
      | some w' => if w.again then watchRead s w' else s
      | none => s

/-- A write of the fabric has been answered: watches it overlaps are read again (spec/05 R148). -/
def watchesHit (s : State) (pa n : Nat) : State :=
  (s.watches.filter fun w => overlaps w.pa 8 pa n).foldl (fun s w => watchRead s w) (fenceAgain s fun _ sp => overlaps sp.pa 8 pa n)

/-- Re-reads every watch of a partition: its fence doorbell (spec/05 R150). -/
def fenceDoorbell (s : State) (p : Nat) : State := (s.watches.filter (·.part == p)).foldl watchRead (fenceAgain s fun w _ => w.part == p)

/-- The poll interval of a partition in µs (spec/05 R160). -/
def pollInterval (s : State) (p : Nat) : Nat := min 1000 (s.f F.PH_PW_POLL_INTERVAL p)

/-! ### WAITGE -/

/-- The waiter entry of a queue's WAITGE (spec/05 R138, R145). -/
def queueWaiter (s : State) (c : Cmd) (va : Nat) (thr : W64) (t : WTgt) : Waiter :=
  let timeout := match c.body with
    | .waitge _ _ _ t _ _ => t
    | _ => 0
  ⟨c.q, t, .queue c.q c.id, s.qPart c.q, s.qCtx c.q, va, thr, if timeout = 0 then none else some (c.start + timeout * 1000), c.start, none⟩

/-- The check-and-join of a WAITGE on a pigeonhole (spec/05 R140, R142, R143). -/
def waitPh (s : State) (c : Cmd) (n : Nat) (thr : W64) : State :=
  let s := phTouch s n
  match (s.row n).st with
  | .scrubbing => endWait s c.id .partitionDisabled
  | .poisoned => endWait s c.id .uncorrected
  | .normal =>
    if thr ≤ (s.row n).value then endWait s c.id .done
    else phInj { s with waits := s.waits ++ [queueWaiter s c n thr (.ph n)] } n false

/-- The value of a franking counter. -/
def State.frank (s : State) (n : Nat) : W64 := mget 0 s.gal.frank n

/-- The check-and-join of a WAITGE on a franking counter (spec/05 R152). -/
def waitCounter (s : State) (c : Cmd) (n : Nat) (thr : W64) : State :=
  if thr ≤ s.frank n then endWait s c.id .done
  else { s with waits := s.waits ++ [queueWaiter s c n thr (.counter n)] }

/-- The partition that holds a franking counter. -/
def frankPart (s : State) (n : Nat) : Option Nat := (s.setIdx F.GAL_FRANK_PART_EN).find? fun p => holdsCounter s p n

/-- Sets a franking counter and tells the mirror engine (spec/05 R152, spec/12 R337). -/
def setFrank (s : State) (n : Nat) (v : W64) : State :=
  let s := { s with gal := { s.gal with frank := mset s.gal.frank n v } }
  if (frankPart s n).any (s.mirPart ·) then s.mirror (.fkval n v) else s

/-- A WAITGE on a memory fence starts: it waits, its timeout running, while its target is translated (spec/05 R145, R147). -/
def waitFence (s : State) (c : Cmd) (va : Nat) (thr : W64) : State :=
  State.startOp (addWaiter s (queueWaiter s c va thr (.fence false s.time)))
    { mkOp (.watchXl c.id) (s.qIdent c.q) 112 .va va 8 false [] with xlOnly := true, memOnly := true }

/-- The translation of a memory fence has ended: the fence is read (spec/05 R147). -/
def watchXlDone (s : State) (id : Nat) (o : Op) : State :=
  match s.cmd? id, fenceWaiter s id with
  | some c, some w =>
    match o.xfail, o.spans with
    | some x, _ => cmdXfail (dropWaiter s w) c o x
    | none, sp :: _ => fenceRead s id w sp.pa sp.tgt
    | none, [] => s
  | _, _ => s

/-- Abandons the wait of a command, whatever it waits on (spec/02 R57). -/
def abandonWait (s : State) (id : Nat) : State :=
  freeWatches { s with ops := s.ops.filter (fun o => !forFence id o.pur), waits := s.waits.filter fun w => match w.who with
    | .queue _ c => c != id
    | _ => true }

end Sys2Proof.Machine
end

