-- ==== Sys2Proof/Machine/GalleryOps.lean ====
section
/-! DEFINITION. Operations of the gallery (spec/07): its bytes, seal bits and stored errors, the checks at hall entry, slots, gather buffers, ownership, seal regions, drop windows, chamber power. -/

namespace Sys2Proof.Machine

/-! ### Bytes -/

/-- The byte of a canonical cell list at an address; unlisted bytes are 0 (spec/07 R205: a chamber comes to LIT holding zeros). -/
def cellGet : List Host.Cell → Nat → Byte
  | [], _ => 0
  | (a, b) :: r, k => if a = k then b else if k < a then 0 else cellGet r k

/-- Writes a byte of a cell list, keeping it rising and free of zeros. -/
def cellSet : List Host.Cell → Nat → Byte → List Host.Cell
  | [], k, v => if v = 0 then [] else [(k, v)]
  | (a, b) :: r, k, v =>
    if a = k then (if v = 0 then r else (k, v) :: r)
    else if k < a then (if v = 0 then (a, b) :: r else (k, v) :: (a, b) :: r)
    else (a, b) :: cellSet r k v

/-- Addresses strictly rising from above `lo`, and no cell that holds 0. -/
def cellsFrom (lo : Option Nat) : List Host.Cell → Bool
  | [] => true
  | (a, b) :: r => (match lo with
      | some x => decide (x < a)
      | none => true) && b != 0 && cellsFrom (some a) r

/-- The canonical form of the gallery's bytes. -/
abbrev Memory.wf (l : List Host.Cell) : Prop := cellsFrom none l = true

/-- Bytes of the gallery. -/
def State.galRead (s : State) (a n : Nat) : List Byte := (List.range n).map fun i => cellGet s.gal.cells (a + i)

/-- Stores bytes of the gallery as they are. -/
def State.galStore (s : State) (w : List (Nat × Byte)) : State :=
  { s with gal := { s.gal with cells := w.foldl (fun c e => cellSet c e.1 e.2) s.gal.cells } }

/-- Bytes with their addresses. -/
def addrBytes (a : Nat) (l : List Byte) : List (Nat × Byte) := (List.range l.length).zip l |>.map fun e => (a + e.1, e.2)

/-- The 64-bit words (by word address) that bytes at some addresses lie in, without repeats. -/
def wordsHit : List Nat → List Nat
  | [] => []
  | a :: r => (a / 8) :: (wordsHit r).filter (· != a / 8)

/-- The chip a link request comes from. -/
def hreqChip (s : State) (r : HReq) : Option Nat :=
  match r.src with
  | some c => some c
  | none => match (s.op? r.op).map Op.pur with
    | some (.linkRead _ c _) => some c
    | some (.linkWrite _ c _) => some c
    | _ => none


/-- Whom a fault of an access concerns: its partition, and the command whose accesses `ops` are, when all are of one (spec/13 R361). -/
abbrev Blame := Option Nat × Option Nat

def blame (s : State) (r : HReq) (ops : List Nat) : Blame :=
  (if r.idn.priv ∨ (hreqChip s r).isSome then none else some r.idn.part,
   match (ops.map fun o => (s.op? o).bind fun x => purposeCmd x.pur).eraseDups with
   | [c] => c
   | _ => none)

/-! ### Errors of stored words (spec/07 R203, spec/13 R362) -/

/-- ECC_CORR (cause 1) and ECC_UNCORR (cause 2) of a word of a hall: an uncorrectable one names the command it gives UNCORRECTED. -/
def galEccFault (s : State) (b : Blame) (cause cls h req word n p0 p1 : Nat) : Flt :=
  let cmd := if cls = 0 then none else b.2
  ⟨3, cause, cls, false, true, h, b.1, if cmd.isSome then Status.uncorrected.code else 0,
    commonDetail (8 * word) ((cmd.bind s.cmd?).map Cmd.at) h req n p0 p1, cmd, none⟩

/-- Checks words as a read does; the Bool says that one is uncorrectable. A corrected word waits for its write-back. -/
def eccRead (s : State) (b : Blame) (h req : Nat) (words : List Nat) : State × Bool :=
  words.foldl (init := (s, false)) fun (s, bad) w =>
    match mget (0, 127, 127) s.gal.err w with
    | (0, _, _) => (s, bad)
    | (n, p0, p1) =>
      if n ≤ 2 then
        let s := s.raise (galEccFault s b 1 0 h req w n p0 p1)
        let H := s.hall h
        (if H.backs.contains w then s else s.setHall h { H with backs := H.backs ++ [w] }, bad)
      else (s.raise (galEccFault s b 2 1 h req w 3 127 127), true)

def clearErr (s : State) (w : Nat) : State := { s with gal := { s.gal with err := mdel s.gal.err w } }

/-- A tile line of a mirrored region is marked dirty when it is written (spec/12 R337). -/
def markDirty (s : State) (line : Nat) : State :=
  if s.sends ∧ ((List.range 16).any fun r => s.fb F.ECH_GAL_EN r && decide (s.f F.ECH_GAL_BASE r * 128 ≤ line)
      && decide (line < (s.f F.ECH_GAL_BASE r + s.f F.ECH_GAL_SIZE r) * 128)) ∧ s.ech.dirty.contains line = false then
    { s with ech := { s.ech with dirty := s.ech.dirty ++ [line] } }
  else s

/-- An armed injection for one of the words written (spec/13 R369). -/
def galInj (s : State) (words : List Nat) : State :=
  match words.find? (injHits s 0) with
  | some w =>
    let l := injPos s
    let s := if l = [] then s else { s with gal := { s.gal with err := mset s.gal.err w (l.length, l.getD 0 127, l.getD 1 127) } }
    injDone s
  | none => s

/-- Writes bytes with the merge of partial words; the Bool says that a word was uncorrectable and kept (spec/07 R203). -/
def galPut (s : State) (b : Blame) (h req : Nat) (w : List (Nat × Byte)) : State × Bool :=
  let (s, bad) := (wordsHit (w.map (·.1))).foldl (init := (s, ([] : List Nat))) fun (s, bad) x =>
    match mget (0, 127, 127) s.gal.err x with
    | (0, _, _) => (s, bad)
    | (n, p0, p1) =>
      if (w.filter fun e => e.1 / 8 == x).length ≥ 8 then (clearErr s x, bad)
      else if n ≤ 2 then ((clearErr s x).raise (galEccFault s b 1 0 h req x n p0 p1), bad)
      else (s.raise (galEccFault s b 2 1 h req x 3 127 127), x :: bad)
  let H := s.hall h
  -- a write-back of a word that is overwritten is discarded (spec/07 R207)
  let s := s.setHall h { H with backs := H.backs.filter fun x => bad.contains x || !((w.map (·.1 / 8)).contains x) }
  let s := s.galStore (w.filter fun e => !bad.contains (e.1 / 8))
  let s := galInj s ((wordsHit (w.map (·.1))).filter fun x => !bad.contains x)
  let s := (wordsHit (w.map fun e => e.1 / 64)).foldl (fun s l => markDirty s l) s
  (s, bad != [])

/-! ### What a request touches -/

/-- Pieces of a request: place in its data, address, length; a mask that is all 0 leaves none (spec/07 R182). -/
def HReq.pieces (halls : Nat) (r : HReq) : List (Nat × Nat × Nat) :=
  if r.col then (List.range 16).filterMap fun i =>
    if r.mask = 0 ∨ r.mask.testBit i then some (32 * i, r.addr + i * halls * 512, 32) else none
  else if r.mask = 0 then [(0, r.addr, r.len)]
  else (List.range 16).filterMap fun i => if r.mask.testBit i then some (32 * i, r.addr / 512 * 512 + 32 * i, 32) else none

/-- The line of a gallery address in its hall. -/
def lineIn (halls a : Nat) : Nat := a / 512 / halls

/-- State of chamber `c` of a hall (spec/07 R204): 0 LIT, 1 DIM, 2 DARK, 3 CLOSING, 4 OPENING, 5 ZEROING. -/
def State.chamber (s : State) (h c : Nat) : Nat := s.f F.GAL_CPWR_STAT_STATES h / 8 ^ c % 8

def State.setChamber (s : State) (h c v : Nat) : State :=
  let x := s.f F.GAL_CPWR_STAT_STATES h
  s.setF F.GAL_CPWR_STAT_STATES h (x - x / 8 ^ c % 8 * 8 ^ c + v * 8 ^ c)

/-- Chambers that hold blocks of a piece (spec/07 R181). -/
def chambersOf (halls : Nat) (p : Nat × Nat × Nat) : List Nat :=
  (List.range ((p.2.1 % 512 + p.2.2 + 31) / 32 - p.2.1 % 512 / 32)).map fun i => (lineIn halls p.2.1 + p.2.1 % 512 / 32 + i) % 16

/-! ### Checks at hall entry (spec/07 R508) -/

/-- The chips of the members of the collective whose DST a courier's request writes (spec/11 R324). -/
def collChips (s : State) (r : HReq) : Option (List Nat) :=
  match (s.op? r.op).map Op.pur with
  | some (.coll c 1) | some (.coll c 2) => (s.colls.find? (·.cmd == c)).map fun v => (List.range (s.f F.FAB_GRP_NRANK v.g)).map fun i => (memberAt s v.g i).1
  | _ => none

/-- The lowest drop window that admits a write (spec/07 R200; log 20: one window admits it); a write of a collective's DST needs one that covers every member chip (spec/11 R324). -/
def dropAdmits (s : State) (h : Nat) (r : HReq) (chip : Option Nat) : Option Nat :=
  if r.wr = false then none
  else (s.hall h).drops.find? fun w =>
    ((collChips s r).getD []).all (s.f F.GAL_PW_DROP_CTL_SRCCHIPS w).testBit &&
    let base := s.f F.GAL_PW_DROP_RANGE_BASE w * 512
    (r.pieces s.b.halls).all (fun p => decide (base ≤ p.2.1) && decide (p.2.1 + p.2.2 ≤ base + s.f F.GAL_PW_DROP_RANGE_LINES w * 512))
      && (match chip with
        | some c => (s.f F.GAL_PW_DROP_CTL_SRCCHIPS w).testBit c
        | none => decide (96 ≤ r.req) && decide (r.req < 112) && s.fb F.GAL_PW_DROP_CTL_COURIER w)

/-- The ownership and context check of R184 for an identity at an address. -/
def ownerAdmits (s : State) (idn : Ident) (a : Nat) : Bool :=
  let o := ownerOf s (a / 65536)
  o.valid && o.part == idn.part && (!o.ctxen || idn.ctx == some o.ctx)

/-- The armed seal region whose modes a line takes (spec/07 R194). -/
def regionOf (s : State) (a : Nat) : Option Nat :=
  (List.range 64).find? fun r => s.fb F.GAL_SEAL_MODE_ARMED r && decide (s.f F.GAL_SEAL_BASE_BASE r ≤ a)
    && decide (a < s.f F.GAL_SEAL_BASE_BASE r + s.f F.GAL_SEAL_SIZE_SIZE r)

/-- The queue whose program a request serves. -/
def hreqQueue (s : State) (r : HReq) : Option Nat :=
  match (s.op? r.op).map Op.pur with
  | some (.engGal k utag _) => (s.units.find? fun u => u.place == .port k && u.id % 65536 == utag).map (·.q)
  | some (.feeder n _ _) => some (s.f F.STN_PSTAT_QUEUE n)
  | some (.emitter n _) => some (s.f F.STN_PSTAT_QUEUE n)
  | some (.fetch q) | some (.argBlock q) => some q
  | some p => ((purposeCmd p).bind s.cmd?).map (·.q)
  | none => none

/-- A mirrored region of a paired STANDBY or FOLLOWER twin takes only requester 122; a FOLLOWER's mirrored queues are let in (spec/12 R337). -/
def echoRefuses (s : State) (r : HReq) : Bool :=
  s.f F.ECH_STAT_PAIR == 3 && (s.f F.ECH_STAT_ROLE == 2 || s.f F.ECH_STAT_ROLE == 4) && r.req != 122
    && (r.pieces s.b.halls).any (fun p => (List.range 16).any fun g => s.fb F.ECH_GAL_EN g
      && overlaps p.2.1 p.2.2 (s.f F.ECH_GAL_BASE g * 65536) (s.f F.ECH_GAL_SIZE g * 65536))
    && !(s.f F.ECH_STAT_ROLE == 4 && (hreqQueue s r).any s.mirrored)

/-- Checks 1 to 4 at hall entry; answers a refusal, and the drop window that admits the write. A request whose mask is all 0 is judged by the block it names first (log 105). -/
def entryCheck (s : State) (h : Nat) (r : HReq) : Option Status × Option Nat :=
  let ps := r.pieces s.b.halls
  let named := if ps = [] then [(0, r.addr, 0)] else ps
  let chip := hreqChip s r
  if s.b.galleryBytes ≤ r.addr ∨ (r.col ∧ 16383 < lineIn s.b.halls r.addr + 15) ∨ ps.any (fun p => decide (s.b.galleryBytes < p.2.1 + p.2.2)) then
    (some .xlateFault, none)
  else if named.any (fun p => (s.hall h).changing.contains (p.2.1 / 65536)) then (some .xlateFault, none)
  else if echoRefuses s r then (some .xlateFault, none)
  else
    let w := dropAdmits s h r chip
    let free := r.idn.priv || r.req == 120 || r.req == 121 || r.req == 122
    let ownOk := match w with
      | some w => named.all fun p => (ownerOf s (p.2.1 / 65536)).valid && (ownerOf s (p.2.1 / 65536)).part == s.f F.GAL_DROP_OWNER w
      | none => free || (chip.isNone && (collChips s r).isNone && named.all fun p => ownerAdmits s r.idn p.2.1)
    if ownOk = false then (some (if chip.isSome ∨ (collChips s r).isSome then .windowClosed else .xlateFault), none)
    else
      let ch := if r.narrow ∧ r.wr = false then List.range 16 else ps.flatMap (chambersOf s.b.halls)
      if ch.any (fun c => s.chamber h c != 0) then (some .chamberDark, none) else (none, w)

/-- A sealed access: a row-line access whose requester asked for seal handling; a column line or a narrow access never is (spec/07 R194, R197). -/
def HReq.isSealed (r : HReq) : Bool := r.sealed && !r.col && !r.narrow

/-- The mirror engine's read of a dirty line, which LINE carries with its seal bit (spec/12 R337; log 116). -/
def mirrorRead (s : State) (r : HReq) : Bool :=
  match (s.op? r.op).map Op.pur with
  | some (.echo _) => !r.wr
  | _ => false

/-- An access that is not sealed, to a line of an armed region that is not PERMISSIVE, whatever its requester (spec/07 R197). -/
def unsealedHit (s : State) (r : HReq) : Bool :=
  !r.isSealed && !mirrorRead s r && (r.pieces s.b.halls).any (fun p => (regionOf s p.2.1).any fun g => !s.fb F.GAL_SEAL_MODE_PERM g)

/-- The fault UNSEALED (spec/07 R197). -/
def unsealedFault (s : State) (h : Nat) (r : HReq) (ops : List Nat) : Flt :=
  let b := blame s r ops
  ⟨3, 3, 1, true, false, h, b.1, if b.2.isSome then Status.xlateFault.code else 0,
    commonDetail r.addr ((b.2.bind s.cmd?).map Cmd.at) h r.req 0 0 0, b.2, none⟩

/-! ### Serving a request -/

/-- A request's answer reaches its requester. -/
def hallAnswer (s : State) (r : HReq) (st : Status) (data : List Byte) : State := partDone s r.op r.tag st data

/-- Takes a request off its hall's queue. -/
def hallDrop (s : State) (h : Nat) (r : HReq) : State :=
  s.setHall h { s.hall h with queue := (s.hall h).queue.filter (·.tag != r.tag) }

/-- Counts a refusal at hall entry and answers it. -/
def hallRefuse (s : State) (h : Nat) (r : HReq) (st : Status) : State :=
  hallAnswer ((hallDrop s h r).incF F.GAL_STAT_REFUSED 0) r st []

/-- The 16 × 16 transpose of a line of two-byte elements (spec/07 R183). -/
def transpose (l : List Byte) : List Byte :=
  (List.range 512).map fun n =>
    let i := n / 32
    let j := n % 32 / 2
    l.getD (32 * j + 2 * i + n % 2) 0

/-- An increment leaves for a franking counter (spec/07 R200). -/
def addInc (s : State) (w : Option Nat) (n : Nat) : State :=
  match w with
  | some w => { s with gal := { s.gal with incs := s.gal.incs ++ [(s.f F.GAL_PW_DROP_CTL_COUNTER w, if s.fb F.GAL_PW_DROP_CTL_UNIT w then 1 else n)] } }
  | none => s

/-- Writes and answers an admitted write. -/
def hallWrite (s : State) (h : Nat) (r : HReq) (w : Option Nat) : State :=
  let ps := r.pieces s.b.halls
  let (s, bad) := galPut s (blame s r [r.op]) h r.req (ps.flatMap fun p => addrBytes p.2.1 ((r.data.drop p.1).take p.2.2))
  let s := if bad then s else addInc s w (ps.foldl (fun n p => n + p.2.2) 0)
  hallAnswer (hallDrop s h r) r (if bad then .uncorrected else .done) []

/-- Reads and answers an admitted read; a narrow read merges the requester's open entry of the same identity (spec/07 R193). -/
def hallRead (s : State) (h : Nat) (r : HReq) : State :=
  let ps := r.pieces s.b.halls
  let words := if r.narrow then (List.range 64).map (r.addr / 512 * 64 + ·) else ps.flatMap fun p => (List.range (p.2.2 / 8)).map (p.2.1 / 8 + ·)
  let (s, bad) := eccRead s (blame s r [r.op]) h r.req words
  let base := ps.foldl (fun d p => splice d p.1 (s.galRead p.2.1 p.2.2)) (List.replicate (if r.col || r.mask != 0 then 512 else r.len) 0)
  let data := if r.narrow then
      match s.gal.gather.find? (fun g => g.req == r.req && g.idn == r.idn && g.line == r.addr / 512) with
      | some g => g.bytes.foldl (fun d e => if r.addr % 512 ≤ e.1 ∧ e.1 < r.addr % 512 + r.len then splice d (e.1 - r.addr % 512) [e.2] else d) base
      | none => base
    else base
  hallAnswer (hallDrop s h r) r (if bad then .uncorrected else .done) (if r.trn then transpose data else data)

def sealBit (s : State) (line : Nat) : Bool := s.gal.full.contains line

def insertNat : List Nat → Nat → List Nat
  | [], x => [x]
  | a :: r, x => if a = x then a :: r else if x < a then x :: a :: r else a :: insertNat r x

def setSeal (s : State) (line : Nat) (v : Bool) : State :=
  markDirty { s with gal := { s.gal with full := if v then insertNat s.gal.full line else s.gal.full.filter (· != line) } } line

/-- Fails a sealed access with SEAL_TIMEOUT (spec/07 R196). -/
def sealFail (s : State) (h : Nat) (r : HReq) : State :=
  hallAnswer ((hallDrop s h r).incF F.GAL_STAT_SEALTO 0) r .sealTimeout []

/-- Serves a sealed access that has passed checks 1 to 4 (spec/07 R195, R196). -/
def sealServe (s : State) (h : Nat) (r : HReq) (w : Option Nat) : State :=
  let line := r.addr / 512
  match regionOf s r.addr with
  | none => sealFail s h r
  | some g =>
    let full := sealBit s line
    let limit := max 1 (s.f F.GAL_SEAL_TIMEOUT_TIMEOUT) * 1000
    let late := match r.first with
      | some t => decide (t + limit < s.time)
      | none => false
    if late then sealFail s h r
    else if full = r.wr then
      -- not served: the line is full for a write or empty for a read
      let r' := { r with first := some (r.first.getD s.time) }
      s.setHall h { s.hall h with queue := (s.hall h).queue.map fun x => if x.tag = r.tag then r' else x }
    else if r.wr then hallWrite (setSeal s line true) h r w
    else hallRead (if s.fb F.GAL_SEAL_MODE_PEEK g then s else setSeal s line false) h r

/-- Counts a served slot for its partition and in all (spec/17 R447, R448). -/
def countSlot (s : State) (h : Nat) (part : Option Nat) : State :=
  let H := s.hall h
  let u := mset H.slotsUsed 64 (mget 0 H.slotsUsed 64 + 1)
  s.setHall h { H with slotsUsed := match part with
    | some p => mset u p (mget 0 u p + 1)
    | none => u }

/-- The partition a request counts for: none for the privileged path, the fabric's own requesters and links. -/
def slotPart (s : State) (r : HReq) : Option Nat :=
  if r.idn.priv ∨ 120 ≤ r.req ∨ (hreqChip s r).isSome then none else some r.idn.part

/-- One request takes a slot of its hall (spec/07 R190, R508). -/
def serveReq (s : State) (h : Nat) (r : HReq) : State :=
  let s := countSlot s h (slotPart s r)
  match entryCheck s h r with
  | (some st, _) => hallRefuse s h r st
  | (none, w) =>
    if unsealedHit s r then hallRefuse (s.raise (unsealedFault s h r [r.op])) h r .xlateFault
    else if r.isSealed then sealServe s h r w
    else if r.wr then hallWrite s h r w
    else hallRead s h r

/-! ### Gather buffers (spec/07 R193) -/

/-- The request of a gather entry: a write of the blocks its bytes lie in. -/
def Gather.req' (g : Gather) : HReq :=
  let blocks := (List.range 16).map fun i => if g.bytes.any (fun e => e.1 / 32 == i) then 2 ^ i else 0
  ⟨0, (g.tags.headD (0, 0)).1, g.req, g.idn, g.line * 512 + (g.bytes.headD (0, 0)).1, 1, true, false, 2 ^ 16 + blocks.sum, false, false, true, [], g.src, none⟩

/-- The partition a gather entry's slot counts for. -/
def Gather.slotPart (g : Gather) : Option Nat := if g.idn.priv ∨ g.src.isSome then none else some g.idn.part

/-- Writes a gather entry in a slot; every narrow write merged into it reports its status. -/
def serveGather (s : State) (h : Nat) (g : Gather) : State :=
  let s := countSlot s h g.slotPart
  let s := { s with gal := { s.gal with gather := s.gal.gather.filter fun x => !(x.req == g.req && x.opened == g.opened) } }
  let r := g.req'
  let ops := g.tags.map Prod.fst
  let (s, st) : State × Status := match entryCheck s h r with
    | (some st, _) => (s.incF F.GAL_STAT_REFUSED 0, st)
    | (none, w) =>
      if unsealedHit s r then ((s.raise (unsealedFault s h r ops)).incF F.GAL_STAT_REFUSED 0, .xlateFault)
      else
        let (s, bad) := galPut s (blame s r ops) h g.req (g.bytes.map fun e => (g.line * 512 + e.1, e.2))
        (if bad then s else addInc s w g.bytes.length, if bad then Status.uncorrected else .done)
  g.tags.foldl (fun s t => partDone s t.1 t.2 st []) s

/-- Whether a request waits behind an earlier one of its requester in the queue. -/
def headOf (q : List HReq) (req : Nat) : Option HReq := q.find? (·.req == req)

/-- Merges the narrow writes that have reached the head of their requester's order; when its 8 entries are open the oldest becomes due. -/
def absorb : Nat → State → Nat → State
  | 0, s, _ => s
  | n + 1, s, h =>
    let q := (s.hall h).queue
    match q.find? (fun r => r.wr && r.narrow && headOf q r.req == some r &&
        (let es := s.gal.gather.filter (·.req == r.req)
         es.length < 8 || es.any (fun g => g.idn == r.idn && g.src == hreqChip s r && g.line == r.addr / 512))) with
    | none =>
      { s with gal := { s.gal with gather := s.gal.gather.map fun g =>
          if (q.any fun r => r.wr && r.narrow && headOf q r.req == some r && r.req == g.req)
              ∧ (s.gal.gather.filter (·.req == g.req)).length = 8
              ∧ ((s.gal.gather.filter (·.req == g.req)).head?.map (·.opened)) = some g.opened then { g with due := true } else g } }
    | some r =>
      let src := hreqChip s r
      let new := (List.range r.data.length).zip r.data |>.map fun e => (r.addr % 512 + e.1, e.2)
      let s := hallDrop s h r
      let hit (g : Gather) : Bool := g.req == r.req && g.idn == r.idn && g.src == src && g.line == r.addr / 512
      let gs := if s.gal.gather.any hit then
          s.gal.gather.map fun g => if hit g then { g with bytes := new.foldl (fun m e => mset m e.1 e.2) g.bytes, tags := g.tags ++ [(r.op, r.tag)] } else g
        else s.gal.gather ++ [⟨r.req, r.idn, src, r.addr / 512, new, [(r.op, r.tag)], 0, r.tag, false⟩]
      absorb n { s with gal := { s.gal with gather := gs } } h

/-! ### Slots (spec/07 R186, R187, R507) -/

/-- The entries of a hall. -/
def hallEntries (s : State) (h : Nat) : List Gather := s.gal.gather.filter fun g => g.line % s.b.halls == h

/-- Requester 121 has work in a hall: a scrub whose lines can be written, a write-back, or a patrol read. -/
def scrubReady (s : State) (h : Nat) : Bool :=
  (s.hall h).scrub != [] && (List.range 16).all fun c => s.chamber h c == 0 || s.chamber h c == 2

def work121 (s : State) (h : Nat) : Bool :=
  scrubReady s h || (s.hall h).backs != [] || (s.hall h).patrol.isSome

/-- Zeroes a tile line of a hall with fresh check bits. -/
def zeroLine (s : State) (h line : Nat) : State :=
  let H := s.hall h
  markDirty (State.setHall { s with gal := { s.gal with cells := s.gal.cells.filter (fun c => c.1 / 512 != line),
                                                        err := s.gal.err.filter (fun e => e.1 / 64 != line) } } h
    { H with backs := H.backs.filter (· / 64 != line) }) line

/-- The chamber of a hall that holds a 64-bit word. -/
def wordLit (s : State) (h w : Nat) : Bool := (chambersOf s.b.halls (0, 8 * w, 8)).all fun c => s.chamber h c == 0

/-- The patrol pass ends when every hall whose logic is on has read its lines; the pass of a period begun meanwhile then begins in all halls (spec/07 R203). -/
def patrolSettle (s : State) : State :=
  if s.gal.patrolNext = true ∧ (List.range s.b.halls).all (fun h => (s.hall h).patrol.isNone || !s.domOn (s.b.domLogic h)) then
    (List.range s.b.halls).foldl (fun s h => s.setHall h { s.hall h with patrol := some 0 }) { s with gal := { s.gal with patrolNext := false } }
  else s

/-- One slot of requester 121 (spec/07 R507: scrub, then write-back, then patrol). -/
def serve121 (s : State) (h : Nat) : State :=
  let H := s.hall h
  let s := countSlot s h none
  match (if scrubReady s h then H.scrub else []) with
  | (blk, i) :: rest =>
    let s := zeroLine s h (blk * 128 + i * s.b.halls + h)
    s.setHall h { s.hall h with scrub := if i + 1 < 128 / s.b.halls then (blk, i + 1) :: rest else rest }
  | [] =>
    match H.backs with
    | w :: rest =>
      let s := s.setHall h { s.hall h with backs := rest }
      -- a chamber below LIT refuses the write-back as it refuses every access (spec/07 R204)
      if wordLit s h w ∧ (mget (0, 127, 127) s.gal.err w).1 ≤ 2 then clearErr s w else s
    | [] =>
      match H.patrol with
      | none => s
      | some i =>
        let line := i * s.b.halls + h
        let s := (eccRead s (none, none) h 121 (s.gal.err.filterMap fun e => if e.1 / 64 = line ∧ wordLit s h e.1 then some e.1 else none)).1
        patrolSettle (s.setHall h { s.hall h with patrol := if i + 1 < 16384 then some (i + 1) else none })

/-- Serves requester `r`: its oldest open entry of the hall, else the head of its queue. -/
def serveOwner (s : State) (h r : Nat) : State :=
  match (hallEntries s h).find? (·.req == r) with
  | some g => serveGather s h g
  | none => match headOf (s.hall h).queue r with
    | some x => if x.narrow && x.wr then s else serveReq s h x
    | none => s

/-- The partition of what `serveOwner` serves. -/
def ownerPart (s : State) (h r : Nat) : Option Nat :=
  match (hallEntries s h).find? (·.req == r) with
  | some g => g.slotPart
  | none => (headOf (s.hall h).queue r).bind (slotPart s)

/-- Requester `r` presents a request to a hall. -/
def presents (s : State) (h r : Nat) : Bool :=
  if r = 121 then work121 s h
  else (hallEntries s h).any (·.req == r) || (match headOf (s.hall h).queue r with
    | some x => !(x.narrow && x.wr)
    | none => false)

/-- A present requester that has opted in to lent slots (spec/07 R187). -/
def optedIn (s : State) (r : Nat) : Bool := (s.f F.GAL_LENIENT_OPT_OPT (r / 64)).testBit (r % 64)

/-- Due gather entries of a hall, the oldest first. -/
def dueEntry (s : State) (h : Nat) : Option Gather :=
  let l := (hallEntries s h).filter fun g => g.due
  l.foldl (fun o g => match o with
    | none => some g
    | some x => if g.age > x.age ∨ (g.age = x.age ∧ g.req < x.req) then some g else some x) none

/-- A hall's clock runs: its logic and its clock are on and the block is neither in NAP nor DORMANT (spec/07 R206, spec/01 R22). -/
def hallRuns (s : State) (h : Nat) : Bool :=
  decide (h < s.b.halls) && s.domOn (s.b.domLogic h) && s.ctlOn && decide (s.flt.halt < 5) && !s.fb F.PWR_ISL_GATED (2 + h)

/-! ### Turn boundaries (spec/07 R185, R188, R199, spec/17 R448) -/

/-- The turn boundary of a hall, before slot 0: a pending wheel, drop windows and changes of owner take effect, and its slot counts are reported. -/
def boundary (s : State) (h : Nat) : State :=
  let s0 := s
  let s := if s.fb F.GAL_WHEEL_MODE_PEND h then
      let s := (List.range 4).foldl (fun s k => s.setF F.GAL_WHEEL_ACT_ENTRIES (4 * h + k) (s.f F.GAL_WHEEL_ENTRIES (4 * h + k))) s
      (s.setF F.GAL_WHEEL_MODE_MODE h (s.f F.GAL_WHEEL_MODE_MODESHD h)).setF F.GAL_WHEEL_MODE_PEND h 0
    else s
  let H := s.hall h
  let s := H.slotsUsed.foldl (fun s e =>
    if e.1 = 64 then s.incF F.OBS_HALL_SLOTS_SLOTS h e.2 else s.incF F.OBS_PW_HALL_SLOTS (e.1 * 64 + h) e.2) s
  let H' : Hall := { H with slotsUsed := [], changing := H.changing ++ H.newChange, newChange := [], turned := true,
                            scrub := H.scrub ++ H.newChange.map (fun b => (b, 0)), drops := s.setIdx F.GAL_PW_DROP_CTL_OPEN }
  let s := s.setHall h H'
  -- waiting requests that the new wheel gives no slot, and the old one did (spec/07 R189); the last to have crossed stays (log 106)
  (H.queue.filter fun r => starved s h r && !starved s0 h r).foldl (fun s r => noteStarve s h r) s

/-- The boundary of the turn that now begins, if it has not passed yet. -/
def turnStart (s : State) (h : Nat) : State :=
  if (s.hall h).cyc % 32 = 0 ∧ (s.hall h).turned = false then boundary s h else s

/-- One slot of a hall; slot 0 begins at the turn boundary (spec/07 R186, R187, R188, R507). -/
def hallSlot (s : State) (h : Nat) : State :=
  let s := turnStart s h
  let k := (s.hall h).cyc % 32
  let owner := wheelOwner s h k
  let s := absorb ((s.hall h).queue.length + 1) s h
  let s := match owner.filter (presents s h) with
    | some r => if r = 121 then serve121 s h else serveOwner s h r
    | none =>
      if work121 s h then serve121 s h
      else match dueEntry s h with
        | some g => serveGather s h g
        | none =>
          if owner.isNone ∧ s.f F.GAL_WHEEL_MODE_MODE h = 1 then
            match (List.range 123).find? (fun r => optedIn s r && presents s h r) with
            | some r =>
              serveOwner (s.note (ownerPart s h r) true 0x14 none (h * 2 ^ 58 + k * 2 ^ 53 + r * 2 ^ 46) 0) h r
            | none => s
          else s
  let s := { s with gal := { s.gal with gather := s.gal.gather.map fun (g : Gather) => if g.line % s.b.halls = h then { g with age := g.age + 1 } else g } }
  let s := s.setHall h { s.hall h with cyc := (s.hall h).cyc + 1, turned := false }
  absorb ((s.hall h).queue.length + 1) s h

/-! ### Ownership (spec/07 R185) -/

/-- A hall whose logic is off and whose chambers are all DARK holds nothing to scrub; its requests are refused all the same (spec/07 R185). -/
def emptyHall (s : State) (h : Nat) : Bool :=
  !s.domOn (s.b.domLogic h) && (List.range 16).all fun c => s.chamber h c == 2

/-- Starts the scrub of a block in every hall; STATE becomes SCRUBBING. In a hall that is off and holds nothing, whose clock meets no turn boundary, the change takes effect at once (spec/07 R185, DEDUCED, log 107). -/
def startScrub (s : State) (blk : Nat) : State :=
  (List.range s.b.halls).foldl (fun s h =>
    let H := s.hall h
    s.setHall h (if emptyHall s h then { H with changing := H.changing ++ [blk] } else { H with newChange := H.newChange ++ [blk] }))
    (s.setF F.GAL_OWN_STATE blk 1)

/-- A write of one entry of GAL_OWN: its 32 bits. -/
def writeOwn (s : State) (blk v : Nat) : State :=
  if s.b.galleryBytes / 65536 ≤ blk then s
  else if s.f F.GAL_OWN_STATE blk = 1 then (s.setF F.GAL_ERR_CAUSE 0 3).setF F.GAL_ERR_WHERE 0 blk
  else if s.f F.GAL_OWN_VALID blk = v / 2 ^ 31 % 2 ∧ s.f F.GAL_OWN_CTXEN blk = v / 2 ^ 30 % 2 ∧ s.f F.GAL_OWN_CTX blk = v / 2 ^ 16 % 1024
      ∧ s.f F.GAL_OWN_PART blk = v % 64 then s
  else startScrub ((((s.setF F.GAL_OWN_VALID blk (v / 2 ^ 31)).setF F.GAL_OWN_CTXEN blk (v / 2 ^ 30)).setF F.GAL_OWN_CTX blk (v / 2 ^ 16)).setF F.GAL_OWN_PART blk v) blk

/-- Every hall has finished a block. -/
def scrubbedAll (s : State) (blk : Nat) : Bool :=
  s.f F.GAL_OWN_STATE blk == 1 && (List.range s.b.halls).all fun h =>
    emptyHall s h || (!(s.hall h).newChange.contains blk && !((s.hall h).scrub.any fun e => e.1 == blk))

/-- The held values take effect (spec/07 R185 step 4). -/
def ownDone (s : State) (blk : Nat) : State :=
  let o : Owner := ⟨s.fb F.GAL_OWN_VALID blk, s.fb F.GAL_OWN_CTXEN blk, s.f F.GAL_OWN_CTX blk, s.f F.GAL_OWN_PART blk⟩
  let s := { s with gal := { s.gal with own := mset s.gal.own blk o } }
  (List.range s.b.halls).foldl (fun s h =>
    let H := s.hall h
    s.setHall h { H with changing := H.changing.filter (· != blk), newChange := H.newChange.filter (· != blk), scrub := H.scrub.filter (·.1 != blk) })
    (s.setF F.GAL_OWN_STATE blk 0)

/-- A drop window has settled when every hall has applied its OPEN (spec/07 R199). -/
def settledDrop (s : State) (w : Nat) : Bool :=
  (List.range s.b.halls).all fun h => (s.hall h).drops.contains w == s.fb F.GAL_PW_DROP_CTL_OPEN w

/-! ### Seal regions (spec/03 R90, spec/07 R194) -/

/-- Waiting sealed accesses of a region complete with SEAL_TIMEOUT. -/
def failWaiting (s : State) (rg : Nat) : State :=
  (List.range s.b.halls).foldl (fun s h =>
    ((s.hall h).queue.filter fun r => r.isSealed && r.first.isSome && regionOf s r.addr == some rg).foldl (fun s r => sealFail s h r) s) s

def sealMode (s : State) (rg : Nat) : Nat :=
  s.f F.GAL_SEAL_MODE_ALLOT rg * 2 ^ 63 + s.f F.GAL_SEAL_MODE_ARMED rg * 2 ^ 62 + s.f F.GAL_SEAL_MODE_PERM rg * 2 ^ 61
    + s.f F.GAL_SEAL_MODE_PEEK rg * 2 ^ 60 + s.f F.GAL_SEAL_MODE_OWNER rg * 2 ^ 48

/-- Tells the mirror engine of a region of a mirrored partition (spec/12 R337). -/
def mirrorSeal (s : State) (rg : Nat) : State :=
  if s.mirPart (s.f F.GAL_SEAL_MODE_OWNER rg) then
    s.mirror (.sealreg rg (s.f F.GAL_SEAL_BASE_BASE rg) (s.f F.GAL_SEAL_SIZE_SIZE rg) (sealMode s rg))
  else s

/-- Arms a region and sets its seal bits. -/
def sealRegion (s : State) (rg : Nat) (perm peek full : Bool) (base size : Nat) : State :=
  let s := failWaiting s rg
  let s := ((((s.setF F.GAL_SEAL_BASE_BASE rg base).setF F.GAL_SEAL_SIZE_SIZE rg size).setF F.GAL_SEAL_MODE_PERM rg perm.toNat).setF
    F.GAL_SEAL_MODE_PEEK rg peek.toNat).setF F.GAL_SEAL_MODE_ARMED rg 1
  let lo := base / 512
  let n := size / 512
  let below := s.gal.full.filter fun l => decide (l < lo)
  let above := s.gal.full.filter fun l => decide (lo + n ≤ l)
  let mine := if full then (List.range n).map fun i => lo + i else []
  let s := { s with gal := { s.gal with full := below ++ mine ++ above } }
  -- the new seal bits of mirrored lines are sent with their lines
  let s := if s.sends then (List.range n).foldl (fun s i => markDirty s (lo + i)) s else s
  mirrorSeal s rg

/-- Disarms a region; its seal bits stay (UNSEAL, DISARM). -/
def unsealRegion (s : State) (rg : Nat) : State := mirrorSeal ((failWaiting s rg).setF F.GAL_SEAL_MODE_ARMED rg 0) rg

/-! ### Drop windows (spec/07 R199) -/

/-- A write of GAL_PW_DROP_CTL in partition `p`'s window. -/
def dropCtl (s : State) (p v : Nat) : State :=
  let w := s.f F.GAL_PW_DROP_SEL_WIN p
  let mine := s.fb F.GAL_DROP_ALLOT w && s.f F.GAL_DROP_OWNER w == p
  let opens := v / 2 ^ 63 % 2 == 1
  let s := s.note (some p) true 0x15 none (0x1000000 + p * 65536 + 0xF220) v
  if mine = false then (if opens then s.setF F.GAL_PW_DROP_CTL_ERRC p 1 else s)
  else if s.fb F.GAL_PW_DROP_CTL_OPEN w then
    if opens then s.setF F.GAL_PW_DROP_CTL_ERRC p 0 else s.setF F.GAL_PW_DROP_CTL_OPEN w 0
  else
    let s := (((s.setF F.GAL_PW_DROP_CTL_UNIT w (v / 2 ^ 62)).setF F.GAL_PW_DROP_CTL_COURIER w (v / 2 ^ 61)).setF
      F.GAL_PW_DROP_CTL_SRCCHIPS w (v / 2 ^ 32)).setF F.GAL_PW_DROP_CTL_COUNTER w v
    if opens = false then s
    else
      let base := s.f F.GAL_PW_DROP_RANGE_BASE w * 512
      let size := s.f F.GAL_PW_DROP_RANGE_LINES w * 512
      if size = 0 ∨ inGalleryRanges s p base size = false then s.setF F.GAL_PW_DROP_CTL_ERRC p 2
      else if holdsCounter s p (s.f F.GAL_PW_DROP_CTL_COUNTER w) = false then s.setF F.GAL_PW_DROP_CTL_ERRC p 3
      else (s.setF F.GAL_PW_DROP_CTL_ERRC p 0).setF F.GAL_PW_DROP_CTL_OPEN w 1

/-- A write of GAL_FRANK_PART (spec/07 R198). -/
def frankPartWrite (s : State) (p v : Nat) : State :=
  let en := v / 2 ^ 63 % 2 == 1
  let was := s.fb F.GAL_FRANK_PART_EN p
  -- LAST and BASE are not written while EN = 1
  let last := if was then s.f F.GAL_FRANK_PART_LAST p else v / 2 ^ 16 % 4096
  let base := if was then s.f F.GAL_FRANK_PART_BASE p else v % 4096
  let err (s : State) (c : Nat) : State := (s.setF F.GAL_ERR_CAUSE 0 c).setF F.GAL_ERR_WHERE 0 p
  if en ∧ last < base then err s 2
  else if en ∧ ((List.range 64).any fun o => o != p && s.fb F.GAL_FRANK_PART_EN o && decide (s.f F.GAL_FRANK_PART_BASE o ≤ last)
      && decide (base ≤ s.f F.GAL_FRANK_PART_LAST o)) then err s 1
  else ((s.setF F.GAL_FRANK_PART_LAST p last).setF F.GAL_FRANK_PART_BASE p base).setF F.GAL_FRANK_PART_EN p en.toNat

/-- An increment reaches its counter and wakes the waiters it satisfies (spec/07 R200, spec/05 R152). -/
def frankInc (s : State) (n k : Nat) : State :=
  let v := s.frank n + BitVec.ofNat 64 k
  wakeMet (setFrank s n v) (.counter n) v

/-! ### Chambers (spec/07 R204, R205) -/

/-- Gallery parcel memory of an enabled partition lies in a hall (spec/07 R204, spec/04 R122). -/
def holdsParcels (s : State) (h : Nat) : Bool :=
  (List.range 64).any fun p => s.f F.PRT_STAT_STATE p == 1 && 0 < s.f F.QE_PCL_GAL_GSIZE p && decide (h < s.b.halls)

/-- The requested state of a chamber in GAL_CPWR_REQ. -/
def State.target (s : State) (h c : Nat) : Nat := s.f F.GAL_CPWR_REQ_TARGETS h / 4 ^ c % 4

end Sys2Proof.Machine
end

