-- ==== Sys2Proof/Machine/SchedOps.lean ====
section
/-! DEFINITION. Operations of the scheduler (spec/06): the timetable, admission, shares, units of work and their completion (spec/04 R109 to R130). -/

namespace Sys2Proof.Machine

/-! ### Timetable -/

/-- The timetable position in ns (spec/06 R165). -/
def ttPos (s : State) : Nat := if s.sch.still ∨ s.sch.started = false then s.sch.pos else s.sch.pos + (s.time - s.sch.posAt)

/-- Stops the position where it is. -/
def ttStop (s : State) : State := { s with sch := { s.sch with pos := ttPos s, posAt := s.time, still := true } }

/-- Lets the position advance again. -/
def ttRun (s : State) : State := { s with sch := { s.sch with pos := ttPos s, posAt := s.time, still := false } }

/-- Bits `hi` to `lo` of a word. -/
def fieldOf (w : W64) (hi lo : Nat) : Nat := w.toNat / 2 ^ lo % 2 ^ (hi + 1 - lo)

/-- The fields of a timetable entry (spec/06 R164). -/
def winLen (w : Win) : Nat := fieldOf w.2 15 0
def winExcl (w : Win) : Bool := w.2.toNat.testBit 63
def winPart (w : Win) (code : Nat) : Nat := if code = 1 then fieldOf w.2 37 32 else if code = 2 then fieldOf w.2 45 40 else fieldOf w.2 53 48

/-- The current window. -/
def curWin (s : State) : Win := s.sch.active.getD s.sch.win (0, 65535)

/-- The position, in ns, at which window `w` ends. -/
def winEnd (s : State) (w : Nat) : Nat := ((s.sch.active.take (w + 1)).map fun x => winLen x * 1000).sum

/-- Who owns a group in a window (spec/06 R164, R175). -/
inductive GOwner where
  | rt (p : Nat)
  | share
  | excl (p : Nat)
  deriving DecidableEq, Repr

/-- The owner of a group: `g` none for an ungrouped placement (spec/06 R162). -/
def winOwner (w : Win) (eng : Bool) (g : Option Nat) : GOwner :=
  if winExcl w then .excl (winPart w 1)
  else match g with
    | none => .share
    | some g =>
      let code := w.1.toNat / 2 ^ ((if eng then 0 else 32) + 2 * g) % 4
      if code = 0 then .share else .rt (winPart w code)

/-- A window reserves a group: a real-time owner or EXCLUSIVE. -/
def reserves (w : Win) (eng : Bool) (g : Option Nat) : Bool := winOwner w eng g != .share

/-- The start of the first reserving window of a list, with `base` the position of its first window. -/
def firstReserved (eng : Bool) (g : Option Nat) : List Win → Nat → Option Nat
  | [], _ => none
  | w :: r, base => if reserves w eng g then some base else firstReserved eng g r (base + winLen w * 1000)

/-- The shadow timetable's windows. -/
def shadowWins (s : State) : List Win := (List.range (s.f F.SCH_TTCTL_SHDNWIN)).map fun w => mget (0, 0) s.sch.shadow w

/-- The next reserved start of a group, as a position (spec/06 R170). -/
def nextReserved (s : State) (eng : Bool) (g : Option Nat) : Option Nat :=
  let cyc := winEnd s (s.sch.active.length)
  match firstReserved eng g (s.sch.active.drop (s.sch.win + 1)) (winEnd s s.sch.win) with
  | some x => some x
  | none => firstReserved eng g (if s.fb F.SCH_TTCTL_PEND then shadowWins s else s.sch.active) cyc

/-! ### Groups and admission (spec/06 R161, R162, R168, R170) -/

def groupOfPort (s : State) (k : Nat) : Option Nat := (List.range 16).find? fun g => (s.f F.SCH_EGRP_ACT_PORTS g).testBit k
def groupOfStation (s : State) (n : Nat) : Option Nat := (List.range 16).find? fun g => (s.f F.SCH_SGRP_ACT_STATIONS g).testBit n

/-- The declared duration of a command's units in µs; 0 when undeclared (spec/06 R168); MAXDUR counts 16 µs in a revision 3 buffer (spec/03 R103). -/
def declared (s : State) (p : Nat) (c : Cmd) : Nat :=
  let md := match c.body with
    | .launch _ _ _ _ m _ _ => m
    | .dispatch _ _ m _ _ _ _ _ _ => m
    | .tilepass _ _ m _ _ _ _ _ _ => m
    | .passage _ _ _ m _ _ _ => m
    | .collect _ _ _ _ m _ _ _ _ _ _ _ _ => m
    | _ => 0
  if 0 < md then (if c.r3 then 16 * md else md) else s.f F.SCH_PRT_DEFDUR p

def undecl (s : State) : Nat := max 1 (s.f F.SCH_DRR_UNDECL)


/-- An EXCLUSIVE window is in RUN, and its LEN has not passed (spec/06 R175). -/
def inRun (s : State) : Bool := s.f F.SCH_TTSTAT_PHASE == 0 && decide (ttPos s < winEnd s s.sch.win)

/-- A group admits a unit of partition `p` with declared duration `d` µs, 0 for none (spec/06 R170). -/
def groupAdmits (s : State) (p d : Nat) (eng : Bool) (g : Option Nat) : Bool :=
  match winOwner (curWin s) eng g with
  | .rt x => x == p && d != 0 && decide (ttPos s + d * 1000 ≤ winEnd s s.sch.win)
  | .share =>
    let need := (if d = 0 then undecl s else d) * 1000
    s.fb F.SCH_PRT_SHAREEN p && decide (0 < bal s p) && !s.fb F.PWR_STAT_SHAREHOLD
      && (match nextReserved s eng g with
        | some n => decide (ttPos s + need ≤ n)
        | none => true)
  | .excl x => x == p && inRun s

/-- Couriers, the near-memory unit and relay cores: only the owner of an EXCLUSIVE window, in its phase RUN (spec/06 R163, R175). -/
def ungroupedAdmits (s : State) (p : Nat) : Bool :=
  match winOwner (curWin s) true none with
  | .excl x => x == p && inRun s
  | _ => true

/-- A partition owns some group as real-time owner in the current window (spec/06 R163). -/
def ownsRt (s : State) (p : Nat) : Bool :=
  (List.range 16).any fun g => winOwner (curWin s) true (some g) == .rt p || winOwner (curWin s) false (some g) == .rt p

/-! ### Placements -/

/-- A unit runs on a placement. -/
def placeBusy (s : State) (f : Place → Bool) : Bool := s.units.any fun u => f u.place

def onPort (k : Nat) : Place → Bool
  | .port j => j == k
  | _ => false

def onStation (b n : Nat) : Place → Bool
  | .stations first m => decide ((n + b - first) % b < m)
  | _ => false

/-- A port that may take a unit: present, ready, not failed, not in reset, free, and not held by a whole-command admission of another command (spec/06 R169, R176, spec/18 R486). -/
def portFree (s : State) (cmd k : Nat) : Bool :=
  decide (k < s.b.eports) && s.fb F.INT_EPORT_READY k && !s.sch.failed.contains k && !(s.sch.resets.any fun e => e.1 == k)
    && !placeBusy s (onPort k) && !(s.cmds.any fun c => c.whole && c.id != cmd && c.ports.testBit k)

/-- The port a named PORT maps to (spec/04 R128). -/
def mappedPort (s : State) (q k : Nat) : Nat := mget k (s.q q).portMap k

/-- Ports of an engine group that a queue may use, after its port map (spec/04 R127, R128). -/
def queuePorts (s : State) (q g : Nat) : List Nat :=
  (List.range s.b.eports).filter fun k => !(s.q q).removed.contains k && (groupPorts s g).any fun j => mappedPort s q j == k

/-- A station that may take part in a passage. -/
def stationFree (s : State) (n : Nat) : Bool :=
  decide (n < s.b.stations) && s.domOn (s.b.domStation n) && !placeBusy s (onStation s.b.stations n)

/-- The stations of a passage, with the queue's offset (spec/03 R92, spec/04 R128). -/
def passStations (s : State) (q first cnt : Nat) : List Nat :=
  (List.range (cnt + 1)).map fun i => (first + (s.q q).stOff + i) % s.b.stations

/-- Code of a placement: kind and index (spec/17 R456). -/
def Place.code : Place → Nat × Nat
  | .port k => (0, k)
  | .stations f _ => (1, f)
  | .courier k => (2, k)
  | .nmu => (3, 0)
  | .relay k => (4, k)

/-- A placement that a group can hold: a port or stations (spec/06 R161, R163). -/
def Place.grouped : Place → Bool
  | .port _ | .stations .. => true
  | _ => false

/-- Number of a placement in SCH fault records and counters. -/
def Place.num (p : Place) : Nat := p.code.1 * 256 + p.code.2

/-- The numbers of the places a unit occupies, one for each station (spec/17 R452). -/
def placeNums (st : Nat) : Place → List Nat
  | .stations f n => (List.range n).map fun i => 256 + (f + i) % st
  | p => [p.num]

/-! ### Units -/

/-- Starts a unit on a placement: its record ADMIT, its estimate, its watchdog (spec/06 R171, R173, R176). -/
def addUnit (s : State) (c : Cmd) (pl : Place) (ix : Nat) (share : Bool) (est : Nat) : State × Nat :=
  let p := s.qPart c.q
  let d := declared s p c
  let id := s.nid
  let arms := d != 0 && !(match c.body with
    | .copy .. | .fill .. | .dma .. => true
    | _ => false)
  let (pk, pi) := pl.code
  let n := match pl with
    | .stations _ m => m - 1
    | _ => 0
  let s := s.note (some p) false 2 (some c.q) (sqOrd c.sq c.ord + pk * 256 + pi) (ix * 2 ^ 16 + s.sch.win * 64 + n)
  let u : Wunit := { id, cmd := c.id, q := c.q, part := p, place := pl, ix, epoch := (s.q c.q).pepoch.toNat, share, est, win := s.sch.win,
                     deadline := if arms then some (s.time + d * 1000) else none, start := s.time }
  let s := if share then addBal s p (-est) else s
  let s := s.setCmd { (s.cmd? c.id).getD c with ran := if c.ran.contains pl then c.ran else c.ran ++ [pl] }
  let sch := if pl.grouped then { s.sch with lastPart := p, lastQ := mset s.sch.lastQ p c.q }
    else { s.sch with unPart := p, unQ := mset s.sch.unQ p c.q }
  ({ s with units := s.units ++ [u], nid := s.nid + 1, sch }, id)

/-- UTAG of a unit (spec/18 R483; log 21). -/
def utagOf (u : Wunit) : Nat := u.id % 65536

/-- The payload after substitution (spec/03 R84). -/
def substPayload (s : State) (q : Nat) (pl : List W64) (sub : Option Subst) : List W64 :=
  match sub with
  | none => pl
  | some x =>
    let rs := [x.r1, x.r2, x.r3, x.r4]
    (List.range 4).map fun k => pl.getD k 0 + (if x.mask.testBit k then s.greg q (rs.getD k 0) else 0)

/-- The header beat of a unit's engine command (spec/18 R483). -/
def engHeader (s : State) (u : Wunit) (kind : Nat) (w1 w2 w3 : Nat) : List W64 :=
  [BitVec.ofNat 64 (kind * 2 ^ 60 + utagOf u * 2 ^ 44 + s.qCtx u.q * 2 ^ 34 + u.part * 2 ^ 28 + u.epoch * 2 ^ 12),
   BitVec.ofNat 64 w1, BitVec.ofNat 64 w2, BitVec.ofNat 64 w3]

/-- Adds to a word of the partition's accounts (spec/06 R177). -/
def account (s : State) (p w n : Nat) : State := s.incF F.SCH_ACC_COUNT (4 * p + w) n

/-- The account, counter and balance effects of a completed unit; its snapshot stays with its placement (spec/04 R115, spec/06 R173, R177, spec/17 R447). The record of a DISPATCH or TILEPASS whose units were admitted under different placement epochs carries that of the unit settled last: DESIGN CHOICE (log 98), R127 names one epoch for a command. -/
def settleUnit (s : State) (u : Wunit) : State :=
  let t := s.time - u.start
  let (e, s) := s.freeW
  let en := u.energy + e.toNat
  let p := u.part
  let s := match u.place with
    | .port k => ((account s p 0 t).incF F.OBS_ENG_BUSY_NS k t).incF F.OBS_PW_ENG_NS (p * 32 + k) t
    | .stations f n =>
      (List.range n).foldl (fun s i =>
        let x := (f + i) % s.b.stations
        (s.incF F.OBS_STN_BUSY_NS x t).incF F.OBS_PW_STN_NS (p * 64 + x) t) (account s p 1 (t * n))
    | _ => s
  let s := account (account s p 2 u.bytes) p 3 en
  let charge : Nat := match u.place with
    | .stations _ n => (t * n + 3) / 4
    | _ => t
  let whole := ((s.cmd? u.cmd).map Cmd.whole).getD false
  let s := if u.share ∧ whole = false then addBal s p ((u.est : Int) - charge) else s
  let s := { s with units := s.units.filter (·.id != u.id), sch := { s.sch with plc := (placeNums s.b.stations u.place).foldl (fun m k => mset m k (p, t, u.bytes, en)) s.sch.plc } }
  match s.cmd? u.cmd with
  | none => s
  | some c =>
    s.setCmd { c with time := c.time + t, bytes := c.bytes + u.bytes, energy := c.energy + en, overrun := c.overrun || u.crossed,
                      pepoch := u.epoch, live := c.live - 1, wcharge := if u.share then c.wcharge + charge else c.wcharge }

/-- The lowest-numbered failure of a command's units. -/
def firstFail (c : Cmd) : Option Status :=
  (c.fails.foldl (fun (o : Option (Nat × Status)) e => match o with
    | none => some e
    | some x => if e.1 < x.1 then some e else some x) none).map (·.2)

/-- Chunks of a DISPATCH (spec/03 R86). -/
def chunkCount (gx gy gz chunk : Nat) : Nat := (gx * gy * gz + chunk - 1) / chunk

/-- Units a DISPATCH still has to issue: none after a WATCHDOG, or after an abort of one not admitted as a whole (spec/06 R169, R176, R178, spec/02 R57). -/
def dispatchLeft (c : Cmd) : Nat :=
  match c.body with
  | .dispatch _ _ _ x y z ch _ _ => if (c.abort.isSome ∧ c.whole = false) ∨ c.st = .stopping then 0 else chunkCount x y z ch - c.nxt
  | _ => 0

/-- A command whose units have all been issued and have ended completes (spec/03 R86). -/
def dispatchDone (s : State) (id : Nat) : State :=
  match s.cmd? id with
  | none => s
  | some c => if c.live = 0 ∧ dispatchLeft c = 0 then endCmd s id ((c.abort.orElse fun _ => firstFail c).getD .done) else s

/-! ### Shares (spec/06 R172, R173) -/

/-- A held command waits on a group that is SHARE in the current window. -/
def heldOnShare (s : State) (c : Cmd) : Bool :=
  let left := match c.body with
    | .dispatch .. => dispatchLeft c != 0
    | .tilepass .. => c.tiles.any (·.st == 1)
    | _ => c.st == .held
  left && c.whole == false && (match c.body with
    | .launch _ pin port eg _ _ _ => winOwner (curWin s) true (if pin then groupOfPort s (mappedPort s c.q port) else some eg) == .share
    | .dispatch _ eg _ _ _ _ _ _ _ => winOwner (curWin s) true (some eg) == .share
    | .tilepass _ eg _ _ _ _ _ _ _ => winOwner (curWin s) true (some eg) == .share
    | .passage _ f n _ _ _ _ => (passStations s c.q f n).any fun x => winOwner (curWin s) false (groupOfStation s x) == .share
    | _ => false)

/-- A partition is waiting (spec/06 R173). -/
def waiting (s : State) (p : Nat) : Bool :=
  s.fb F.SCH_PRT_SHAREEN p && s.cmds.any fun c => s.qPart c.q == p && c.placed && heldOnShare s c

def credit (s : State) (p : Nat) : Nat := max 1 (s.f F.SCH_DRR_QUANTUM) * max 1 (s.f F.SCH_PRT_WEIGHT p)

/-- The least k ≥ 1 whose credit makes the balance positive. -/
def leastK (s : State) (p : Nat) : Nat := max 1 ((-(bal s p)).toNat / credit s p + 1)

/-- A partition runs a unit, or a whole command, admitted under SHARE (spec/06 R173). -/
def runsShare (s : State) (p : Nat) : Bool :=
  s.units.any (fun u => u.share && u.part == p) || s.cmds.any fun c => c.whole && c.wshare && s.qPart c.q == p

/-- Clearing, then replenishment (spec/06 R173, R178). -/
def shareSettle (s : State) : State :=
  let held := (List.range 64).filter (waiting s)
  let s := s.sch.bal.foldl (fun s e =>
    if 0 < e.2 ∧ held.contains e.1 = false ∧ runsShare s e.1 = false then
      { s with sch := { s.sch with bal := mset s.sch.bal e.1 0 } } else s) s
  if held = [] ∨ held.any (fun p => decide (0 < bal s p)) then s
  else
    let k := held.foldl (fun k p => min k (leastK s p)) (leastK s (held.headD 0))
    held.foldl (fun s p => addBal s p (k * credit s p)) s

/-! ### Windows (spec/06 R165, R166, R172, R175) -/

/-- Units of the current EXCLUSIVE owner, or of others, run. -/
def exclOwner (s : State) : Nat := winPart (curWin s) 1
def unitsOf (s : State) (p : Nat) : Bool := s.units.any (·.part == p)
def unitsNotOf (s : State) (p : Nat) : Bool := s.units.any (·.part != p)

/-- Nanoseconds spent in DRAIN and TAIL during the current major cycle, those of a phase that lasts included (spec/06 R175). -/
def stretched (s : State) : Nat := s.sch.stretchNs + (if s.f F.SCH_TTSTAT_PHASE = 0 then 0 else s.time - s.sch.stretchAt)

/-- SCH_STAT.STRETCH (spec/06 R175, R179). -/
def stretchUs (s : State) : Nat := min (stretched s / 1000) (2 ^ 32 - 1)

/-- A phase DRAIN or TAIL ends: its time stays in STRETCH. -/
def addStretch (s : State) : State := { s with sch := { s.sch with stretchNs := stretched s, stretchAt := s.time } }

/-- The first placement of the groups a window reserves that an undeclared unit, or a reset, still occupies (spec/06 R172). -/
def lateAt (s : State) : Option Place :=
  let w := curWin s
  let pOf (eng : Bool) (g : Option Nat) : Option Nat := match winOwner w eng g with
    | .rt p => some p
    | .excl p => some p
    | .share => none
  match (List.range s.b.eports).find? (fun k => match pOf true (groupOfPort s k) with
      | some _ => (s.units.any fun u => onPort k u.place && u.deadline.isNone) || s.sch.resets.any (fun e => e.1 == k)
      | none => false) with
  | some k => some (.port k)
  | none => ((List.range s.b.stations).find? fun n => match pOf false (groupOfStation s n) with
      | some _ => s.units.any fun u => onStation s.b.stations n u.place && u.deadline.isNone
      | none => false).map fun n => .stations n 1

/-- The numbers of a command's units that are held: those a group may admit, one of a DISPATCH, each waiting launch of a TILEPASS; a movement and a COLLECT are never held by a boundary (spec/06 R163, R169, R172). -/
def heldIx (c : Cmd) : List Nat :=
  if c.whole then []
  else match c.body with
    | .launch .. | .passage .. => if c.st = .held then [0] else []
    | .dispatch .. => if (c.st = .held ∨ c.st = .admitted) ∧ dispatchLeft c ≠ 0 then [c.nxt] else []
    | .tilepass .. => (c.tiles.filter (·.st == 1)).map (·.k)
    | _ => []

/-- Letterbook records HOLD of the units held at a window boundary (spec/06 R171). -/
def noteHolds (s : State) : State :=
  s.cmds.foldl (fun s c => (heldIx c).foldl (fun s ix =>
    s.note (some (s.qPart c.q)) false 3 (some c.q) (sqOrd c.sq c.ord) (ix * 2 ^ 16 + s.sch.win * 64)) s) s

/-- Window `w` begins: shares that cross, a late start, phase DRAIN of an EXCLUSIVE window unless the last one was of the same partition. -/
def beginWindow (s : State) (w : Nat) (same : Bool) : State :=
  let s := noteHolds s
  let s := { s with units := s.units.map fun (u : Wunit) => if u.share then { u with crossed := true } else u,
                    sch := { s.sch with win := w } }
  let s := s.setF F.SCH_TTSTAT_WIN 0 w
  let s := match lateAt s with
    | some pl => (s.incF F.SCH_STAT_LATE 0).note none false 0xD none (pl.code.1 * 256 + pl.code.2) (w * 64)
    | none => s
  if winExcl (curWin s) ∧ same = false then
    State.setF { ttStop s with sch := { (ttStop s).sch with stretchAt := s.time } } F.SCH_TTSTAT_PHASE 0 1
  else ttRun (s.setF F.SCH_TTSTAT_PHASE 0 0)

/-- DRAIN ends once no unit of another partition runs (spec/06 R175). -/
def drainSettle (s : State) : State :=
  if s.f F.SCH_TTSTAT_PHASE = 1 ∧ unitsNotOf s (exclOwner s) = false then ttRun ((addStretch s).setF F.SCH_TTSTAT_PHASE 0 0) else s

/-- The window after the current one is EXCLUSIVE for the same partition. -/
def nextSame (s : State) : Bool :=
  let last := s.sch.active.length ≤ s.sch.win + 1
  let nx := if last then (if s.fb F.SCH_TTCTL_PEND then (shadowWins s).headD (0, 0) else s.sch.active.headD (0, 0))
    else s.sch.active.getD (s.sch.win + 1) (0, 0)
  winExcl (curWin s) && winExcl nx && winPart nx 1 == exclOwner s

/-- The current window has ended. -/
def windowOver (s : State) : Bool :=
  s.sch.started && s.ctlOn && s.awake && decide (winEnd s s.sch.win ≤ ttPos s)
    && (!winExcl (curWin s) || nextSame s || (s.f F.SCH_TTSTAT_PHASE == 2 && !unitsOf s (exclOwner s)))

/-- Leaves TAIL. -/
def leaveTail (s : State) : State := if s.f F.SCH_TTSTAT_PHASE = 2 then ttRun (addStretch s) else s

/-- The next window of the cycle begins (spec/06 R165). -/
def windowBoundary (s : State) : State :=
  if windowOver s ∧ s.sch.win + 1 < s.sch.active.length then beginWindow (leaveTail s) (s.sch.win + 1) (nextSame s) else s

/-- The shadow timetable and masks become active and hold the previous ones (spec/06 R166). Shadow entries past those of the previous timetable become 0, their reset value: DESIGN CHOICE (log 99), the spec gives them none. -/
def applySwap (s : State) : State :=
  let old := s.sch.active
  let oldN := s.f F.SCH_TTCTL_ACTNWIN
  let new := shadowWins s
  let s := { s with sch := { s.sch with active := new, shadow := (List.range old.length).zip old } }
  let s := (s.setF F.SCH_TTCTL_ACTNWIN 0 new.length).setF F.SCH_TTCTL_SHDNWIN 0 oldN
  let s := (List.range 16).foldl (fun s g =>
    let e := s.f F.SCH_EGRP_PORTS g
    let x := s.f F.SCH_SGRP_STATIONS g
    (((s.setF F.SCH_EGRP_PORTS g (s.f F.SCH_EGRP_ACT_PORTS g)).setF F.SCH_EGRP_ACT_PORTS g e).setF
      F.SCH_SGRP_STATIONS g (s.f F.SCH_SGRP_ACT_STATIONS g)).setF F.SCH_SGRP_ACT_STATIONS g x) s
  s.setF F.SCH_TTCTL_PEND 0 0

/-- The major cycle ends; a pending swap takes effect and the position restarts at window 0 (spec/06 R165, R166). -/
def majorBoundary (s : State) : State :=
  if windowOver s ∧ s.sch.active.length ≤ s.sch.win + 1 then
    let same := nextSame s
    let s := leaveTail s
    let s := s.incF F.SCH_TTSTAT_CYCLES 0
    let s := if s.fb F.SCH_TTCTL_PEND then (applySwap s).note none false 0xE none 0 (s.f F.SCH_TTSTAT_CYCLES) else s
    let s := { s with sch := { s.sch with pos := 0, posAt := s.time, stretchNs := 0, stretchAt := s.time } }
    beginWindow (s.setF F.SCH_CYCLE_T_T0 0 s.time) 0 same
  else s

/-- RUN of an EXCLUSIVE window ends (spec/06 R175). -/
def exclusiveRunEnd (s : State) : State :=
  if s.sch.started ∧ winExcl (curWin s) ∧ s.f F.SCH_TTSTAT_PHASE = 0 ∧ winEnd s s.sch.win ≤ ttPos s ∧ nextSame s = false then
    State.setF { ttStop s with sch := { (ttStop s).sch with stretchAt := s.time } } F.SCH_TTSTAT_PHASE 0 2
  else s

/-- The first failure of *Checks at swap*: cause and where (spec/06 R166). -/
def swapError (s : State) : Option (Nat × Nat) :=
  let n := s.f F.SCH_TTCTL_SHDNWIN
  if n = 0 ∨ 1024 < n then some (1, 0)
  else
    let ws := (List.range n).zip (shadowWins s)
    match ws.find? (fun e => winLen e.2 == 0) with
    | some e => some (1, e.1)
    | none =>
      match ws.find? (fun e => fieldOf e.2.2 62 54 != 0 || fieldOf e.2.2 47 46 != 0 || fieldOf e.2.2 39 38 != 0 || fieldOf e.2.2 31 16 != 0) with
      | some e => some (2, e.1)
      | none =>
        match ws.find? (fun e => winExcl e.2 && (e.2.1 != 0 || winPart e.2 2 != 0 || winPart e.2 3 != 0)) with
        | some e => some (3, e.1)
        | none =>
          let twice (x : Fld) (k : Nat) : Bool := decide (1 < ((List.range 16).filter fun g => (s.f x g).testBit k).length)
          match (List.range s.b.eports).find? (twice F.SCH_EGRP_PORTS) with
          | some k => some (4, k)
          | none => ((List.range s.b.stations).find? (twice F.SCH_SGRP_STATIONS)).map fun n => (5, n)

/-- SCH_TTCTL SWAP. -/
def swapCmd (s : State) : State :=
  match swapError s with
  | some (c, w) => (s.setF F.SCH_ERR_CAUSE 0 c).setF F.SCH_ERR_WHERE 0 w
  | none => ((s.setF F.SCH_ERR_CAUSE 0 0).setF F.SCH_ERR_WHERE 0 0).setF F.SCH_TTCTL_PEND 0 1

/-! ### Migration (spec/04 R127, R128) -/

/-- Two ports have the same class and interface revision. -/
def sameKind (s : State) (a b : Nat) : Bool :=
  s.f F.INT_EPORT_CLASS a == s.f F.INT_EPORT_CLASS b && s.f F.INT_EPORT_IFREV a == s.f F.INT_EPORT_IFREV b

/-- A port that can stand for another: present, of its class and revision, and not reported failed; one in a watchdog reset has reported before (spec/04 R128). -/
def replacement (s : State) (old new : Nat) : Bool :=
  decide (new < s.b.eports) && new != old && (s.fb F.INT_EPORT_REPORTED new || s.sch.resets.any fun e => e.1 == new)
    && !s.sch.failed.contains new && sameKind s old new

/-- Some port that a LAUNCH or a chunk could still use remains. -/
def somePortRemains (s : State) (k : Nat) : Bool := !s.sch.failed.contains k || (List.range s.b.eports).any (replacement s k)

/-- A migration: kind 0 replaces a pinned port, 1 removes a port from the queue's groups, 2 moves the station offset (log 22); where a record governs the queue, it is the recorded one (spec/17 R462). -/
def migrate (s : State) (q kind old new : Nat) : State :=
  let v := s.verdict (s.qPart q) (some q) (.queue q)
  let right : Bool := match v with
    | .free => true
    | .wait => false
    | .must r => lbKind r == 7 && lbBits r 3 15 8 == old % 256 && lbBits r 3 7 0 == new % 256
  let Q := s.q q
  if right = false ∨ Q.st = .disabled ∨ s.ctlOn = false ∨ (s.coreUp 4 || s.coreUp 5) = false ∨ (kind = 0 ∧ replacement s old new = false) ∨ 2 < kind
      ∨ (kind = 1 ∧ s.b.eports ≤ old) ∨ (kind = 2 ∧ s.b.stations ≤ new) then s
  else
    let s := match v with
      | .must r => s.applied r
      | _ => s
    let closed : Place → Bool
      | .stations .. => kind == 2
      | pl => kind != 2 && onPort old pl
    -- a command that ran on the placement and has not completed carries MIGRATED (spec/04 R130)
    let s := { s with cmds := s.cmds.map fun (c : Cmd) => if c.q = q ∧ c.ran.any closed then { c with migrated := true } else c }
    let Q := { Q with pepoch := Q.pepoch + 1,
                      portMap := if kind = 0 then mset (Q.portMap.map fun e => if e.2 = old then (e.1, new) else e) old new else Q.portMap,
                      removed := if kind ≤ 1 then Q.removed.filter (fun k => k != old && (kind == 1 || k != new)) ++ [old] else Q.removed,
                      stOff := if kind = 2 then new else Q.stOff }
    (s.setQ q Q).note (some (s.qPart q)) false 7 (some q) 0 (Q.pepoch.toNat * 2 ^ 32 + old % 256 * 256 + new % 256)

end Sys2Proof.Machine
end

