-- ==== Sys2Proof/Machine/ExecOps.lean ====
section
/-! DEFINITION. What commands of a program do beyond one step: movements (spec/03 R88, R89), MEMSIGNAL (R81), ENQUEUE (spec/04 R119), parcels (R122 to R126), tile passes (R131 to R136), SNAP (spec/17 R449). -/

namespace Sys2Proof.Machine

/-! ### Operands -/

/-- The second operand of an arithmetic command (spec/03 R76). -/
def srcVal (s : State) (q : Nat) : Src → W64
  | .reg g => s.greg q g
  | .imm v => sext 24 v

/-- The value of a register or word operand. -/
def valOfQ (s : State) (q : Nat) : Val → W64
  | .reg g => s.greg q g
  | .word w => w

/-- The condition codes of spec/03 R73. -/
def condOf (c : Nat) (a b : W64) : Bool :=
  match c with
  | 0 => a == b
  | 1 => a != b
  | 2 => decide (a < b)
  | 3 => decide (b ≤ a)
  | 4 => BitVec.slt a b
  | 5 => !BitVec.slt a b
  | 6 => a &&& b == 0
  | _ => a &&& b != 0

/-- The result of an arithmetic or logic command (spec/03 R76). -/
def AluOp.eval (o : AluOp) (a b : W64) : W64 :=
  match o with
  | .add => a + b
  | .sub => a - b
  | .and => a &&& b
  | .or => a ||| b
  | .xor => a ^^^ b
  | .shl => a <<< (b.toNat % 64)
  | .shr false => a >>> (b.toNat % 64)
  | .shr true => BitVec.sshiftRight a (b.toNat % 64)

/-- Ends a placed command with the status of its units, or the status of its abort (spec/02 R57). -/
def endPlaced (s : State) (id : Nat) (st : Status) : State :=
  match s.cmd? id with
  | some c => endCmd s id (c.abort.getD st)
  | none => s

/-- A replay run diverges at a decision point of a command, which completes with REPLAY_DIVERGED (spec/17 R463). -/
def divergeCmd (s : State) (cause : Nat) (r : List W64) (c : Cmd) : State :=
  if s.f F.OBS_RP_STAT_STATE ≠ 1 then s
  else
    let s := s.diverge cause r c.q c.sq c.ord
    if c.placed = false then endCmd s c.id .replayDiverged
    else if c.live = 0 then endPlaced s c.id .replayDiverged
    else s.setCmd { c with abort := some .replayDiverged }

/-- Settles every unit of a command. -/
def settleUnits (s : State) (id : Nat) : State := (s.units.filter (·.cmd == id)).foldl (fun s u => settleUnit s u) s

/-- The unit of a command that runs. -/
def unitOf (s : State) (id : Nat) : Option Wunit := s.units.find? (·.cmd == id)

/-- Requester of a placement (spec/07 R186). -/
def Place.reqId : Place → Nat
  | .port k => k
  | .courier k => 96 + k
  | .nmu => 113
  | .stations f _ => 32 + f
  | .relay _ => 112

/-! ### Movements -/

/-- Bytes of a movement. -/
def moveTotal : Body → Nat
  | .copy _ _ _ _ _ len _ _ => len
  | .fill _ _ len _ _ => len
  | .dma _ _ _ _ _ _ _ _ rows rb => rows * rb
  | _ => 0

/-- A COPY whose destination overlaps its source from above goes from its end to its beginning, so that it reads the source as it was before the command (spec/03 R88). -/
def moveBack : Body → Bool
  | .copy ssp dsp _ _ _ len src dst => ssp == dsp && decide (src.toNat < dst.toNat) && decide (dst.toNat < src.toNat + len)
  | _ => false

/-- The piece of a movement at a position: source, destination, length. It crosses no 512-byte boundary of its source, or of FILL's destination. -/
def pieceAt (b : Body) (pos : Nat) : Nat × Nat × Nat :=
  match b with
  | .copy _ _ _ _ _ len src dst =>
    if moveBack b then
      let e := src.toNat + len - pos
      let a := max src.toNat ((e - 1) / 512 * 512)
      (a, dst.toNat + (a - src.toNat), e - a)
    else (src.toNat + pos, dst.toNat + pos, min (512 - (src.toNat + pos) % 512) (len - pos))
  | .fill _ _ len dst _ => (0, dst.toNat + pos, min (512 - (dst.toNat + pos) % 512) (len - pos))
  | .dma _ _ _ _ src dst ss ds _ rb =>
    let r := pos / rb
    let a := src.toNat + r * ss + pos % rb
    (a, dst.toNat + r * ds + pos % rb, min (512 - a % 512) (rb - pos % rb))
  | _ => (0, 0, 0)

/-- Space, seal and transpose of the source and the destination: (space, sealed) each, and TRN. -/
def moveFlags : Body → (Bool × Bool) × (Bool × Bool) × Bool
  | .copy ssp dsp trn ss ds _ _ _ => ((ssp, ss), (dsp, ds), trn)
  | .fill sp _ _ _ _ => ((false, false), (sp, false), false)
  | .dma ssp dsp ss ds _ _ _ _ _ _ => ((ssp, ss), (dsp, ds), false)
  | _ => ((false, false), (false, false), false)

/-- A movement goes to the near-memory unit: every range lies in the gallery (spec/07 R202). -/
def usesNmu : Body → Bool
  | .copy ssp dsp _ _ _ _ _ _ => ssp && dsp
  | .fill sp _ _ _ _ => sp
  | .dma ssp dsp _ _ _ _ _ _ _ _ => ssp && dsp
  | _ => false

/-- Bytes `pos` to `pos + n - 1` of FILL's repeated pattern (spec/07 R202). -/
def patternBytes (plen : Nat) (ws : List W64) (pos n : Nat) : List Byte :=
  let p := bytesOf ws
  (List.range n).map fun i => p.getD ((pos + i) % max 1 plen) 0

/-- An access of a movement. -/
def moveOp (s : State) (c : Cmd) (u : Wunit) (gal sealed trn wr : Bool) (addr n : Nat) (data : List Byte) : State :=
  s.startOp { mkOp (.move c.id wr) (s.qIdent c.q) u.place.reqId (if gal then .gal else .va) addr n wr data with sealed, trn }

/-- A movement ends with its first failed access in address order (spec/03 R89). -/
def moveFail (s : State) (c : Cmd) (u : Wunit) (o : Op) : State :=
  let s := settleUnit s u
  if c.abort.isSome ∧ o.xfail.isNone then endPlaced s c.id o.status else endByOp s c.id o

/-- An access that meets a page fault of a RESTARTABLE command (spec/10 R286). -/
def restarts (c : Cmd) (o : Op) : Bool := c.rst && (match o.xfail with
  | some x => x.pf
  | none => false)

/-- The next access of a movement, or its end. -/
def moveNext (s : State) (id : Nat) : State :=
  match s.cmd? id, unitOf s id with
  | some c, some u =>
    let total := moveTotal c.body
    if total ≤ c.nxt then
      match c.failOp with
      | some o => moveFail s c u o
      | none => endPlaced (settleUnit s u) id .done
    else
      let ((sg, ss), (dg, ds), trn) := moveFlags c.body
      let (a, d, n) := pieceAt c.body c.nxt
      match c.body with
      | .fill _ plen _ _ pat => moveOp s c u dg ds false true d n (patternBytes plen pat c.nxt n)
      | _ => moveOp s c u sg ss (trn && sg) false a n []
  | _, _ => s

/-- An access of a movement has ended (spec/03 R89). -/
def moveDone (s : State) (id : Nat) (o : Op) : State :=
  match s.cmd? id, unitOf s id with
  | some c, some u =>
    if o.status ≠ .done then
      -- the bytes before a failed access are written, so a COPY that goes downwards goes on (spec/03 R89)
      if moveBack c.body && !restarts c o then moveNext (s.setCmd { c with nxt := c.nxt + (pieceAt c.body c.nxt).2.2, failOp := some o }) id
      else moveFail s c u o
    else
      let ((sg, _), (dg, ds), trn) := moveFlags c.body
      if o.wr then
        let s := s.setUnit { u with bytes := u.bytes + o.len }
        moveNext (s.setCmd { c with nxt := c.nxt + o.len, crc := (c.crc + crc64 o.data) % 2 ^ 64 }) id
      else
        let d := (pieceAt c.body c.nxt).2.1
        let data := if trn && !sg then transpose o.data else o.data
        moveOp s c u dg ds false true d o.len data
  | _, _ => s

/-! ### MEMSIGNAL (spec/03 R81) -/

def memsigWrite (s : State) (c : Cmd) (addr : Nat) (v : W64) : State :=
  s.startOp { mkOp (.memsigWrite c.id) (s.qIdent c.q) 112 .va addr 8 true (toBytes 8 v.toNat) with memOnly := true }

/-- Starts MEMSIGNAL; its value is kept with the command. -/
def startMemsig (s : State) (id : Nat) (max : Bool) (v : W64) (addr : Nat) : State :=
  match s.cmd? id with
  | none => s
  | some c =>
    let s := s.setCmd { c with sumV := v }
    if max then s.startOp { mkOp (.memsigRead id) (s.qIdent c.q) 112 .va addr 8 false [] with memOnly := true } else memsigWrite s c addr v

/-- A word is free again for other writes once its MEMSIGNAL has ended. -/
def unlockWord (s : State) (id : Nat) : State := State.pumpM { s with locks := s.locks.filter (·.1 != id) }

def memsigReadDone (s : State) (id : Nat) (o : Op) : State :=
  match s.cmd? id with
  | none => unlockWord s id
  | some c =>
    if o.status ≠ .done then unlockWord (endByOp s id o) id
    else if (wordsOf 1 o.data).headD 0 < c.sumV then memsigWrite s c o.addr c.sumV
    else unlockWord (endCmd s id .done) id

/-! ### SNAP (spec/17 R449, R450) -/

/-- The words of a counter set of a partition; each set is sampled whole. -/
def counterSet (s : State) (p set : Nat) : List Nat :=
  let l (n : Nat) (f : Nat → Nat) : List Nat := (List.range n).map f
  match set with
  | 0 => l 4 (fun w => s.f F.SCH_ACC_COUNT (4 * p + w)) ++ [(bal s p % 2 ^ 64).toNat, s.f F.OBS_PW_ERR_CONTAINED p * 2 ^ 32 + s.f F.OBS_PW_ERR_CORRECTED p]
  | 1 => l 32 fun k => s.f F.OBS_PW_ENG_NS (p * 32 + k)
  | 2 => l 64 fun n => s.f F.OBS_PW_STN_NS (p * 64 + n)
  | 3 => l 64 fun h => s.f F.OBS_PW_HALL_SLOTS (p * 64 + h)
  | 0x10 => l 32 fun k => s.f F.OBS_ENG_BUSY_NS k
  | 0x11 => l 64 fun n => s.f F.OBS_STN_BUSY_NS n
  | 0x12 => l 64 fun h => s.f F.OBS_HALL_SLOTS_SLOTS h
  | 0x13 => l 16 fun g => s.f F.FLT_CNT_CONTAINED g * 2 ^ 32 + s.f F.FLT_CNT_CORRECTED g
  | _ => l 256 fun i => s.f F.SCH_ACC_COUNT i

/-- A set with its header. -/
def snapWords (s : State) (p set : Nat) : List W64 :=
  let d := counterSet s p set
  [BitVec.ofNat 64 (set * 2 ^ 56 + d.length * 2 ^ 40 + p * 2 ^ 34), BitVec.ofNat 64 s.time, 0, 0, 0, 0, 0, 0] ++ d.map (BitVec.ofNat 64)

/-! ### ENQUEUE (spec/04 R119) -/

/-- The count of `t` that its scan will examine next. -/
def scanSq (s : State) (t : Nat) : BitVec 32 := (s.q t).sq

/-- An ENQUEUE may take a count: its target's ring has space and is translated. -/
def enqRoom (s : State) (t : Nat) : Bool :=
  (BitVec.ofNat 32 (s.f F.QE_ENQ_PCOUNT t) - scanSq s t).toNat < 2 ^ s.sqLog t && (s.q t).sqOk

/-- An ENQUEUE to `t` waits at step 3. -/
def enqWaitsFor (t : Nat) (c : Cmd) : Bool :=
  c.aux == 1 && c.st == .running && (match c.body with
    | .enqueue x _ => x == t
    | _ => false)

/-- Marks an ENQUEUE as waiting at step 3 with its image, and with its place in the order of arrival at the queue engine (spec/04 R120). -/
def enqWait (s : State) (c : Cmd) (img : List Byte) : State :=
  if c.nxt = 0 then (s.setCmd { c with aux := 1, buf := img, nxt := s.nid }).bump else s.setCmd { c with aux := 1, buf := img }

/-- No ENQUEUE that reached the queue engine earlier waits for `t` (spec/04 R120). -/
def enqFirst (s : State) (c : Cmd) (t : Nat) : Bool :=
  !(s.cmds.any fun x => x.id != c.id && enqWaitsFor t x && (c.nxt == 0 || x.nxt < c.nxt))

/-- Step 4 and 5: assigns the count and writes the image. -/
def enqPut (s : State) (c : Cmd) (t : Nat) (img : List Byte) : State :=
  let n := s.f F.QE_ENQ_PCOUNT t
  let s := s.note (some (s.qPart c.q)) false 4 (some c.q) (sqOrd c.sq c.ord) (t * 2 ^ 52 + n)
  let s := s.setF F.QE_ENQ_PCOUNT t (n + 1)
  let m := s.sqLog t
  let img := match wordsOf 8 img with
    | [] => img
    | w :: r => bytesOf ((if phaseOf m (BitVec.ofNat 32 n) then w ||| 0x8000000000000000#64 else w &&& 0x7FFFFFFFFFFFFFFF#64) :: r)
  let s := s.setCmd { c with aux := 2, buf := img, sumV := BitVec.ofNat 64 n }
  s.startOp (mkOp (.enqWrite c.id t) (s.qIdent t) 112 (.spans (s.q t).sqRing) (64 * (n % 2 ^ m)) 64 true img)

/-- Steps 2 to 5, as far as they go (spec/04 R119, R120). -/
def enqGo (s : State) (id : Nat) (img : List Byte) : State :=
  match s.cmd? id with
  | some c =>
    match c.body with
    | .enqueue t _ =>
      if s.f F.PRT_STAT_STATE (s.qPart t) = 2 then endCmd s id .partitionDisabled
      else if (s.q t).st = .disabled ∨ (s.q t).st = .draining then
        endCmd (s.setF F.QE_ENQ_LOST t (s.f F.QE_ENQ_LOST t + 1)) id .done
      else if enqRoom s t = false then enqWait s c img
      else
        match s.verdict (s.qPart c.q) (some c.q) (.target t) with
        | .free => if enqFirst s c t then enqPut s c t img else enqWait s c img
        | .wait => enqWait s c img
        | .must r =>
          let n := s.f F.QE_ENQ_PCOUNT t
          if lbBits r 2 63 32 ≠ c.sq % 2 ^ 32 ∨ lbBits r 2 31 12 ≠ c.ord % 2 ^ 20 then enqWait s c img
          else if s.rpState (s.qPart c.q) ≠ 1 ∨ lbBits r 3 31 0 = n then enqPut (s.applied r) c t img
          -- the recorded count waits for PCOUNT, which has passed it or not (spec/17 R462, R463)
          else if (BitVec.ofNat 32 (lbBits r 3 31 0) - BitVec.ofNat 32 n).msb then divergeCmd s 2 r c
          else enqWait s c img
    | _ => s
  | none => s

/-- A ring of queue `t` (spec/02 R45, R46): its pending bit. -/
def ring (s : State) (t src : Nat) : State :=
  queueSettle ((s.setQ t { s.q t with pend := true }).note (some (s.qPart t)) true 0x10 (some t) (src * 2 ^ 62) 0) t

/-- The image has been written (step 6): the pending bit of `t` is set. DEDUCED (log 95): step 6 states it for every state of `t`, and it is no ring that R46 could count in QE_DB_STRAY. -/
def enqWritten (s : State) (id t : Nat) (o : Op) : State :=
  endCmd (ring s t 1) id (if o.status = .done then .done else .uncorrected)

/-! ### Parcels (spec/04 R122 to R126) -/

def setParcel (s : State) (x : Parcel) : State :=
  if (findParcel s x.part x.num).isSome then
    { s with pcls := s.pcls.map fun y => if y.part = x.part ∧ y.num = x.num then x else y }
  else { s with pcls := s.pcls ++ [x] }

def getParcel (s : State) (p n : Nat) : Parcel := (findParcel s p n).getD ⟨p, n, 0, none, none, []⟩

/-- A parcel is defined (spec/04 R123). -/
def defined (s : State) (p n : Nat) : Bool := (getParcel s p n).newest.isSome

/-- The parcel memory of a partition: base and size in bytes; in DRAM or in the gallery. -/
def pclMem (s : State) (p : Nat) (dram : Bool) : Nat × Nat :=
  if dram then (s.f F.QE_PCL_MEM_MBASE p * 4096, s.f F.QE_PCL_MEM_MSIZE p * 1048576)
  else (s.f F.QE_PCL_GAL_GBASE p * 65536, s.f F.QE_PCL_GAL_GSIZE p * 65536)

/-- The lowest place at which `n` bytes fit between the editions of a parcel memory (log 11). -/
def fitAt (s : State) (p : Nat) (dram : Bool) (n : Nat) : Option Nat :=
  let (base, size) := pclMem s p dram
  let mine := s.eds.filter fun e => e.key.part == p && e.dram == dram
  let ok (a : Nat) : Bool := decide (base ≤ a) && decide (a + n ≤ base + size) && mine.all fun e => !overlaps a n e.addr (8 * e.len)
  (base :: mine.map fun e => e.addr + 8 * e.len).foldl (fun o a => if ok a then (match o with
    | none => some a
    | some b => some (min a b)) else o) none

/-- The edition a command is making. -/
def makingOf (s : State) (id : Nat) : Option Edition := s.eds.find? fun e => !e.published && e.pins == id

/-- Releases a claim; PARCEL_CLAIM gives it to the next command. -/
def releaseClaim (s : State) (id : Nat) : State :=
  reclaim { s with pcls := s.pcls.map fun x => if x.claim = some id then { x with claim := none } else { x with waiting := x.waiting.filter (· != id) },
                   eds := s.eds.filter fun e => e.published || e.pins != id }

/-- The parcel a command names. -/
def parcelOf : Body → Option Nat
  | .pdef _ n _ _ => some n
  | .ppatch _ _ n _ _ => some n
  | .pfree n => some n
  | _ => none

/-- Ends a parcel command without a publication. -/
def parcelFail (s : State) (id : Nat) (st : Status) : State := endCmd (releaseClaim s id) id st

/-- Makes room for the new edition and reads its words: `pins` holds the maker until it is published. -/
def startEdition (s : State) (c : Cmd) (dram : Bool) (len : Nat) : Option State :=
  let p := s.qPart c.q
  match parcelOf c.body with
  | none => none
  | some n =>
    let x := getParcel s p n
    let gen := if x.newest.isSome then x.gen else x.gen + 1
    let ed := (x.newest.getD 0) + 1
    if 2 ^ 32 ≤ ed then none
    else match fitAt s p dram (8 * len) with
      | none => none
      | some a => some { s with eds := s.eds ++ [⟨⟨p, n, gen, ed⟩, dram, a, len, c.id, false⟩] }

def readWords (s : State) (c : Cmd) (src : W64) (n : Nat) : State :=
  s.startOp (mkOp (.parcelRead c.id) (s.qIdent c.q) 112 .va src.toNat (8 * n) false [])

/-- A command holds its claim and goes on (spec/03 R98, spec/04 R124). -/
def parcelGo (s : State) (id : Nat) : State :=
  match s.cmd? id with
  | none => s
  | some c =>
    let p := s.qPart c.q
    match c.body with
    | .pdef loc _ src len =>
      match startEdition s c loc len with
      | none => parcelFail s id .unsupported
      | some s => readWords (s.setCmd { c with aux := 2 }) c src len
    | .ppatch _ off n _ cnt =>
      match (getParcel s p n).newest with
      | none => parcelFail s id .unsupported
      | some ed =>
        match edition? s ⟨p, n, (getParcel s p n).gen, ed⟩ with
        | none => parcelFail s id .unsupported
        | some e =>
          if e.len < off + cnt then parcelFail s id .unsupported
          else match startEdition s c e.dram e.len with
            | none => parcelFail s id .unsupported
            | some s =>
              (s.setCmd { c with aux := 1 }).startOp (mkOp (.parcelRead id) (s.qIdent c.q) 112
                (.spans [⟨0, 8 * e.len, e.addr, if e.dram then .mem false 0 else .gallery⟩]) 0 (8 * e.len) false [])
            -- the patch words are read next
    | .pfree n => if defined s p n then s.setCmd { c with aux := 4 } else parcelFail s id .done
    | _ => s

/-- Asks for the claim of a parcel. -/
def parcelClaimCmd (s : State) (id n : Nat) : State :=
  match s.cmd? id with
  | none => s
  | some c =>
    let x := getParcel s (s.qPart c.q) n
    if x.claim.isNone ∧ x.waiting = [] then parcelGo (setParcel s { x with claim := some id }) id
    else setParcel s { x with waiting := x.waiting ++ [id] }

/-- Writes the new edition's words to its place. -/
def writeEdition (s : State) (c : Cmd) (data : List Byte) : State :=
  match makingOf s c.id with
  | none => s
  | some e =>
    (s.setCmd { c with aux := 3 }).startOp (mkOp (.parcelWrite c.id) (s.qIdent c.q) 112
      (.spans [⟨0, 8 * e.len, e.addr, if e.dram then .mem false 0 else .gallery⟩]) 0 (8 * e.len) true data)

def parcelReadDone (s : State) (id : Nat) (o : Op) : State :=
  match s.cmd? id with
  | none => releaseClaim s id
  | some c =>
    if o.status ≠ .done then endByOp (releaseClaim s id) id o
    else match c.body, c.aux with
      | .ppatch _ _ _ src cnt, 1 => readWords (s.setCmd { c with aux := 2, buf := o.data }) c src cnt
      | .ppatch _ off _ _ _, _ => writeEdition s c (splice c.buf (8 * off) o.data)
      | _, _ => writeEdition s c o.data

def parcelWriteDone (s : State) (id : Nat) (o : Op) : State :=
  match s.cmd? id with
  | none => releaseClaim s id
  | some c => if o.status ≠ .done then endByOp (releaseClaim s id) id o else s.setCmd { c with aux := 4 }

/-- The publication of a parcel's claimant (spec/04 R124); the mirror engine learns of the edition (spec/12 R337). -/
def publish (s : State) (p n : Nat) : State :=
  let x := getParcel s p n
  match x.claim.bind s.cmd? with
  | none => s
  | some c =>
    if c.aux ≠ 4 then s
    else match c.body with
      | .pfree _ =>
        let s := setParcel s { x with newest := none, claim := none }
        let s := if s.mirPart p then s.mirror (.parcel p n x.gen (x.newest.getD 0) false 0 0 true) else s
        endCmd (reclaim s) c.id .done
      | b =>
        match makingOf s c.id with
        | none => s
        | some e =>
          let s := { s with eds := s.eds.map fun y => if y.key = e.key then { y with published := true, pins := 0 } else y }
          let s := reclaim (setParcel s { x with newest := some e.key.ed, gen := e.key.gen, claim := none })
          let s := if s.mirPart p then s.mirror (.parcel p n e.key.gen e.key.ed e.dram e.addr e.len false) else s
          let s := match b with
            | .ppatch gd _ _ _ _ => (s.setG c.q gd (BitVec.ofNat 64 e.key.ed)).setCmd { c with sumR := gd, sumV := BitVec.ofNat 64 e.key.ed }
            | _ => s
          endCmd s c.id .done

/-- The next waiting command receives a parcel's claim. -/
def giveClaim (s : State) (p n : Nat) : State :=
  let x := getParcel s p n
  match x.claim, x.waiting with
  | none, id :: r => parcelGo (setParcel s { x with claim := some id, waiting := r }) id
  | _, _ => s

/-- A CALLP of the queue has asked for its pin. -/
def asksPin (q : Nat) (c : Cmd) : Bool :=
  c.q == q && (match c.body with
    | .callp _ => c.aux == 1 && c.st == .running
    | _ => false)

/-- A CALLP's pin request reaches the parcel table (spec/04 R125). -/
def pinNewest (s : State) (q : Nat) : State :=
  match s.cmds.find? (asksPin q) with
  | none => s
  | some c =>
    match c.body with
    | .callp n =>
      -- its program has ended with another command's status: nothing is called (spec/03 R102)
      if (curDesc s q).map (·.count) ≠ some c.sq then endCmd s c.id .done else
      let p := s.qPart q
      let x := getParcel s p n
      let go (s : State) (ed : Nat) : State :=
        let k : EdKey := ⟨p, n, x.gen, ed⟩
        let s := s.note (some p) false 5 (some q) (sqOrd c.sq c.ord) (n * 2 ^ 32 + ed)
        let s := pin s k true
        let Q := s.q q
        let s := s.setQ q { Q with stack := ⟨Q.loc, Q.pc, match Q.stack with
          | [] => c.word
          | f :: r => (r.getLastD f).top⟩ :: Q.stack, loc := some k, pc := 0, win := [], winAt := 0 }
        endCmd s c.id .done
      match s.verdict p (some q) (.queue q), x.newest with
      | .wait, _ => s
      | .free, some ed => go s ed
      | .must r, _ =>
        let ed := lbBits r 3 31 0
        let mine := lbBits r 3 43 32 == n && lbBits r 2 63 32 == c.sq % 2 ^ 32 && lbBits r 2 31 12 == c.ord % 2 ^ 20
        if lbKind r ≠ 5 then s
        else if mine ∧ (edition? s ⟨p, n, x.gen, ed⟩).any (·.published) then go (s.applied r) ed
        -- another call, or an edition that no later one can become (spec/17 R463)
        else if s.rpState p = 1 ∧ (mine = false ∨ x.newest.any (fun m => decide (ed ≤ m))) then divergeCmd s 2 r c
        else s
      | .free, none =>
        -- the definition ended between the check at start and the pin (log 23)
        let Q := s.q q
        malformedCmd ((s.dropCmd c.id).setQ q { Q with blk := .ready, pc := c.word, ord := Q.ord }) q
    | _ => s

/-! ### Tile passes (spec/04 R131 to R136) -/

/-- The fields of the tile-list header: ENTRIES, NSLOT, RBPP, ORDER, TBSIZE, RPITCH. -/
structure TileHdr where
  entries : Nat
  nslot : Nat
  rbpp : Nat
  order : Nat
  tbsize : Nat
  rpitch : Nat

def tileHdr (l : List Byte) : TileHdr :=
  let w (i : Nat) : W64 := (wordsOf 8 l).getD i 0
  ⟨(w 0).toNat, fieldOf (w 1) 63 56, fieldOf (w 1) 55 48, fieldOf (w 1) 47 40, fieldOf (w 1) 31 0, fieldOf (w 2) 31 0⟩

/-- The header's ranges and reserved fields (spec/04 R131). -/
def tileHdrOk (l : List Byte) (tx : Nat) : Bool :=
  let h := tileHdr l
  let ws := wordsOf 8 l
  h.entries % 16 == 0 && 1 ≤ h.nslot && h.nslot ≤ 64 && 1 ≤ h.rbpp && h.rbpp ≤ 16 && h.order ≤ 1 && h.tbsize % 512 == 0
    && 1024 * h.rbpp ≤ h.tbsize && 32 * tx * h.rbpp ≤ h.rpitch && fieldOf (ws.getD 1 0) 39 32 == 0 && fieldOf (ws.getD 2 0) 63 32 == 0
    && (ws.drop 3).all (· == 0)

/-- The Morton key of a tile (spec/04 R133). -/
def morton (tx ty : Nat) : Nat := ((List.range 16).map fun i => (tx / 2 ^ i % 2) * 4 ^ i + (ty / 2 ^ i % 2) * 4 ^ i * 2).sum

/-- The tile that comes `n`-th in visit order: (tx, ty). In Morton order the keys of the screen's tiles ascend. -/
def mortonNth (tx ty : Nat) : Nat → Nat → Nat → Nat × Nat
  | 0, _, _ => (0, 0)
  | fuel + 1, key, n =>
    let x := ((List.range 16).map fun i => key / 4 ^ i % 2 * 2 ^ i).sum
    let y := ((List.range 16).map fun i => key / 4 ^ i / 2 % 2 * 2 ^ i).sum
    if x < tx ∧ y < ty then (if n = 0 then (x, y) else mortonNth tx ty fuel (key + 1) (n - 1)) else mortonNth tx ty fuel (key + 1) n

def tileAt (order tx ty n : Nat) : Nat × Nat :=
  if order = 0 then (n % max 1 tx, n / max 1 tx)
  else mortonNth tx ty (4 * (max tx ty) ^ 2 + 4) 0 n

/-- The fields of a TILEPASS body: TX, TY, TBUF, RESOLVE. -/
def tileDims : Body → Nat × Nat × Nat × Nat
  | .tilepass _ _ _ _ tx ty tb _ rv => (tx, ty, tb, rv.toNat)
  | _ => (0, 0, 0, 0)

/-- A TILEPASS ends when every tile has been visited, or none more is started, and no started tile is left (spec/04 R136). -/
def tileDone (s : State) (id : Nat) : State :=
  match s.cmd? id with
  | none => s
  | some c =>
    let (tx, ty, _, _) := tileDims c.body
    let stop := c.fails ≠ [] ∨ c.abort.isSome
    let tiles := if stop then c.tiles.filter (·.st != 0) else c.tiles
    if tiles.all (·.st == 4) ∧ (stop ∨ tx * ty ≤ c.nxt) ∧ (s.units.any (·.cmd == id)) = false
        ∧ (s.ops.any fun o => o.pur == .tileEntry id || o.pur == .tileHdr id) = false then
      match c.st with
      | .aside _ => s
      | _ => endPlaced (s.setCmd { c with tiles := [] }) id ((firstFail c).getD .done)
    else s

/-- Reads the next entry of the table, one at a time (spec/04 R132). -/
def tileNext (s : State) (id : Nat) : State :=
  match s.cmd? id with
  | none => s
  | some c =>
    let (tx, ty, _, _) := tileDims c.body
    let h := tileHdr c.buf
    if c.nxt < tx * ty ∧ c.tiles.any (·.st == 0) = false ∧ c.fails = [] ∧ c.abort.isNone
        ∧ (s.ops.any fun o => o.pur == .tileEntry id) = false then
      let (x, y) := tileAt h.order tx ty c.nxt
      s.startOp (mkOp (.tileEntry id) (s.qIdent c.q) 112 .va (h.entries + 16 * (y * tx + x)) 16 false [])
    else tileDone s id

def tileHdrDone (s : State) (id : Nat) (o : Op) : State :=
  match s.cmd? id with
  | none => s
  | some c =>
    let (tx, _, _, _) := tileDims c.body
    if o.status ≠ .done then endByOp s id o
    else if tileHdrOk o.data tx = false then endPlaced s id .unsupported
    else tileNext (s.setCmd { c with buf := o.data }) id

/-- An access made for tile `k`, or for the entry of the tile that would be numbered `k`, has failed: no further tile starts, the tiles already started run to completion and their resolves are written; a page fault of a RESTARTABLE TILEPASS sets it aside (spec/04 R136, spec/10 R275, R286). -/
def tileXfail (s : State) (c : Cmd) (k : Nat) (o : Op) : State :=
  match o.xfail with
  | some x =>
    if x.pf ∧ c.rst then cmdXfail s c o x
    else tileDone (raiseXfail (s.setCmd { c with stopQ := true, fails := c.fails ++ [(k, x.status)] }) c o x) c.id
  | none => tileDone (s.setCmd { c with fails := c.fails ++ [(k, o.status)] }) c.id

/-- Tiles that hold work are numbered in visit order; `aux / 2^64` counts them. -/
def tileEntryDone (s : State) (id : Nat) (o : Op) : State :=
  match s.cmd? id with
  | none => s
  | some c =>
    if isAside c then s
    else if o.status ≠ .done then tileXfail s c (c.aux / 2 ^ 64) o
    else
      let (tx, ty, _, _) := tileDims c.body
      let h := tileHdr c.buf
      let (x, y) := tileAt h.order tx ty c.nxt
      let ws := wordsOf 2 o.data
      let n := fieldOf (ws.getD 1 0) 31 0
      if n = 0 then tileNext (s.setCmd { c with nxt := c.nxt + 1 }) id
      else s.setCmd { c with nxt := c.nxt + 1, aux := c.aux + 2 ^ 64, tiles := c.tiles ++ [⟨c.aux / 2 ^ 64, x, y, (ws.getD 0 0).toNat, n, 0, 0⟩] }

def setTile (c : Cmd) (t : TileSt) : Cmd := { c with tiles := c.tiles.map fun x => if x.k = t.k then t else x }

/-- A per-tile launch of the command waits to start. -/
def tileWaits (q : Nat) (c : Cmd) : Bool :=
  c.q == q && c.abort.isNone && c.fails == [] && c.tiles.any (·.st == 0) && (c.st == .held || c.st == .admitted)

/-- A waiting per-tile launch starts (spec/04 R134). -/
def tileStart (s : State) (q : Nat) : State :=
  match s.cmds.find? (tileWaits q) with
  | none => s
  | some c =>
    match c.tiles.find? (·.st == 0) with
    | none => s
    | some t =>
      let n := (tileHdr c.buf).nslot
      if t.k < n ∨ (c.tiles.any fun x => x.k == t.k - n && x.st != 4) = false then
        tileNext (s.setCmd (setTile c { t with st := 1 })) c.id
      else s

/-- The engine command of a per-tile launch (spec/04 R134, spec/18 R483). -/
def tileHeader (s : State) (c : Cmd) (u : Wunit) (t : TileSt) : List W64 :=
  let h := tileHdr c.buf
  let (_, _, tb, _) := tileDims c.body
  engHeader s u 2 (t.tx * 2 ^ 48 + t.ty * 2 ^ 32 + t.count) t.list (h.rbpp * 2 ^ 56 + tb + t.k % h.nslot * h.tbsize)

/-- A tile has failed (spec/04 R136). -/
def tileFail (s : State) (c : Cmd) (t : TileSt) (st : Status) : State :=
  tileDone (s.setCmd { setTile c { t with st := 4 } with fails := c.fails ++ [(t.k, st)] }) c.id

/-- Reads row `t.row` of a tile's colour, or ends its resolve (spec/04 R135). -/
def resolveRow (s : State) (c : Cmd) (t : TileSt) (u : Wunit) : State :=
  let h := tileHdr c.buf
  let (_, _, tb, _) := tileDims c.body
  if t.row = 32 then
    let s := settleUnit s u
    match s.cmd? c.id with
    | some c => tileNext (s.setCmd (setTile c { t with st := 4 })) c.id
    | none => s
  else s.startOp (mkOp (.resolve c.id t.k t.row false) (s.qIdent c.q) u.place.reqId .gal
    (tb + t.k % h.nslot * h.tbsize + t.row * 32 * h.rbpp) (32 * h.rbpp) false [])

/-- A resolve of the command waits for a courier. -/
def resolveWaits (q : Nat) (c : Cmd) : Bool := c.q == q && c.tiles.any (·.st == 3)


/-- An access of a resolve has ended. -/
def resolveDone (s : State) (id k row : Nat) (wr : Bool) (o : Op) : State :=
  match s.cmd? id, s.units.find? (fun u => u.cmd == id && u.ix == k && (match u.place with
      | .courier _ => true
      | _ => false)) with
  | some c, some u =>
    match c.tiles.find? (·.k == k) with
    | none => s
    | some t =>
      let h := tileHdr c.buf
      let (_, _, _, rv) := tileDims c.body
      if isAside c then settleUnit s u
      else if o.status ≠ .done then
        let s := settleUnit s u
        match s.cmd? id with
        | some c => tileXfail s (setTile c { t with st := 4 }) k o
        | none => s
      else if wr then
        let s := s.setUnit { u with bytes := u.bytes + o.len }
        resolveRow s c { t with row := row + 1 } { u with bytes := u.bytes + o.len }
      else s.startOp (mkOp (.resolve id k row true) (s.qIdent c.q) u.place.reqId .va
        (rv + (32 * t.ty + row) * h.rpitch + 32 * t.tx * h.rbpp) (32 * h.rbpp) true o.data)
  | _, _ => s

end Sys2Proof.Machine
end

