-- ==== Sys2Proof/Machine/StationOps.lean ====
section
/-! DEFINITION. Operations of the transit stations (spec/09): passage tables and their checks, loading, streams, the sequencer, ends, failures and halts. -/

namespace Sys2Proof.Machine

/-! ### Stations -/

def State.stn (s : State) (n : Nat) : Stn := mget {} s.stns n

def State.setStn (s : State) (n : Nat) (v : Stn) : State := { s with stns := mset s.stns n v }

/-- Island of a station (spec/01 R21). -/
def stnIsland (s : State) (n : Nat) : Nat := 2 + s.b.halls + n / 4

/-- The sequencer of a station runs: RUNNING, its domain on, its island clock not gated, no halt (spec/09 R258, R263). -/
def stnRuns (s : State) (n : Nat) : Bool :=
  s.f F.STN_PSTAT_STATE n == 2 && s.ctlOn && !s.halted && s.domOn (s.b.domStation n) && !s.fb F.PWR_ISL_GATED (stnIsland s n)

/-- Position of a station in its passage, and the station at the next or previous position. -/
def nextStn (s : State) (n : Nat) : Option Nat :=
  if s.f F.STN_PSTAT_POS n + 1 < (s.stn n).npos then some ((n + 1) % s.b.stations) else none

def prevStn (s : State) (n : Nat) : Option Nat :=
  if 0 < s.f F.STN_PSTAT_POS n then some ((n + s.b.stations - 1) % s.b.stations) else none

/-- The stations of a passage command, in position order. -/
def stationsOf (s : State) (cmd : Nat) : List Nat :=
  match s.units.find? (·.cmd == cmd) with
  | some u => match u.place with
    | .stations f m => (List.range m).map fun i => (f + i) % s.b.stations
    | _ => []
  | none => []

/-- The command of the passage that runs from station `first`. -/
def passageAt (s : State) (first : Nat) : Option Nat :=
  (s.units.find? fun u => match u.place with
    | .stations f _ => f == first
    | _ => false).map (·.cmd)

/-! ### Registers of a station (spec/09 R241) -/

def xreg (s : State) (n i : Nat) : W64 := if i = 0 then 0 else BitVec.ofNat 64 (s.f F.STN_X_VALUE (16 * n + i))

def setXreg (s : State) (n i : Nat) (v : W64) : State := if i = 0 then s else s.setF F.STN_X_VALUE (16 * n + i) v.toNat

/-- A lane register as 1,024 bytes. -/
def Stn.lane (t : Stn) (i : Nat) : List Byte := mget (List.replicate 1024 0) t.l i

def Stn.setLane (t : Stn) (i : Nat) (v : List Byte) : Stn := { t with l := mset t.l i v }

/-- Elements of `w` bits packed in bytes (spec/08 R214). -/
def unpackElems (w n : Nat) (l : List Byte) : List Nat :=
  let x := ofBytes l
  (List.range n).map fun i => x / 2 ^ (w * i) % 2 ^ w

def packElems (w : Nat) (l : List Nat) : List Byte := toBytes (l.length * w / 8) (l.foldr (fun a r => a % 2 ^ w + 2 ^ w * r) 0)

/-- The 256 lanes of a lane register. -/
def lanesOf (l : List Byte) : List Nat := unpackElems 32 256 l

def ofLanes (l : List Nat) : List Byte := packElems 32 l

/-- Flags set by a program: the passage's flags and STN_AFLAGS (spec/08 R234, spec/09 R262). -/
def setAFlags (s : State) (n fl : Nat) : State :=
  let orB (s : State) (x : Fld) (k : Nat) : State := if fl.testBit k then s.setF x n 1 else s
  orB (orB (orB (orB (orB (orB s F.STN_AFLAGS_INVALID 0) F.STN_AFLAGS_OVERFLOW 1) F.STN_AFLAGS_UNDERFLOW 2) F.STN_AFLAGS_SATURATE 3) F.STN_AFLAGS_RANGE 4)
    F.STN_AFLAGS_ALIGN 5

def stnFlag (s : State) (n fl : Nat) : State :=
  if fl = 0 then s else setAFlags (s.setF F.STN_PFLAGS_FLAGS n (s.f F.STN_PFLAGS_FLAGS n ||| fl)) n fl

/-! ### Formats of instructions (spec/09 R245) -/

/-- The element format of a code, for codes 0 to 13 and, for MX blocks, 16 to 21. -/
def fmtOf (c : Nat) : Fmt :=
  match c with
  | 0 => .fp32 | 1 => .bf16 | 2 => .fp16 | 3 => .e5m2 | 4 => .e4m3 | 5 => .e3m2 | 6 => .e2m3 | 7 => .e2m1
  | 8 => .int32 | 9 => .int16 | 10 => .int8 | 11 => .int4 | 12 => .u8 | 13 => .u4
  | 16 => .e5m2 | 17 => .e4m3 | 18 => .e3m2 | 19 => .e2m3 | 20 => .e2m1 | _ => .int8

/-- The pairs of formats of R219. -/
def pairOk (a b : Nat) : Bool :=
  let int (x : Nat) : Bool := 10 ≤ x && x ≤ 13
  let fp8 (x : Nat) : Bool := 3 ≤ x && x ≤ 7
  let mx (x : Nat) : Bool := 16 ≤ x && x ≤ 20
  (int a && int b) || (fp8 a && fp8 b) || (mx a && mx b) || (a == 21 && b == 21) || (a == 1 && b == 1) || (a == 2 && b == 2)

/-- BF16 and FP16 pairs use the wide mode. -/
def wideFmt (a : Nat) : Bool := a == 1 || a == 2

/-- Bytes of one k step of an operand (spec/09 R253). -/
def stepBytes (f : Nat) : Nat := 32 * (fmtOf f).width / 8

/-! ### Checks at load (spec/09 R257) -/

/-- Bits an instruction uses, its form included: a field that its form does not use must be 0 (spec/09 R244, R246, log 108); none for an undefined opcode. -/
def insMask (w : W64) : Option Nat :=
  let op := fieldOf w 63 58
  let m (l : List (Nat × Nat)) : Nat := l.foldl (fun a e => a + (2 ^ (e.1 + 1) - 2 ^ e.2)) 0
  let int (f : Nat) : Bool := 8 ≤ f && f ≤ 13
  let fm0 := fieldOf w 37 33
  let mod := fieldOf w 9 0
  let opb : Nat × Nat := (63, 58)
  let D : Nat × Nat := (56, 53)
  let A : Nat × Nat := (52, 48)
  let B : Nat × Nat := (47, 43)
  let C : Nat × Nat := (42, 38)
  let fm : Nat × Nat := (37, 33)
  let rm : Nat × Nat := (32, 31)
  let sat : Nat × Nat := (30, 30)
  let ixtag : Nat × Nat := (29, 10)
  match op with
  | 0x00 | 0x01 | 0x0E => some (m [opb])
  | 0x02 => some (m (opb :: (56, 56) :: (35, 26) :: [if w.toNat.testBit 56 then (55, 52) else (51, 36)]))
  | 0x03 => some (m [opb, D, (31, 0)])
  | 0x04 => some (m (opb :: (56, 49) :: (44, 44) :: [if w.toNat.testBit 44 then (23, 0) else (48, 45)]))
  | 0x05 => some (m [opb, (56, 52)])
  | 0x08 => some (m [opb, (56, 49)])
  | 0x09 => some (m (opb :: D :: A :: (if mod % 2 = 1 then [(5, 0)] else [fm])))
  | 0x0C => some (m [opb, (55, 49)])
  | 0x0D => some (m (opb :: A :: (if mod % 2 = 1 then [(5, 0)] else [fm])))
  | 0x10 => some (m (opb :: if w.toNat.testBit 54 then [(56, 54)] else [(56, 45)]))
  | 0x11 => some (m [opb, (56, if 16 ≤ fieldOf w 44 40 then 16 else 20)])
  | 0x12 => some (m (opb :: (56, 53) :: fm :: rm :: sat :: ixtag :: if w.toNat.testBit 54 then [] else [(52, 49)]))
  | 0x18 | 0x19 | 0x1A => some (m (opb :: D :: A :: B :: fm :: if int fm0 then [sat] else [rm, ixtag]))
  | 0x1B => some (m [opb, D, A, B, C, fm, rm, ixtag])
  | 0x1C | 0x1D => some (m [opb, D, A, B, fm])
  | 0x1E => some (m [opb, D, A, B, fm, (2, 0)])
  | 0x1F => some (m [opb, D, A, B, C])
  | 0x20 | 0x21 | 0x22 => some (m [opb, D, A, B])
  | 0x23 => some (m [opb, D, A, (4, 0)])
  | 0x24 => some (m [opb, D, A, (5, 0)])
  | 0x25 => some (m (opb :: D :: A :: fm :: sat :: (4, 0) :: ((if int fm0 ∧ int mod then [] else [rm, ixtag])
      ++ (if 16 ≤ fm0 then [B] else []) ++ (if 16 ≤ mod then [C] else []))))
  | 0x26 => some (m [opb, D, A, fm, rm, ixtag, (2, 0)])
  | 0x27 => some (m [opb, D, A, fm, rm, ixtag])
  | 0x28 => some (m [opb, D, (3, 0)])
  | 0x30 => some (m [opb, B, C])
  | 0x31 => some (m (opb :: A :: fm :: (0, 0) :: if mod % 2 = 1 then [B] else []))
  | 0x32 => some (m (opb :: (56, 54) :: [if w.toNat.testBit 54 then (3, 0) else A]))
  | 0x33 => some (m [opb, D, B, C, fm, rm, ixtag, (9, 2)])
  | 0x34 => some (m [opb, B, C])
  | 0x35 => some (m [opb, A, B, C, (0, 0)])
  | _ => none

/-- Cause OPCODE: a defined opcode, and nothing in reserved or unused bits. -/
def opcodeOk (w : W64) : Bool :=
  match insMask w with
  | some m => w.toNat ||| m == m
  | none => false

/-- Cause FIELD: every field in its range, and formats, operands and registers the instruction allows. -/
def fieldsOk (w : W64) : Bool :=
  let op := fieldOf w 63 58
  let a := fieldOf w 52 48
  let b := fieldOf w 47 43
  let c := fieldOf w 42 38
  let fm := fieldOf w 37 33
  let rmOk := fieldOf w 32 31 != 3
  let mo := fieldOf w 9 0
  let aOk := a ≤ 17
  let bOk := b ≤ 17
  let vf := [0, 1, 2, 8, 9, 10].contains fm
  let fp := fm ≤ 2
  let move := if mo % 2 = 1 then 1 ≤ mo / 2 && mo / 2 ≤ 16 else fm ≤ 13
  match op with
  | 0x02 => 1 ≤ fieldOf w 35 26 && (!w.toNat.testBit 56 || fieldOf w 55 52 != 0)
  | 0x09 => (a == 16 || a == 17) && move
  | 0x0D => a ≤ 15 && move
  | 0x10 => fieldOf w 53 45 != 256 && fieldOf w 53 45 != 257 && fieldOf w 53 45 != 255
  | 0x11 =>
    let sa := fieldOf w 54 50
    let sb := fieldOf w 49 45
    let fa := fieldOf w 44 40
    let fb := fieldOf w 39 35
    let k := fieldOf w 34 20
    let opnd (x f : Nat) : Bool := if x ≤ 15 then 1024 * x + k * stepBytes f ≤ 16384 else x ≤ 17 && k * stepBytes f % 64 == 0
    let mx := 16 ≤ fa
    [1, 2, 3, 4, 5, 6, 7, 10, 11, 12, 13, 16, 17, 18, 19, 20, 21].contains fa
      && [1, 2, 3, 4, 5, 6, 7, 10, 11, 12, 13, 16, 17, 18, 19, 20, 21].contains fb
      && 1 ≤ k && k ≤ 16384 && opnd sa fa && opnd sb fb && (!mx || (k % 32 == 0 && k ≤ 512))
  | 0x12 => rmOk && [0, 1, 2, 3, 4, 8, 9, 10].contains fm && fieldOf w 52 49 ≤ 12
  | 0x18 | 0x19 | 0x1A => aOk && bOk && vf && rmOk
  | 0x1B => aOk && bOk && c ≤ 17 && fp && rmOk
  | 0x1C | 0x1D => aOk && bOk && vf
  | 0x1E => aOk && bOk && vf && mo ≤ 5
  | 0x1F => aOk && bOk && c ≤ 17
  | 0x20 | 0x21 | 0x22 => aOk && bOk
  | 0x23 | 0x24 => aOk
  | 0x25 =>
    let t := mo
    aOk && rmOk && (if fm ≤ 13 ∧ t ≤ 13 then true
      else if fm = 0 ∧ 16 ≤ t ∧ t ≤ 21 then c ≤ 15
      else if 16 ≤ fm ∧ fm ≤ 21 then t == 0 && b ≤ 15 else false)
  | 0x26 => aOk && fp && rmOk && mo ≤ 5
  | 0x27 => aOk && fp && rmOk
  | 0x30 => b + c ≤ 31
  | 0x31 => aOk && [0, 1, 2, 3, 4, 8, 9, 10].contains fm
  | 0x33 => b + c ≤ 31 && rmOk && [0, 1, 2, 3, 4, 8].contains fm && mo / 4 + c + 1 ≤ 256
  | 0x34 => b + c ≤ 31 && (c + 1) % 8 == 0
  | 0x35 => (a == 16 || a == 17) && b + c ≤ 31 && (c + 1) % 8 == 0
  | _ => true

/-- Cause PAIR. -/
def pairsOk (w : W64) : Bool := fieldOf w 63 58 != 0x11 || pairOk (fieldOf w 44 40) (fieldOf w 39 35)

/-- The loops of a program that enclose index `i`: (index of the LOOP, index past its body). -/
def loopsAt (prog : List W64) (i : Nat) : List (Nat × Nat) :=
  ((List.range i).zip prog).filterMap fun e => if fieldOf e.2 63 58 = 2 ∧ i ≤ e.1 + fieldOf e.2 35 26 then some (e.1, e.1 + 1 + fieldOf e.2 35 26) else none

/-- Cause LOOP: the body of the LOOP at `i` lies in the program and in every loop around it, at most 4 deep. -/
def loopOk (prog : List W64) (i : Nat) (w : W64) : Bool :=
  if fieldOf w 63 58 = 2 then
    let e := i + 1 + fieldOf w 35 26
    let around := loopsAt prog i
    decide (e ≤ prog.length) && around.all (fun x => decide (e ≤ x.2)) && decide (around.length < 4)
  else true

/-- The words of stream descriptor `k`. -/
def sdWord (sd : List W64) (k i : Nat) : W64 := sd.getD (4 * k + i) 0

/-- Cause STREAM: what the FSTART or ESTART at a position names (spec/09 R242, R243). -/
def streamOk (sd : List W64) (head tail : Bool) (w : W64) : Bool :=
  let op := fieldOf w 63 58
  if op ≠ 0x08 ∧ op ≠ 0x0C then true
  else
    let k := fieldOf w 55 53
    let w0 := sdWord sd k 0
    let w1 := sdWord sd k 1
    let kind := fieldOf w0 63 60
    let sld := w0.toNat.testBit 59
    let col := w0.toNat.testBit 58
    let trn := w0.toNat.testBit 57
    let base := fieldOf w0 28 0
    let stride := fieldOf w1 63 32
    let rb := fieldOf w1 31 0
    let rows := fieldOf (sdWord sd k 2) 63 32
    (if op = 0x08 then [1, 3, 5, 7].contains kind else [2, 4, 6, 8].contains kind)
      && fieldOf w0 56 29 == 0 && fieldOf (sdWord sd k 2) 31 0 == 0 && sdWord sd k 3 == 0
      && rb != 0 && rb % 64 == 0 && rows != 0
      && (!col || (kind == 1 && rb == 512)) && (!trn || kind == 1) && (!sld || kind ≤ 2) && !(sld && col)
      && (!sld || (base % 512 == 0 && stride % 512 == 0 && rb % 512 == 0))
      && (!(kind == 3 || kind == 4) || base / 65536 == 0)
      && (kind < 5 || (base == 0 && stride == 0))
      && !((kind == 5 || kind == 8) && head) && !((kind == 6 || kind == 7) && tail)

/-- Fields of the table entry of a position (spec/09 R256): PROGOFF, PLEN, STOFF, STLEN, STDST, SDOFF, XOFF. -/
structure PEnt where
  progOff : Nat
  plen : Nat
  stOff : Nat
  stLen : Nat
  stDst : Nat
  sdOff : Nat
  xOff : Nat

def entryOf (tab : List W64) (e : Nat) : PEnt :=
  let w (i : Nat) : W64 := tab.getD (8 + 8 * e + i) 0
  ⟨fieldOf (w 0) 63 32, fieldOf (w 0) 10 0, fieldOf (w 1) 63 32, fieldOf (w 1) 20 10, fieldOf (w 1) 9 0, fieldOf (w 2) 63 32, fieldOf (w 2) 31 0⟩

/-- Cause HEADER. -/
def headerOk (tab : List W64) (npos : Nat) : Bool :=
  let w (i : Nat) : W64 := tab.getD i 0
  fieldOf (w 0) 63 56 == 1 && fieldOf (w 0) 55 48 == npos && fieldOf (w 0) 47 0 == 0 && fieldOf (w 1) 31 0 == 0
    && ((tab.drop 2).take 6).all (· == 0)

/-- Cause ENTRY. -/
def entryOk (tab : List W64) (e : Nat) : Bool :=
  let w (i : Nat) : W64 := tab.getD (8 + 8 * e + i) 0
  let x := entryOf tab e
  fieldOf (w 0) 31 11 == 0 && fieldOf (w 1) 31 21 == 0 && ((tab.drop (8 + 8 * e + 3)).take 5).all (· == 0)
    && decide (1 ≤ x.plen) && decide (x.plen ≤ 1024) && decide (x.stDst + x.stLen ≤ 1024)

/-- Cause RANGE: named ranges lie below TBYTES and are aligned; a program must be named (log 26). -/
def rangeOk (tab : List W64) (e : Nat) : Bool :=
  let t := fieldOf (tab.getD 1 0) 63 32
  let x := entryOf tab e
  let ok (off n al : Nat) : Bool := decide (off + n ≤ t) && off % al == 0
  x.progOff != 0 && ok x.progOff (8 * x.plen) 8 && (x.stOff == 0 || ok x.stOff (64 * x.stLen) 64)
    && (x.sdOff == 0 || ok x.sdOff 256 32) && (x.xOff == 0 || ok x.xOff 120 8)

/-- The first position, and index, at which a check of the programs fails. -/
def firstBad (imgs : List PImg) (ok : Nat → PImg → Nat → W64 → Bool) : Option (Nat × Nat) :=
  (((List.range imgs.length).zip imgs).filterMap fun e =>
    (((List.range e.2.prog.length).zip e.2.prog).find? fun x => !ok e.1 e.2 x.1 x.2).map fun x => (e.1, x.1)).head?

/-- Causes 4 to 8 over the programs that were read: cause, position, instruction. -/
def programError (imgs : List PImg) : Option (Nat × Nat × Nat) :=
  let n := imgs.length
  match firstBad imgs (fun _ _ _ w => opcodeOk w) with
  | some x => some (4, x)
  | none => match firstBad imgs (fun _ _ _ w => fieldsOk w) with
    | some x => some (5, x)
    | none => match firstBad imgs (fun _ _ _ w => pairsOk w) with
      | some x => some (6, x)
      | none => match firstBad imgs (fun _ g i w => loopOk g.prog i w) with
        | some x => some (7, x)
        | none => (firstBad imgs (fun e g _ w => streamOk g.sd (e == 0) (e + 1 == n) w)).map fun x => (8, x)

/-! ### Loading (spec/09 R257, R258) -/

/-- Fields of a PASSAGE: CNT, PADDR, SP, SEED. -/
def passFields : Body → Nat × Nat × Bool × W64
  | .passage _ _ cnt _ pa sp seed => (cnt, pa.toNat, sp, seed)
  | _ => (0, 0, false, 0)

/-- Reads a part of the table in the space the command names. -/
def passRead (s : State) (c : Cmd) (pur : Purpose) (off n : Nat) : State :=
  let (_, pa, sp, _) := passFields c.body
  s.startOp (mkOp pur (s.qIdent c.q) 112 (if sp then .gal else .va) (pa + off) n false [])

/-- The unit of a PASSAGE has been admitted: its table is read. -/
def startPassage (s : State) (c : Cmd) : State :=
  passRead s c (.passTable c.id) 0 (64 + 64 * ((passFields c.body).1 + 1))

/-- The PASSAGE fails *Checks at load*: MALFORMED, the cause in STN_PERR, the queue stops (spec/09 R257, spec/02 R54). -/
def passMalformed (s : State) (id cause pos instr : Nat) : State :=
  match s.cmd? id with
  | none => s
  | some c =>
    let n := (stationsOf s id).getD pos 0
    let ins := ((s.stn n).img.prog.getD instr 0)
    let s := ((s.setF F.STN_PERR_CAUSE n cause).setF F.STN_PERR_INSTR n (if 4 ≤ cause then instr else 0)).setF F.STN_PERR_SDESC n
      (if cause = 8 then fieldOf ins 55 53 else 0)
    let s := settleUnits s id
    let word := match (s.q c.q).stack.getLast?, c.ed with
      | some f, some _ => f.top
      | _, _ => c.word
    let s := setErr (stopQueue s c.q) c.q 8 (some word) (c.sq % 2 ^ s.sqLog c.q)
    let s := s.raise ⟨0, 1, 1, true, false, c.q, some (s.qPart c.q), Status.malformed.code, commonDetail (c.ed.getD 0) (some c.at) c.q 0 0 0 0, some id, none⟩
    endPlaced s id .malformed

/-- Step 2 and 3: every station of the passage is zeroed and loaded (spec/08 R210, spec/09 R258). -/
def loadStations (s : State) (c : Cmd) : State :=
  let l := stationsOf s c.id
  let (_, _, _, seed) := passFields c.body
  ((List.range l.length).zip l).foldl (init := s) fun s e =>
    let n := e.2
    let g := (s.stn n).img
    let st := entryOf (wordsOf (c.buf.length / 8) c.buf) e.1
    let t : Stn := { cmd := c.id, npos := l.length, seed, prog := g.prog, sd := g.sd, report := true,
                     store := (addrBytes (64 * st.stDst) g.store).foldl (fun m x => cellSet m x.1 x.2) [] }
    let s := s.setStn n t
    let s := (List.range 15).foldl (fun s i => setXreg s n (i + 1) (g.x.getD i 0)) s
    let s := ((((((s.setF F.STN_PSTAT_STATE n 1).setF F.STN_PSTAT_QUEUE n c.q).setF F.STN_PSTAT_FIRST n (l.headD 0)).setF F.STN_PSTAT_POS n e.1).setF
      F.STN_PSTAT_LEFT n 0).setF F.STN_PFLAGS_FLAGS n 0).setF F.STN_RUNCYC_CYCLES n 0
    let s := (s.setF F.STN_PSTAT_PC n 0).setF F.STN_PSTAT_DEPTH n 0
    (((s.setF F.STN_STALLCYC_CYCLES n 0).setF F.STN_PERR_CAUSE n 0).setF F.STN_PERR_INSTR n 0).setF F.STN_PERR_SDESC n 0

/-- Reads the next range that position `e` names, from part `what` on: 0 program, 1 store image, 2 descriptors, 3 X registers; then the next position; after the last the programs are checked. -/
def passNext : Nat → State → Nat → Nat → Nat → State
  | 0, s, _, _, _ => s
  | fuel + 1, s, id, e, what =>
    match s.cmd? id with
    | none => s
    | some c =>
      let npos := (passFields c.body).1 + 1
      if npos ≤ e then
        let imgs := (stationsOf s id).map fun n => (s.stn n).img
        match programError imgs with
        | some (cause, pos, i) => passMalformed s id cause pos i
        | none => loadStations s c
      else
        let x := entryOf (wordsOf (c.buf.length / 8) c.buf) e
        match what with
        | 0 => passRead s c (.passLoad id e 0) x.progOff (8 * x.plen)
        | 1 => if x.stOff = 0 ∨ x.stLen = 0 then passNext fuel s id e 2 else passRead s c (.passLoad id e 1) x.stOff (64 * x.stLen)
        | 2 => if x.sdOff = 0 then passNext fuel s id e 3 else passRead s c (.passLoad id e 2) x.sdOff 256
        | 3 => if x.xOff = 0 then passNext fuel s id (e + 1) 0 else passRead s c (.passLoad id e 3) x.xOff 120
        | _ => s

/-- The header and the entries have been read: checks 1 to 3 (spec/09 R257). -/
def passTableDone (s : State) (id : Nat) (o : Op) : State :=
  match s.cmd? id with
  | none => s
  | some c =>
    if o.status ≠ .done then endByOp (settleUnits s id) id o
    else
      let npos := (passFields c.body).1 + 1
      let tab := wordsOf (8 + 8 * npos) o.data
      if headerOk tab npos = false then passMalformed s id 1 0 0
      else match (List.range npos).find? fun e => !entryOk tab e with
        | some e => passMalformed s id 2 e 0
        | none => match (List.range npos).find? fun e => !rangeOk tab e with
          | some e => passMalformed s id 3 e 0
          | none =>
            let s := (stationsOf s id).foldl (fun s n => s.setStn n { s.stn n with img := {} }) s
            passNext 8 (s.setCmd { c with buf := o.data }) id 0 0

/-- A range of the table has been read. -/
def passLoadDone (s : State) (id e what : Nat) (o : Op) : State :=
  match s.cmd? id with
  | none => s
  | some _ =>
    if o.status ≠ .done then endByOp (settleUnits s id) id o
    else
      let n := (stationsOf s id).getD e 0
      let t := s.stn n
      let ws := wordsOf (o.data.length / 8) o.data
      let g := match what with
        | 0 => { t.img with prog := ws }
        | 1 => { t.img with store := o.data }
        | 2 => { t.img with sd := ws }
        | _ => { t.img with x := ws }
      passNext 8 (s.setStn n { t with img := g }) id (if what = 3 then e + 1 else e) ((what + 1) % 4)

/-! ### The sequencer and the units (spec/09 R247, R248, R251) -/

/-- The index after an instruction, with the loops that end there taken back to their start. -/
def loopBack : Nat → List (Nat × Nat × Nat) → Nat → Nat × List (Nat × Nat × Nat)
  | 0, l, pc => (pc, l)
  | n + 1, l, pc =>
    match l with
    | [] => (pc, [])
    | (a, e, k) :: r =>
      if pc = e then (if 1 < k then (a, (a, e, k - 1) :: r) else loopBack n r pc) else (pc, l)

/-- Sets the program counter of a station. -/
def setPc (s : State) (n : Nat) (pc : Nat) (loops : List (Nat × Nat × Nat)) : State :=
  let (pc, loops) := loopBack 5 loops pc
  let s := s.setStn n { s.stn n with pc, loops }
  (s.setF F.STN_PSTAT_PC n pc).setF F.STN_PSTAT_DEPTH n loops.length

/-- A station that runs and has met no failure. -/
def stnLive (s : State) (n : Nat) : Bool := stnRuns s n && (s.stn n).fail.isNone

/-- The instruction a live station's sequencer stands at; past the last one it is END. -/
def stnIns (s : State) (n : Nat) : Option W64 :=
  if stnLive s n then some ((s.stn n).prog.getD (s.stn n).pc (BitVec.ofNat 64 (2 ^ 58))) else none

/-- The unit an instruction runs on: 0 F0, 1 F1, 2 the array, 3 the vector unit, 4 the reducer, 5 the emitter, 6 the sequencer itself (spec/09 R250). -/
def insUnit (w : W64) : Nat :=
  let op := fieldOf w 63 58
  if op = 0x08 then fieldOf w 56 56
  else if op = 0x09 then fieldOf w 52 48 - 16
  else if 0x0C ≤ op ∧ op ≤ 0x0E then 5
  else if 0x10 ≤ op ∧ op ≤ 0x12 then 2
  else if 0x18 ≤ op ∧ op ≤ 0x28 then 3
  else if 0x30 ≤ op then 4
  else 6

/-- The X register an instruction of a unit names: an offset, an index base, VBC's source, TOLONG's row; X0 for none. -/
def insXreg (w : W64) : Nat :=
  let op := fieldOf w 63 58
  if op = 0x08 ∨ op = 0x0C then fieldOf w 52 49
  else if op = 0x28 then fieldOf w 3 0
  else if op = 0x32 then (if w.toNat.testBit 54 then fieldOf w 3 0 else 0)
  else if [0x12, 0x18, 0x19, 0x1A, 0x1B, 0x25, 0x26, 0x27, 0x33].contains op then fieldOf w 29 26
  else 0

/-- Room to dispatch: fewer than 8 instructions wait for the unit, and a start of a stream leaves at most 4 of its unit (spec/09 R243, R247). -/
def canDispatch (t : Stn) (w : W64) : Bool :=
  let u := insUnit w
  let op := fieldOf w 63 58
  let mine := t.dq.filter fun q => insUnit q.w == u
  let starts := (mine.filter fun q => fieldOf q.w 63 58 == op).length
  let live := if u = 0 then t.s0.length else if u = 1 then t.s1.length else t.se.length
  mine.length < 8 && (!(op == 0x08 || op == 0x0C) || starts + live < 4)

/-- Dispatches instructions to their units in program order until one has no room or is the sequencer's own; how many per cycle is timing (spec/09 R247). -/
def dispatchGo : Nat → State → Nat → State
  | 0, s, _ => s
  | k + 1, s, n =>
    match stnIns s n with
    | none => s
    | some w =>
      let t := s.stn n
      if insUnit w = 6 ∨ canDispatch t w = false then s
      else dispatchGo k (setPc (s.setStn n { t with dq := t.dq ++ [⟨w, xreg s n (insXreg w)⟩] }) n (t.pc + 1) t.loops) n

/-- Six units of 8 entries take at most 48 instructions. -/
def dispatch (s : State) (n : Nat) : State := dispatchGo 48 s n

/-- A run of bits: `k` from bit `i`. -/
def bitRun (i k : Nat) : Nat := (2 ^ k - 1) * 2 ^ i

/-- What an operand field reads: a lane register, as bits 0 to 15. -/
def opndBit (x : Nat) : Nat := if x < 16 then 2 ^ x else 0

/-- The feeder an operand field pops, as bits 52 and 53. -/
def popBit (x : Nat) : Nat := if x = 16 ∨ x = 17 then 2 ^ (36 + x) else 0

/-- What an instruction reads and what it writes, as bits: L0 to L15 at 0, T0 to T3 at 16, W0 to W31 at 20, the pops of F0 and F1 at 52, the pushes into the emitter queue at 54 (spec/09 R248). -/
def insUses (w : W64) : Nat × Nat :=
  let op := fieldOf w 63 58
  let d := 2 ^ fieldOf w 56 53
  let a := fieldOf w 52 48
  let b := fieldOf w 47 43
  let c := fieldOf w 42 38
  let tile := 2 ^ (16 + fieldOf w 56 55)
  let longs := bitRun (20 + b) (c + 1)
  let eq := 2 ^ 54
  let src (l : List Nat) : Nat := l.foldl (fun x f => x ||| opndBit f) 0
  let pops (l : List Nat) : Nat := l.foldl (fun x f => x ||| popBit f) 0
  match op with
  | 0x09 => (d, d ||| popBit a)
  | 0x0D => (opndBit a, eq)
  | 0x10 => (0, tile)
  | 0x11 =>
    let sa := fieldOf w 54 50
    let sb := fieldOf w 49 45
    let k := fieldOf w 34 20
    let lanes (x f : Nat) : Nat := if x < 16 then bitRun x ((k * stepBytes f + 1023) / 1024) else 0
    (lanes sa (fieldOf w 44 40) ||| lanes sb (fieldOf w 39 35) ||| (if 16 ≤ fieldOf w 44 40 then 2 ^ fieldOf w 19 16 else 0), tile ||| pops [sa, sb])
  | 0x12 => (tile, if w.toNat.testBit 54 then eq else bitRun (fieldOf w 52 49) 4)
  | 0x18 | 0x19 | 0x1A | 0x1C | 0x1D | 0x1E | 0x20 | 0x21 | 0x22 => (src [a, b], d ||| pops [a, b])
  | 0x1B | 0x1F => (src [a, b, c], d ||| pops [a, b, c])
  | 0x23 | 0x24 | 0x26 | 0x27 => (src [a], d ||| pops [a])
  | 0x25 =>
    (src (a :: if 16 ≤ fieldOf w 37 33 then [b] else []), d ||| pops [a] ||| (if 16 ≤ fieldOf w 9 0 then opndBit c ||| d else 0))
  | 0x28 => (0, d)
  | 0x30 => (0, longs)
  | 0x31 => (src [a], pops [a] ||| if fieldOf w 9 0 % 2 = 1 then 2 ^ (20 + b) else bitRun 20 32)
  | 0x32 => (tile, bitRun 20 32)
  | 0x33 => (longs, d)
  | 0x34 => (longs, eq)
  | 0x35 => (0, longs ||| popBit a)
  | _ => (0, 0)

/-- An instruction need not wait for an earlier one: another unit's, and neither writes what the other reads or writes (spec/09 R247, R248). -/
def freeOf (q e : QIns) : Bool :=
  let (qr, qw) := insUses q.w
  let (er, ew) := insUses e.w
  insUnit q.w != insUnit e.w && (ew &&& (qr ||| qw)) == 0 && (er &&& qw) == 0

/-- The stations of the passage that stands at `first`, when `first` is its head. -/
def passageStations (s : State) (first : Nat) : List Nat :=
  match passageAt s first with
  | some id => (stationsOf s id).filter fun n => (s.stn n).cmd == id
  | none => []

/-- A station's loaded report crosses; when every position has reported, the stations start (spec/09 R258). -/
def stationLoaded (s : State) (first pos : Nat) : State :=
  let l := passageStations s first
  match l[pos]? with
  | none => s
  | some n =>
    if s.f F.STN_PSTAT_STATE n ≠ 1 ∨ (s.stn n).report = false then s
    else
      let s := s.setStn n { s.stn n with report := false }
      if l.all (fun n => s.f F.STN_PSTAT_STATE n == 1 && !(s.stn n).report) then l.foldl (fun s n => dispatch (s.setF F.STN_PSTAT_STATE n 2) n) s
      else s

/-! ### Ends, failures and halts (spec/09 R259 to R261) -/

/-- A station halts: its queues and beats are discarded, with its tiles, long accumulators and flags (spec/08 R236), and it issues no further access (spec/09 R260); its accesses that wait for a slot are withdrawn. An access past hall entry has completed in its slot's own step, so HALTING ends in the step in which it begins and the station is ENDED (log 109). -/
def haltStn (s : State) (n : Nat) : State :=
  let mine (o : Op) : Bool := match o.pur with
    | .feeder m _ _ => m == n
    | .emitter m _ => m == n
    | _ => false
  let ids := (s.ops.filter mine).map (·.id)
  let s := { s with ops := s.ops.filter fun o => !mine o,
                    gal := { s.gal with halls := s.gal.halls.map (fun e => (e.1, { e.2 with queue := e.2.queue.filter fun r => !ids.contains r.op })),
                                        gather := s.gal.gather.filter fun g => g.req != 32 + n } }
  let s := (setAFlags s n (s.f F.STN_PFLAGS_FLAGS n)).setF F.STN_PFLAGS_FLAGS n 0
  let t := s.stn n
  (s.setStn n { t with f0 := [], f1 := [], eq := [], s0 := [], s1 := [], se := [], st0 := [], st1 := [], fwdIn := [], backIn := [], report := false,
                       fail := none, loops := [], dq := [], push := [], tiles := [], w := [] }).setF F.STN_PSTAT_STATE n 4

/-- Halts the stations of a passage and completes it with a status; a load in progress ends. -/
def stopPassage (s : State) (id : Nat) (st : Status) : State :=
  let l := stationsOf s id
  let s := { s with ops := s.ops.filter fun o => match o.pur with
    | .passTable c => c != id
    | .passLoad c _ _ => c != id
    | _ => true }
  let s := l.foldl (fun s n => if (s.stn n).cmd = id ∧ 1 ≤ s.f F.STN_PSTAT_STATE n then haltStn s n else s) s
  let s := settleUnits s id
  match s.cmd? id with
  | some c => endCmd s id ((match c.abort with
      | some .done => none
      | x => x).getD st)
  | none => s

/-- A station's end report crosses; the PASSAGE completes with the last one (spec/09 R259). -/
def stationEnd (s : State) (first pos : Nat) : State :=
  -- the completion waits at its crossing (spec/15 R417)
  if ((passageAt s first).bind s.cmd?).any (fun c => cbufFull s c.q) then s else
  let l := passageStations s first
  match l[pos]?, passageAt s first with
  | some n, some id =>
    if s.f F.STN_PSTAT_STATE n ≠ 4 ∨ (s.stn n).report = false then s
    else
      let s := s.setStn n { s.stn n with report := false }
      if l.all (fun n => s.f F.STN_PSTAT_STATE n == 4 && !(s.stn n).report) then endPlaced (settleUnits s id) id .done else s
  | _, _ => s

/-- The failure report of the first failed position crosses: every station halts and the PASSAGE takes its status (spec/09 R260). -/
def streamFailure (s : State) (first : Nat) : State :=
  let l := passageStations s first
  match l.find? (fun n => (s.stn n).fail.isSome), passageAt s first with
  | some n, some id =>
    match s.cmd? id with
    | some c =>
      let go (s : State) (n : Nat) : State :=
        let st := (s.stn n).fail.getD .uncorrected
        let pos := s.f F.STN_PSTAT_POS n
        let s := s.note (some (s.qPart c.q)) false 9 (some c.q) (sqOrd c.sq c.ord) (st.code * 2 ^ 56 + pos)
        stopPassage s id st
      -- two reports that race: a record decides (spec/12 R344, spec/17 R462)
      match s.verdict (s.qPart c.q) (some c.q) (.queue c.q) with
      | .wait => s
      | .free => go s n
      | .must r =>
        if lbKind r ≠ 9 then go s n
        else match l[lbBits r 3 5 0]? with
          | some m => if (s.stn m).fail.isSome then go (s.applied r) m else s
          | none => s
    | none => s
  | _, _ => s

/-! ### Streams (spec/09 R243, R249) -/

/-- A stream as FSTART or ESTART starts it with an offset. -/
def mkStream (sd : List W64) (k : Nat) (x : W64) : Strm :=
  let w0 := sdWord sd k 0
  let w1 := sdWord sd k 1
  let stride := fieldOf w1 63 32
  ⟨fieldOf w0 63 60, w0.toNat.testBit 59, w0.toNat.testBit 58, w0.toNat.testBit 57, (fieldOf w0 28 0 + x.toNat) % 2 ^ 64,
    if stride < 2 ^ 31 then stride else 2 ^ 64 - 2 ^ 32 + stride, fieldOf w1 31 0, fieldOf (sdWord sd k 2) 63 32, 0⟩

/-- Bytes of a stream. -/
def Strm.total (t : Strm) : Nat := t.rows * t.rowBytes

/-- Address of the stream's next byte, modulo 2^64. -/
def Strm.addr (t : Strm) : Nat := (t.base + t.pos / t.rowBytes * t.stride + t.pos % t.rowBytes) % 2 ^ 64

/-- Bytes left in the current row. -/
def Strm.rowLeft (t : Strm) : Nat := t.rowBytes - t.pos % t.rowBytes

/-- The next gallery request of a stream: address and bytes; a column line is one request. -/
def Strm.piece (t : Strm) : Nat × Nat := if t.col then (t.addr, 512) else (t.addr, min t.rowLeft (512 - t.addr % 512))

/-- A column-line read of a stream: one part of 512 bytes (spec/07 R182). -/
def startCol (s : State) (pur : Purpose) (idn : Ident) (req a : Nat) (trn : Bool) : State :=
  let id := s.nid
  let o := { mkOp pur idn req .gal a 512 false (List.replicate 512 0) with
             id, trn, cur := 512, parts := [⟨s.nid + 1, 0, 512, a, .gallery, true, none⟩] }
  let s := { s with ops := s.ops ++ [o], nid := s.nid + 2 }
  if s.domOn (s.b.domLogic (s.hallOf a)) = false then partDone s id (id + 1) .chamberDark []
  else s.hIssue ⟨id + 1, id, req, idn, a, 512, false, true, 0, trn, false, false, [], none, none⟩

/-- Queues of a unit: 0 F0, 1 F1. -/
def Stn.queue (t : Stn) (u : Nat) : List Byte := if u = 0 then t.f0 else t.f1
def Stn.setQueue (t : Stn) (u : Nat) (l : List Byte) : Stn := if u = 0 then { t with f0 := l } else { t with f1 := l }
def Stn.streams (t : Stn) (u : Nat) : List Strm := if u = 0 then t.s0 else t.s1
def Stn.setStreams (t : Stn) (u : Nat) (l : List Strm) : Stn := if u = 0 then { t with s0 := l } else { t with s1 := l }

/-- Advances the first stream of a list by `n` bytes, and takes it off when it has ended. -/
def advStreams (l : List Strm) (n : Nat) : List Strm :=
  match l with
  | [] => []
  | x :: r => if x.total ≤ x.pos + n then r else { x with pos := x.pos + n } :: r

/-- The identity of a station's accesses: of its PASSAGE (spec/09 R243). -/
def stnIdent (s : State) (n : Nat) : Ident := s.qIdent (s.f F.STN_PSTAT_QUEUE n)

/-- One move of a feeder: as many bytes as its source has and its queue of 64 beats takes, or its next gallery request. -/
def pumpFeeder (s : State) (n u : Nat) : State :=
  let t := s.stn n
  match t.streams u with
  | [] => s
  | x :: _ =>
    let room := 4096 - (t.queue u).length
    let k := min room x.rowLeft
    match x.kind with
    | 1 =>
      let (a, m) := x.piece
      if (s.ops.any fun o => match o.pur with
          | .feeder i v _ => i == n && v == u
          | _ => false) ∨ room < m then s
      else if x.col then startCol s (.feeder n u m) (stnIdent s n) (32 + n) a x.trn
      else if x.trn then
        s.startOp { mkOp (.feeder n u m) (stnIdent s n) (32 + n) .gal (a / 512 * 512) 512 false [] with sealed := x.sealed, trn := true }
      else s.startOp { mkOp (.feeder n u m) (stnIdent s n) (32 + n) .gal a m false [] with sealed := x.sealed }
    | 3 =>
      if k = 0 then s
      else
        let d := (List.range k).map fun i => cellGet t.store ((x.addr + i) % 65536)
        s.setStn n ((t.setQueue u (t.queue u ++ d)).setStreams u (advStreams (t.streams u) k))
    | 5 =>
      let k := min (min room (x.total - x.pos)) t.fwdIn.length / 64 * 64
      if k = 0 then s
      else s.setStn n { (t.setQueue u (t.queue u ++ t.fwdIn.take k)).setStreams u (advStreams (t.streams u) k) with fwdIn := t.fwdIn.drop k }
    | 7 =>
      let k := min (min room (x.total - x.pos)) t.backIn.length / 64 * 64
      if k = 0 then s
      else s.setStn n { (t.setQueue u (t.queue u ++ t.backIn.take k)).setStreams u (advStreams (t.streams u) k) with backIn := t.backIn.drop k }
    | _ => s

/-- Sends beats into a neighbour's FIFO of 64 beats; a station that has ENDED discards them (spec/09 R240, R259). -/
def sendBeats (s : State) (n : Nat) (x : Strm) (dst : Option Nat) (fwd : Bool) : State :=
  let t := s.stn n
  match dst with
  | none => s
  | some m =>
    let ended := s.f F.STN_PSTAT_STATE m == 4
    let v := s.stn m
    let have_ := if fwd then v.fwdIn.length else v.backIn.length
    let k := min (min (if ended then t.eq.length else 4096 - have_) (x.total - x.pos)) t.eq.length / 64 * 64
    if k = 0 then s
    else
      let d := t.eq.take k
      let s := s.setStn n { t with eq := t.eq.drop k, se := advStreams t.se k }
      if ended then s
      else
        let v := s.stn m
        s.setStn m (if fwd then { v with fwdIn := v.fwdIn ++ d } else { v with backIn := v.backIn ++ d })

/-- Moves what an instruction still has to push into the emitter queue of 64 beats (spec/09 R249). -/
def movePush (s : State) (n : Nat) : State :=
  let t := s.stn n
  let k := min (4096 - t.eq.length) t.push.length
  if k = 0 then s else s.setStn n { t with eq := t.eq ++ t.push.take k, push := t.push.drop k }

/-- One move of the emitter. -/
def pumpEmitter (s : State) (n : Nat) : State :=
  let s := movePush s n
  let t := s.stn n
  match t.se with
  | [] => s
  | x :: _ =>
    match x.kind with
    | 2 =>
      let (a, m) := x.piece
      if (s.ops.any fun o => match o.pur with
          | .emitter i _ => i == n
          | _ => false) ∨ t.eq.length < m then s
      else (s.setStn n { t with eq := t.eq.drop m }).startOp
        { mkOp (.emitter n m) (stnIdent s n) (32 + n) .gal a m true (t.eq.take m) with sealed := x.sealed }
    | 4 =>
      let k := min x.rowLeft t.eq.length / 64 * 64
      if k = 0 then s
      else
        let st := (List.range k).foldl (fun m i => cellSet m ((x.addr + i) % 65536) (t.eq.getD i 0)) t.store
        s.setStn n { t with eq := t.eq.drop k, se := advStreams t.se k, store := st }
    | 6 => sendBeats s n x (nextStn s n) true
    | 8 => sendBeats s n x (prevStn s n) false
    | _ => s

/-- Counts the bytes of a gallery access for the PASSAGE. -/
def stnBytes (s : State) (n k : Nat) : State :=
  match s.units.find? (·.cmd == (s.stn n).cmd) with
  | some u => s.setUnit { u with bytes := u.bytes + k }
  | none => s

/-- A feeder's gallery read has ended (spec/09 R243, R260). -/
def feederDone (s : State) (n u m : Nat) (o : Op) : State :=
  let t := s.stn n
  if s.f F.STN_PSTAT_STATE n ≠ 2 then s
  else if o.status ≠ .done then s.setStn n { t with fail := some (t.fail.getD o.status) }
  else
    match t.streams u with
    | [] => s
    | x :: _ =>
      let d := if x.trn && !x.col then (o.data.drop (x.addr % 512)).take m else o.data
      (stnBytes s n m).setStn n ((t.setQueue u (t.queue u ++ d)).setStreams u (advStreams (t.streams u) m))

/-- An emitter's gallery write has been acknowledged. -/
def emitterDone (s : State) (n m : Nat) (o : Op) : State :=
  let t := s.stn n
  if s.f F.STN_PSTAT_STATE n ≠ 2 then s
  else if o.status ≠ .done then s.setStn n { t with fail := some (t.fail.getD o.status) }
  else
    let s := (stnBytes s n m).setStn n { t with se := advStreams t.se m }
    match s.cmd? t.cmd with
    | some c => s.setCmd { c with crc := (c.crc + crc64 o.data) % 2 ^ 64 }
    | none => s

/-- Moves the streams of every station that runs, `k` rounds. -/
def pumpStations : Nat → State → State
  | 0, s => s
  | k + 1, s =>
    let live := (s.stns.map (·.1)).filter (stnLive s)
    match live with
    | [] => s
    | _ => pumpStations k (live.foldl (fun s n => pumpEmitter (pumpFeeder (pumpFeeder s n 0) n 1) n) s)

/-! ### Execution (spec/09 R247, R248) -/

/-- After an instruction: the sequencer dispatches on and the streams move. -/
def stnGo (s : State) (n : Nat) : State := pumpStations 2 (dispatch s n)

/-- Executes the sequencer's instruction at a station's program counter when it has opcode `op`; `f` answers none while it waits. -/
def stnSeq (s : State) (n op : Nat) (f : State → W64 → Option State) : State :=
  let s := dispatch s n
  match stnIns s n with
  | none => s
  | some w =>
    if fieldOf w 63 58 ≠ op then s
    else match f s w with
      | none => s
      | some s => stnGo (setPc s n ((s.stn n).pc + 1) (s.stn n).loops) n

/-- The first instruction of opcode `op` in the units' queues that is at its unit's head, waits for no earlier one and does not stall is executed and leaves its queue. -/
def stnPick (s : State) (n op : Nat) (f : State → QIns → Option State) : List QIns → List QIns → Option State
  | _, [] => none
  | pre, q :: r =>
    match (if fieldOf q.w 63 58 = op ∧ pre.all (freeOf q) then f s q else none) with
    | some t => some (t.setStn n { t.stn n with dq := pre ++ r })
    | none => stnPick s n op f (pre ++ [q]) r

/-- Executes an instruction of opcode `op` of a unit of a live station. -/
def stnUnit (s : State) (n op : Nat) (f : State → QIns → Option State) : State :=
  let s := dispatch s n
  if stnLive s n = false then s
  else match stnPick s n op f [] (s.stn n).dq with
    | some s => stnGo s n
    | none => s

end Sys2Proof.Machine
end

