-- ==== Sys2Proof/Machine/StationIns.lean ====
section
/-! DEFINITION. What the instructions of passage code revision 1 compute (spec/09 R251 to R255, spec/08). -/

namespace Sys2Proof.Machine

/-! ### Fields -/

def iD (w : W64) : Nat := fieldOf w 56 53
def iA (w : W64) : Nat := fieldOf w 52 48
def iB (w : W64) : Nat := fieldOf w 47 43
def iC (w : W64) : Nat := fieldOf w 42 38
def iFmt (w : W64) : Nat := fieldOf w 37 33
def iSat (w : W64) : Bool := w.toNat.testBit 30
def iMod (w : W64) : Nat := fieldOf w 9 0
def iT (w : W64) : Nat := fieldOf w 56 55

/-- The rounding of element `e` of an instruction (spec/08 R216, spec/09 R246). -/
def iRnd (s : State) (n : Nat) (q : QIns) (e : Nat) : Rnd :=
  match fieldOf q.w 32 31 with
  | 0 => .rne
  | 1 => .rtz
  | _ => .sr (srBits (s.stn n).seed.toNat (fieldOf q.w 25 10) (q.x.toNat + e))

/-- A list with its positions. -/
def enum {α : Type} (l : List α) : List (Nat × α) := (List.range l.length).zip l

/-- Results and their flags, joined. -/
def joinFlags (l : List (Nat × Nat)) : List Nat × Nat := (l.map (·.1), l.foldl (fun a e => a ||| e.2) 0)

/-! ### Pops (spec/09 R246) -/

/-- Bytes that an operand field pops, by feeder. -/
def popNeed (l : List (Nat × Nat)) (f : Nat) : Nat := (l.filterMap fun e => if e.1 = 16 + f then some e.2 else none).sum

/-- The feeders hold what the operands pop. -/
def canPop (t : Stn) (l : List (Nat × Nat)) : Bool := decide (popNeed l 0 ≤ t.f0.length) && decide (popNeed l 1 ≤ t.f1.length)

/-- Pops `k` bytes of the feeder an operand field names. -/
def pop (s : State) (n fld k : Nat) : List Byte × State :=
  let t := s.stn n
  if fld = 16 then (t.f0.take k, s.setStn n { t with f0 := t.f0.drop k })
  else (t.f1.take k, s.setStn n { t with f1 := t.f1.drop k })

/-- Bytes of 256 elements of a format. -/
def lane256 (f : Nat) : Nat := 32 * (fmtOf f).width

/-- An operand's 256 elements: the low bits of the lanes, or popped (spec/09 R241, R246). -/
def operand (s : State) (n fld f : Nat) : List Nat × State :=
  if fld < 16 then ((lanesOf ((s.stn n).lane fld)).map (· % 2 ^ (fmtOf f).width), s)
  else
    let (d, s) := pop s n fld (lane256 f)
    (unpackElems (fmtOf f).width 256 d, s)

def writeLanes (s : State) (n d : Nat) (l : List Nat) : State := s.setStn n ((s.stn n).setLane d (ofLanes l))

/-! ### Feeder and emitter instructions (spec/09 R252) -/

def insFstart (s : State) (n : Nat) (q : QIns) : Option State :=
  let u := fieldOf q.w 56 56
  let t := s.stn n
  some (s.setStn n (t.setStreams u (t.streams u ++ [mkStream t.sd (fieldOf q.w 55 53) q.x])))

def insEstart (s : State) (n : Nat) (q : QIns) : Option State :=
  let t := s.stn n
  some (s.setStn n { t with se := t.se ++ [mkStream t.sd (fieldOf q.w 55 53) q.x] })

def insFpop (s : State) (n : Nat) (w : W64) : Option State :=
  let packed := iMod w % 2 == 1
  let k := if packed then 64 * (iMod w / 2) else lane256 (iFmt w)
  if canPop (s.stn n) [(iA w, k)] = false then none
  else
    let (d, s) := pop s n (iA w) k
    let t := s.stn n
    some (if packed then s.setStn n (t.setLane (iD w) (d ++ (t.lane (iD w)).drop k))
      else writeLanes s n (iD w) (unpackElems (fmtOf (iFmt w)).width 256 d))

/-- Pushes bytes into the emitter queue, as far as it has space; none while an earlier push still waits for space (spec/09 R249). -/
def pushEq (s : State) (n : Nat) (d : List Byte) : Option State :=
  if (s.stn n).push = [] then some (movePush (s.setStn n { s.stn n with push := d }) n) else none

def insEpush (s : State) (n : Nat) (w : W64) : Option State :=
  let r := (s.stn n).lane (iA w)
  pushEq s n (if iMod w % 2 = 1 then r.take (64 * (iMod w / 2)) else packElems (fmtOf (iFmt w)).width (lanesOf r))

def insEwait (s : State) (n : Nat) (_ : W64) : Option State := if (s.stn n).se = [] then some s else none

/-! ### Sequencer instructions (spec/09 R251) -/

/-- Every earlier instruction has completed. -/
def Stn.drained (t : Stn) : Bool := t.dq == [] && t.push == []

def insEnd (s : State) (n : Nat) (_ : W64) : Option State :=
  let t := s.stn n
  if t.drained = false ∨ t.s0 ≠ [] ∨ t.s1 ≠ [] ∨ t.se ≠ [] then none
  else
    let s := setAFlags s n (s.f F.STN_PFLAGS_FLAGS n)
    let left := (t.fwdIn.length + t.backIn.length) / 64
    let s := s.setStn n { t with fwdIn := [], backIn := [], f0 := [], f1 := [], eq := [], report := true }
    some ((s.setF F.STN_PSTAT_LEFT n (min left (2 ^ 20 - 1))).setF F.STN_PSTAT_STATE n 4)

def insLoop (s : State) (n : Nat) (w : W64) : Option State :=
  let t := s.stn n
  let k := if w.toNat.testBit 56 then (xreg s n (fieldOf w 55 52)).toNat % 2 ^ 32 else fieldOf w 51 36
  let body := fieldOf w 35 26
  some (s.setStn n (if k = 0 then { t with pc := t.pc + body } else { t with loops := (t.pc + 1, t.pc + 1 + body, k) :: t.loops }))

def insXmovi (s : State) (n : Nat) (w : W64) : Option State := some (setXreg s n (iD w) (sext 32 (fieldOf w 31 0)))

def insXadd (s : State) (n : Nat) (w : W64) : Option State :=
  let b := if w.toNat.testBit 44 then sext 24 (fieldOf w 23 0) else xreg s n (fieldOf w 48 45)
  some (setXreg s n (iD w) (xreg s n (fieldOf w 52 49) + b))

def insXflg (s : State) (n : Nat) (w : W64) : Option State :=
  if (s.stn n).drained = false then none
  else
    let v := BitVec.ofNat 64 (s.f F.STN_PFLAGS_FLAGS n)
    let s := setXreg s n (iD w) v
    some (if w.toNat.testBit 52 then s.setF F.STN_PFLAGS_FLAGS n 0 else s)

/-! ### Array instructions (spec/09 R253, spec/08 R220 to R224) -/

def Stn.tile (t : Stn) (k : Nat) : Tile := mget {} t.tiles k
def Stn.setTile (t : Stn) (k : Nat) (v : Tile) : Stn := { t with tiles := mset t.tiles k v }

def insTclr (s : State) (n : Nat) (w : W64) : Option State :=
  some (s.setStn n ((s.stn n).setTile (iT w) ⟨w.toNat.testBit 54, toSigned 9 (fieldOf w 53 45), false, []⟩))

/-- The scale origin a tile's values are read with: 0 outside MX mode (spec/08 R223, log 111). -/
def Tile.origin (t : Tile) : Int := if t.mx then t.e0 else 0

/-- The 32 elements of k step `k` of an operand: from a packed array of bytes. -/
def stepElems (f : Nat) (d : List Byte) (k off stride : Nat) : List Nat :=
  unpackElems (fmtOf f).width 32 ((d.drop (off + k * stride)).take (stepBytes f))

/-- The product of two elements as the array forms it; a product of zero and infinity is invalid. -/
def arrayProduct (fa fb a b : Nat) : FV × Bool :=
  if fa = 21 then (mxElem .int8 a).mul (mxElem .int8 b) else ((fmtOf fa).decode a).mul ((fmtOf fb).decode b)

/-- What one MX block's products give (spec/08 R221, R222). -/
def mxBlock (fa fb : Nat) (ab : List (Nat × Nat)) : BlockSum := ab.foldl (fun b e => b.add (arrayProduct fa fb e.1 e.2)) {}

/-- One cell of an MMA: element pairs in k order. -/
def cellMma (fa fb : Nat) (e0 : Int) (scales : List (Nat × Nat)) (c : Cell) (ab : List (Nat × Nat)) : Cell × Nat :=
  if wideFmt fa then
    let (ps, f1) := wideProducts (fmtOf fa) ab
    let (acc, f2) := wideRun (ps.length + 1) c.wide ps
    ({ c with wide := acc }, f1 ||| f2)
  else if 16 ≤ fa then
    (enum scales).foldl (init := (c, 0)) fun (c, fl) (m, sA, sB) =>
      let (c, f) := c.mxContribute (mxBlock fa fb ((ab.drop (32 * m)).take 32)) sA sB e0
      (c, fl ||| f)
  else
    ab.foldl (init := (c, 0)) fun (c, fl) e =>
      let (v, bad) := arrayProduct fa fb e.1 e.2
      let (c, f) := c.contribute v bad
      (c, fl ||| f)

/-- The bytes an MMA still needs from a feeder: both operands may name it. -/
def mmaNeed (w : W64) (f : Nat) : Nat :=
  let k := fieldOf w 34 20
  (if fieldOf w 54 50 = 16 + f then k * stepBytes (fieldOf w 44 40) else 0) + (if fieldOf w 49 45 = 16 + f then k * stepBytes (fieldOf w 39 35) else 0)

/-- Takes what the feeders hold of an MMA's operands. -/
def mmaTake (t : Stn) (w : W64) : Stn :=
  let k0 := mmaNeed w 0 - t.st0.length
  let k1 := mmaNeed w 1 - t.st1.length
  { t with st0 := t.st0 ++ t.f0.take k0, f0 := t.f0.drop k0, st1 := t.st1 ++ t.f1.take k1, f1 := t.f1.drop k1 }

/-- Where an operand's k steps stand: the bytes, the offset and the pitch. Two operands of one feeder alternate step by step, A first (log 27). -/
def mmaSource (t : Stn) (w : W64) (second : Bool) : List Byte × Nat × Nat :=
  let sa := fieldOf w 54 50
  let sb := fieldOf w 49 45
  let ba := stepBytes (fieldOf w 44 40)
  let bb := stepBytes (fieldOf w 39 35)
  let x := if second then sb else sa
  if x < 16 then ((List.range (16 - x)).flatMap fun i => t.lane (x + i), 0, if second then bb else ba)
  else (if x = 16 then t.st0 else t.st1, if second ∧ sa = sb then ba else 0, if sa = sb then ba + bb else if second then bb else ba)

/-- The k steps of one cell: the cell's number, its value and its flags (spec/08 R220 to R224). -/
def mmaCell (fa fb k : Nat) (e0 : Int) (as bs : List (List Nat)) (sc : List Byte) (x : Nat) (c : Cell) : Cell × Nat :=
  cellMma fa fb e0 (if 16 ≤ fa then (List.range (k / 32)).map fun q => ((sc.getD (64 * q + x / 32) 0).toNat, (sc.getD (64 * q + 32 + x % 32) 0).toNat) else []) c
    ((as.map (·.getD (x / 32) 0)).zip (bs.map (·.getD (x % 32) 0)))

/-- The k steps of the cells of a list, and the flags they raise. -/
def mmaCells (fa fb k : Nat) (e0 : Int) (as bs : List (List Nat)) (sc : List Byte) : List Nat → SMap Cell × Nat → SMap Cell × Nat
  | [], m => m
  | x :: l, m => mmaCells fa fb k e0 as bs sc l
      (mset m.1 x (mmaCell fa fb k e0 as bs sc x (mget {} m.1 x)).1, m.2 ||| (mmaCell fa fb k e0 as bs sc x (mget {} m.1 x)).2)

/-- MMA: takes operand beats as they come; when it has them all, it adds K steps to the tile. -/
def insMma (s : State) (n : Nat) (w : W64) : Option State :=
  let t := mmaTake (s.stn n) w
  if t.st0.length < mmaNeed w 0 ∨ t.st1.length < mmaNeed w 1 then none
  else
    let fa := fieldOf w 44 40
    let fb := fieldOf w 39 35
    let k := fieldOf w 34 20
    let tl := t.tile (iT w)
    let tl : Tile := if tl.wide = wideFmt fa then tl else ⟨wideFmt fa, 0, false, []⟩
    let tl := { tl with mx := tl.mx || 16 ≤ fa }
    let (da, oa, pa) := mmaSource t w false
    let (db, ob, pb) := mmaSource t w true
    let as := (List.range k).map fun i => stepElems fa da i oa pa
    let bs := (List.range k).map fun i => stepElems fb db i ob pb
    let sc := t.lane (fieldOf w 19 16)
    let r := mmaCells fa fb k tl.e0 as bs sc (List.range 1024) (tl.cells, 0)
    some (stnFlag (s.setStn n ({ t with st0 := [], st1 := [] }.setTile (iT w) { tl with cells := r.1 })) n r.2)

/-- The MMA at the head of the array's queue, when it waits for no earlier instruction. -/
def mmaAt : List QIns → List QIns → Option QIns
  | _, [] => none
  | pre, q :: r => if fieldOf q.w 63 58 = 0x11 ∧ pre.all (freeOf q) then some q else mmaAt (pre ++ [q]) r

/-- The row MMA of a station: while operand bytes are missing, the array keeps those that came. -/
def stnMma (s : State) (n : Nat) : State :=
  let s := dispatch s n
  if stnLive s n = false then s
  else match mmaAt [] (s.stn n).dq with
    | none => s
    | some q => match stnPick s n 0x11 (fun s q => insMma s n q.w) [] (s.stn n).dq with
      | some s => stnGo s n
      | none => stnGo (s.setStn n (mmaTake (s.stn n) q.w)) n

def insEmit (s : State) (n : Nat) (q : QIns) : Option State :=
  let w := q.w
  let tl := (s.stn n).tile (iT w)
  let cols := w.toNat.testBit 53
  let f := fmtOf (iFmt w)
  let out := (List.range 1024).map fun m =>
    let x := if cols then m % 32 * 32 + m / 32 else m
    (mget {} tl.cells x).emit tl.wide tl.origin f (iRnd s n q x) (iSat w)
  let (vs, fl) := joinFlags out
  if w.toNat.testBit 54 then (pushEq s n (packElems f.width vs)).map fun s => stnFlag s n fl
  else some (stnFlag ((List.range 4).foldl (fun s k => writeLanes s n (fieldOf w 52 49 + k) ((vs.drop (256 * k)).take 256)) s) n fl)

/-! ### Vector instructions (spec/09 R254, spec/08 R226 to R228) -/

/-- A floating-point result rounded once. -/
def fpResult (f : Fmt) (md : Rnd) (v : FV × Bool) : Nat × Nat :=
  let (n, fl) := convert f md false v.1
  (n, fl ||| (if v.2 then fInvalid else 0))

/-- An integer result that wraps, or saturates. -/
def intResult (f : Fmt) (sat : Bool) (v : Int) : Nat × Nat :=
  if sat then limitInt f v else ((v % (2 ^ f.width : Nat)).toNat, 0)

inductive VOp where
  | add | sub | mul
  deriving DecidableEq, Repr

def VOp.eval (o : VOp) (f : Fmt) (md : Rnd) (sat : Bool) (a b : Nat) : Nat × Nat :=
  if f.isFloat then
    let x := f.decode a
    let y := f.decode b
    fpResult f md (match o with
      | .add => x.add y
      | .sub => x.add y.neg
      | .mul => x.mul y)
  else
    let x := toSigned f.width a
    let y := toSigned f.width b
    intResult f sat (match o with
      | .add => x + y
      | .sub => x - y
      | .mul => x * y)

/-- A vector instruction of two operands: popped in the order A, B; every lane of L[D] is written. -/
def vec2 (s : State) (n : Nat) (w : W64) (f : Nat) (g : Nat → Nat → Nat → Nat × Nat) : Option State :=
  if canPop (s.stn n) [(iA w, lane256 f), (iB w, lane256 f)] = false then none
  else
    let (a, s) := operand s n (iA w) f
    let (b, s) := operand s n (iB w) f
    let (vs, fl) := joinFlags ((enum (a.zip b)).map fun e => g e.1 e.2.1 e.2.2)
    some (stnFlag (writeLanes s n (iD w) vs) n fl)

def insVarith (o : VOp) (s : State) (n : Nat) (q : QIns) : Option State :=
  vec2 s n q.w (iFmt q.w) fun e a b => o.eval (fmtOf (iFmt q.w)) (iRnd s n q e) (iSat q.w) a b

/-- Fused multiply-add with one rounding. -/
def fma (f : Fmt) (md : Rnd) (a b c : Nat) : Nat × Nat :=
  let (p, bad) := (f.decode a).mul (f.decode b)
  let z := f.decode c
  let (v, bad2) := p.add z
  fpResult f md (v, (if bad && z == .nan then Config.fmaNanInvalid else bad) || bad2)

def insVfma (s : State) (n : Nat) (q : QIns) : Option State :=
  let w := q.w
  let k := lane256 (iFmt w)
  if canPop (s.stn n) [(iA w, k), (iB w, k), (iC w, k)] = false then none
  else
    let s0 := s
    let (a, s) := operand s n (iA w) (iFmt w)
    let (b, s) := operand s n (iB w) (iFmt w)
    let (c, s) := operand s n (iC w) (iFmt w)
    let (vs, fl) := joinFlags ((enum (a.zip (b.zip c))).map fun e => fma (fmtOf (iFmt w)) (iRnd s0 n q e.1) e.2.1 e.2.2.1 e.2.2.2)
    some (stnFlag (writeLanes s n (iD w) vs) n fl)

/-- The sign of a value, zeros included. -/
def FV.sign : FV → Bool
  | .nan => false
  | .inf n => n
  | .fin n _ _ => n

/-- Minimum and maximum (spec/08 R227). -/
def vMinMax (mx : Bool) (f : Fmt) (a b : Nat) : Nat × Nat :=
  if f.isFloat then
    let x := f.decode a
    let y := f.decode b
    if x = .nan ∨ y = .nan then (f.nanBits, 0)
    else
      let less := x.lt y || (x.eqv y && x.sign && !y.sign)
      (if less != mx then a else b, 0)
  else
    let less := decide (toSigned f.width a < toSigned f.width b)
    (if less != mx then a else b, 0)

def insVminmax (mx : Bool) (s : State) (n : Nat) (w : W64) : Option State :=
  vec2 s n w (iFmt w) fun _ a b => vMinMax mx (fmtOf (iFmt w)) a b

/-- Comparisons (spec/09 R254, spec/08 R227). -/
def vCompare (f : Fmt) (c a b : Nat) : Bool :=
  let (lt, eq, nan) : Bool × Bool × Bool :=
    if f.isFloat then
      let x := f.decode a
      let y := f.decode b
      (x.lt y, x.eqv y, x == .nan || y == .nan)
    else (decide (toSigned f.width a < toSigned f.width b), a == b, false)
  match c with
  | 0 => eq
  | 1 => !eq
  | 2 => lt
  | 3 => !nan && (lt || eq)
  | 4 => !nan && !lt && !eq
  | _ => !nan && !lt

def insVcmp (s : State) (n : Nat) (w : W64) : Option State :=
  vec2 s n w (iFmt w) fun _ a b => (if vCompare (fmtOf (iFmt w)) (iMod w) a b then 0xFFFFFFFF else 0, 0)

def insVsel (s : State) (n : Nat) (w : W64) : Option State :=
  if canPop (s.stn n) [(iA w, 1024), (iB w, 1024), (iC w, 1024)] = false then none
  else
    let (a, s) := operand s n (iA w) 0
    let (b, s) := operand s n (iB w) 0
    let (c, s) := operand s n (iC w) 0
    some (writeLanes s n (iD w) ((a.zip (b.zip c)).map fun e => if e.2.2 ≠ 0 then e.1 else e.2.1))

def insVlogic (g : Nat → Nat → Nat) (s : State) (n : Nat) (w : W64) : Option State := vec2 s n w 0 fun _ a b => (g a b, 0)

/-- A vector instruction of one operand. -/
def vec1 (s : State) (n : Nat) (w : W64) (f : Nat) (g : Nat → Nat → Nat × Nat) : Option State :=
  if canPop (s.stn n) [(iA w, lane256 f)] = false then none
  else
    let (a, s) := operand s n (iA w) f
    let (vs, fl) := joinFlags ((enum a).map fun e => g e.1 e.2)
    some (stnFlag (writeLanes s n (iD w) vs) n fl)

def insVshl (s : State) (n : Nat) (w : W64) : Option State := vec1 s n w 0 fun _ a => (a * 2 ^ (iMod w % 32) % 2 ^ 32, 0)

def insVshr (s : State) (n : Nat) (w : W64) : Option State :=
  vec1 s n w 0 fun _ a =>
    (if iMod w / 32 % 2 = 1 then ((toSigned 32 a / (2 ^ (iMod w % 32) : Nat)) % (2 ^ 32 : Nat)).toNat else a / 2 ^ (iMod w % 32), 0)

/-- VCVT to MX: 8 blocks of 32 lanes; the elements packed from byte 0, the scales in lanes 0 to 7 of L[C] (spec/08 R218). -/
def insVcvtToMx (s : State) (n : Nat) (q : QIns) : Option State :=
  let w := q.w
  if canPop (s.stn n) [(iA w, 1024)] = false then none
  else
    let f := fmtOf (iMod w)
    let s0 := s
    let (a, s) := operand s n (iA w) 0
    let blocks := (List.range 8).map fun k =>
      toMx f (fun i => iRnd s0 n q (32 * k + i)) (((a.drop (32 * k)).take 32).map Fmt.fp32.decode)
    let d := packElems f.width (blocks.flatMap (·.2.1))
    let t := s.stn n
    let t := t.setLane (iD w) (d ++ (t.lane (iD w)).drop d.length)
    let sc := (lanesOf (t.lane (iC w))).drop 8
    let t := t.setLane (iC w) (ofLanes (blocks.map (·.1) ++ sc))
    some (stnFlag (s.setStn n t) n (blocks.foldl (fun x e => x ||| e.2.2) 0))

/-- VCVT from MX. -/
def insVcvtFromMx (s : State) (n : Nat) (q : QIns) : Option State :=
  let w := q.w
  let f := fmtOf (iFmt w)
  if canPop (s.stn n) [(iA w, lane256 (iFmt w))] = false then none
  else
    let s0 := s
    let (d, s) := if iA w < 16 then (((s.stn n).lane (iA w)).take (lane256 (iFmt w)), s) else pop s n (iA w) (lane256 (iFmt w))
    let sc := lanesOf ((s.stn n).lane (iB w))
    let (vs, fl) := joinFlags ((enum (unpackElems f.width 256 d)).map fun e => fromMx f (sc.getD (e.1 / 32) 0 % 256) e.2 (iRnd s0 n q e.1))
    some (stnFlag (writeLanes s n (iD w) vs) n fl)

def insVcvt (s : State) (n : Nat) (q : QIns) : Option State :=
  let w := q.w
  if 16 ≤ iMod w then insVcvtToMx s n q
  else if 16 ≤ iFmt w then insVcvtFromMx s n q
  else vec1 s n w (iFmt w) fun e a => convert (fmtOf (iMod w)) (iRnd s n q e) (iSat w) ((fmtOf (iFmt w)).decode a)

/-- The function an instruction names (spec/09 R254). -/
def vfnOf (k : Nat) : VFn :=
  match k with
  | 0 => .exp2 | 1 => .log2 | 2 => .rcp | 3 => .rsqrt | 4 => .sinpi | _ => .cospi

/-- A function of one element: the FP32 result, converted for a narrower output. -/
def vfnLane (k : Nat) (f : Fmt) (md : Rnd) (a : Nat) : Nat × Nat :=
  let (r, fl) := vfn (vfnOf k) (f.decode a) (Config.vfnPick k (convert .fp32 .rne false (f.decode a)).1)
  if f = .fp32 then (r, fl)
  else
    let (x, f2) := convert f md false (Fmt.fp32.decode r)
    (x, fl ||| f2)

def insVfn (s : State) (n : Nat) (q : QIns) : Option State :=
  vec1 s n q.w (iFmt q.w) fun e a => vfnLane (iMod q.w) (fmtOf (iFmt q.w)) (iRnd s n q e) a

/-- One level of the tree sum: pairs of neighbours, rounded to nearest even. -/
def treeLevel (f : Fmt) : List Nat → List Nat × Nat
  | a :: b :: r =>
    let (v, fl) := VOp.add.eval f .rne false a b
    let (l, g) := treeLevel f r
    (v :: l, fl ||| g)
  | l => (l, 0)

/-- The tree sum (spec/08 R227). -/
def treeSum (f : Fmt) : Nat → List Nat → Nat × Nat
  | 0, l => (l.headD 0, 0)
  | k + 1, l =>
    let (m, fl) := treeLevel f l
    let (v, g) := treeSum f k m
    (v, fl ||| g)

def insVsum (s : State) (n : Nat) (w : W64) : Option State :=
  if canPop (s.stn n) [(iA w, lane256 (iFmt w))] = false then none
  else
    let (a, s) := operand s n (iA w) (iFmt w)
    let (v, fl) := treeSum (fmtOf (iFmt w)) 8 a
    some (stnFlag (writeLanes s n (iD w) (v :: List.replicate 255 0)) n fl)

def insVbc (s : State) (n : Nat) (q : QIns) : Option State :=
  some (writeLanes s n (iD q.w) (List.replicate 256 (q.x.toNat % 2 ^ 32)))

/-! ### Reducer instructions (spec/09 R255, spec/08 R229 to R233) -/

def Stn.long (t : Stn) (k : Nat) : Long := mget {} t.w k
def Stn.setLong (t : Stn) (k : Nat) (v : Long) : Stn := { t with w := mset t.w k v }

def insRclr (s : State) (n : Nat) (w : W64) : Option State :=
  some (s.setStn n ((List.range (iC w + 1)).foldl (fun t m => t.setLong (iB w + m) {}) (s.stn n)))

def insRadd (s : State) (n : Nat) (w : W64) : Option State :=
  if canPop (s.stn n) [(iA w, lane256 (iFmt w))] = false then none
  else
    let (a, s) := operand s n (iA w) (iFmt w)
    let (t, fl) := (enum a).foldl (init := (s.stn n, 0)) fun (t, fl) e =>
      let k := if iMod w % 2 = 1 then iB w else e.1 % 32
      let (x, f) := (t.long k).add ((fmtOf (iFmt w)).decode e.2) 1
      (t.setLong k x, fl ||| f)
    some (stnFlag (s.setStn n t) n fl)

/-- TOLONG. A wide tile's cells have no narrow value: what each adds is a free value of its accumulator (log 3). -/
def insTolong (s : State) (n : Nat) (q : QIns) : Option State :=
  let w := q.w
  let t := s.stn n
  let tl := t.tile (iT w)
  let row := if w.toNat.testBit 54 then q.x.toNat % 32 else iA w
  let (t, fl) := (List.range 32).foldl (init := (t, 0)) fun (t, fl) j =>
    let c := mget {} tl.cells (32 * row + j)
    let (x, f) := if tl.wide then (t.long j).add (Fmt.fp32.decode (Config.tolongWide c.wide % 2 ^ 32)) (2 ^ 42) else (t.long j).addCell c tl.origin
    (t.setLong j x, fl ||| f)
  some (stnFlag (s.setStn n t) n fl)

def insResolve (s : State) (n : Nat) (q : QIns) : Option State :=
  let w := q.w
  let t := s.stn n
  let ln := iMod w / 4
  let (vs, fl) := joinFlags ((List.range (iC w + 1)).map fun m => (t.long (iB w + m)).resolve (fmtOf (iFmt w)) (iRnd s n q m) false)
  let old := lanesOf (t.lane (iD w))
  some (stnFlag (writeLanes s n (iD w) (old.take ln ++ vs ++ old.drop (ln + vs.length))) n fl)

def insExport (s : State) (n : Nat) (w : W64) : Option State :=
  let (vs, fl) := joinFlags ((List.range (iC w + 1)).map fun m => ((s.stn n).long (iB w + m)).export)
  (pushEq s n (vs.flatMap (toBytes 40))).map fun s => stnFlag s n fl

def insImport (s : State) (n : Nat) (w : W64) : Option State :=
  let cnt := iC w + 1
  if canPop (s.stn n) [(iA w, 40 * cnt)] = false then none
  else
    let (d, s) := pop s n (iA w) (40 * cnt)
    let (t, fl) := (List.range cnt).foldl (init := (s.stn n, 0)) fun (t, fl) m =>
      let (x, f) := Long.import (ofBytes ((d.drop (40 * m)).take 40))
      let k := iB w + m
      if iMod w % 2 = 1 then (t.setLong k { x with weight := 2 ^ 42 }, fl ||| f)
      else
        let (y, g) := (t.long k).addImport x
        (t.setLong k y, fl ||| f ||| g)
    some (stnFlag (s.setStn n t) n fl)

end Sys2Proof.Machine
end

