-- ==== Sys2Proof/Machine/CollOps.lean ====
section
/-! DEFINITION. Collectives (spec/11 R316 to R326, spec/03 R95): algorithms and their steps, partial sums and results, the exchange between members, DST, ends. What a step's messages hold beyond R298 is the model's own (log 28). -/

namespace Sys2Proof.Machine

/-! ### Fields -/

/-- Fields of a COLLECT: OP, EXACT, GROUP, SRC, DST, COUNT, DTYPE, REDOP, SSP, DSP, ROOT. -/
structure CFields where
  op : Nat
  exact_ : Bool
  g : Nat
  src : Nat
  dst : Nat
  count : Nat
  dtype : Nat
  redop : Nat
  ssp : Bool
  dsp : Bool
  root : Nat

def collFields : Body → Option CFields
  | .collect _ op ex g _ src dst count dt ro ssp dsp root => some ⟨op, ex, g, src.toNat, dst.toNat, count, dt, ro, ssp, dsp, root⟩
  | _ => none

/-- The element format of a DTYPE. -/
def dtypeFmt : Nat → Fmt
  | 0 => .fp32 | 1 => .bf16 | 2 => .fp16 | 3 => .e4m3 | 4 => .e5m2 | 5 => .int32 | _ => .int8

/-- Exact mode has an effect only in reductions (spec/11 R322). -/
def CFields.isExact (f : CFields) : Bool := f.exact_ && decide (f.op ≤ 1)

def CFields.size (f : CFields) : Nat := (dtypeFmt f.dtype).width / 8

/-- Bytes of one block: COUNT elements. -/
def CFields.block (f : CFields) : Nat := f.count * f.size

/-- Bytes of SRC and DST at a rank (spec/11 R318). -/
def CFields.srcLen (f : CFields) (n rank : Nat) : Nat :=
  if f.op = 1 ∨ f.op = 4 then n * f.block else if f.op = 3 ∧ rank ≠ f.root then 0 else f.block

/-! ### Partial sums (spec/11 R320 to R322) -/

/-- The elements of a rank's block, as FP32, for ordered sums. -/
def toFp32 (f : Fmt) (x : Nat) : Nat := if f = .fp32 then x else (convert .fp32 .rne false (f.decode x)).1

/-- Bits of a partial value on its way: a long form, an FP32 value, an exact integer sum, or an element (spec/11 R320 to R322; log 28). -/
def CFields.partW (f : CFields) : Nat :=
  if f.isExact then 320 else if f.redop = 0 then (if (dtypeFmt f.dtype).isFloat then 32 else 64) else 8 * f.size

/-- A rank's element as a partial value (spec/11 R320, R322). -/
def CFields.enter (f : CFields) (x : Nat) : Nat :=
  let fm := dtypeFmt f.dtype
  if f.isExact then ((({} : Long).add (fm.decode x) 1).1.export).1
  else if f.redop = 0 then (if fm.isFloat then toFp32 fm x else (toSigned fm.width x % 2 ^ 64).toNat)
  else x

/-- Two partial values combined, the earlier in the order of combination first (spec/11 R320 to R322). -/
def CFields.combine (f : CFields) (a b : Nat) : Nat :=
  let fm := dtypeFmt f.dtype
  if f.isExact then
    ((((({} : Long).addImport (Long.import a).1).1.addImport (Long.import b).1).1).export).1
  else if f.redop = 0 then (if fm.isFloat then (f32Add a b).1 else (a + b) % 2 ^ 64)
  else (vMinMax (f.redop == 1) fm a b).1

/-- The result element of a partial value that every rank has entered: resolved once, rounded, or limited (spec/11 R320 to R322). -/
def CFields.result (f : CFields) (a : Nat) : Nat :=
  let fm := dtypeFmt f.dtype
  if f.isExact then ((Long.import a).1.resolve fm .rne false).1
  else if f.redop = 0 then
    (if fm.isFloat then (if fm = .fp32 then a else (convert fm .rne false (Fmt.fp32.decode a)).1) else (limitInt fm (toSigned 64 a)).1)
  else a

/-- The elements of bytes of a width. -/
def elemsOf (w : Nat) (d : List Byte) : List Nat := unpackElems w (8 * d.length / w) d

def CFields.enterAll (f : CFields) (d : List Byte) : List Byte := packElems f.partW ((elemsOf (8 * f.size) d).map f.enter)
def CFields.combineAll (f : CFields) (a b : List Byte) : List Byte :=
  packElems f.partW (List.zipWith f.combine (elemsOf f.partW a) (elemsOf f.partW b))
def CFields.resultAll (f : CFields) (d : List Byte) : List Byte := packElems (8 * f.size) ((elemsOf f.partW d).map f.result)

/-! ### Algorithms and their steps (spec/11 R319, R320) -/

/-- The algorithms of spec/11 R319. -/
inductive CAlg where
  | copy | tree | broadcast | pairwise | halving | ring
  deriving DecidableEq, Repr

/-- The algorithm of a collective of `n` ranks (spec/11 R319). -/
def collAlg (small : Nat) (f : CFields) (n : Nat) : CAlg :=
  if n ≤ 1 then .copy else if f.op = 3 then .broadcast else if f.op = 4 then .pairwise
  else if f.block ≤ small then .tree else if 2 ^ n.log2 = n then .halving else .ring

/-- A step of one rank: its number, whether results travel in it, what the rank sends and to whom, what it receives and from whom; data goes by chunk, and chunk 64 + j is the block that all-to-all sends to rank j. -/
structure CStep where
  no : Nat
  gather : Bool
  send : Option (Nat × List Nat)
  recv : Option (Nat × List Nat)
  deriving DecidableEq, Repr

/-- Levels of a tree over `n` ranks. -/
def levels (n : Nat) : Nat := if n ≤ 1 then 0 else (n - 1).log2 + 1

/-- The ranks below rank `s` of a tree at a level of width `h`. -/
def subtree (n s h : Nat) : List Nat := (List.range (min h (n - s))).map (s + ·)

/-- Tree: partial values go up to rank 0, results down (spec/11 R319, R320). -/
def treeSteps (op n r : Nat) : List CStep :=
  let ks := List.range (levels n)
  let up := ks.filterMap fun k =>
    let h := 2 ^ k
    let keys (s : Nat) : List Nat := if op = 0 then [0] else if op = 1 then List.range n else subtree n s h
    if r % (2 * h) = h then some ⟨k + 1, false, some (r - h, keys r), none⟩
    else if r % (2 * h) = 0 ∧ r + h < n then some ⟨k + 1, false, none, some (r + h, keys (r + h))⟩ else none
  let down := ks.reverse.filterMap fun k =>
    let h := 2 ^ k
    let keys (t : Nat) : List Nat := if op = 0 then [0] else if op = 1 then subtree n t h
      else (List.range n).filter fun j => !(subtree n t h).contains j
    if r % (2 * h) = 0 ∧ r + h < n then some ⟨levels n - k, true, some (r + h, keys (r + h)), none⟩
    else if r % (2 * h) = h then some ⟨levels n - k, true, none, some (r - h, keys r)⟩ else none
  up ++ down

/-- Halving-doubling: partners at distances 1, 2, 4 and so on exchange halves of what they hold, and results come back the other way (spec/11 R319, R320). -/
def halvingSteps (op n r : Nat) : List CStep :=
  let like (x h : Nat) : List Nat := (List.range n).filter fun j => j % (2 * h) == x % (2 * h)
  let ks := List.range n.log2
  (if op = 2 then [] else ks.map fun k => let h := 2 ^ k; ⟨k + 1, false, some (r ^^^ h, like (r ^^^ h) h), some (r ^^^ h, like r h)⟩)
    ++ (if op = 1 then [] else ks.reverse.map fun k => let h := 2 ^ k; ⟨n.log2 - k, true, some (r ^^^ h, like r h), some (r ^^^ h, like (r ^^^ h) h)⟩)

/-- Ring: chunk k goes round from rank k + 1 to rank k, then its result goes on (spec/11 R319, R320). -/
def ringSteps (op n r : Nat) : List CStep :=
  let nxt := (r + 1) % n
  let prv := (r + n - 1) % n
  (if op = 2 then [] else (List.range (n - 1)).map fun t => ⟨t + 1, false, some (nxt, [(r + 2 * n - 1 - t) % n]), some (prv, [(r + 2 * n - 2 - t) % n])⟩)
    ++ (if op = 1 then [] else (List.range (n - 1)).map fun t => ⟨t + 1, true, some (nxt, [(r + n - t) % n]), some (prv, [(r + 2 * n - 1 - t) % n])⟩)

/-- Broadcast: a binary tree of the ranks counted from ROOT, rank x with the children 2x + 1 and 2x + 2; the edge to x is step x (spec/11 R319; log 28). -/
def broadcastSteps (n r root : Nat) : List CStep :=
  let x := (r + n - root) % n
  let at_ (y : Nat) : Nat := (y + root) % n
  (if x = 0 then [] else [⟨x, true, none, some (at_ ((x - 1) / 2), [0])⟩])
    ++ ([2 * x + 1, 2 * x + 2].filter (· < n)).map fun y => ⟨y, true, some (at_ y, [0]), none⟩

/-- All-to-all: in round k rank r sends block (r + k) mod N (spec/11 R319). -/
def pairwiseSteps (n r : Nat) : List CStep :=
  (List.range (n - 1)).map fun i =>
    let k := i + 1
    ⟨k, true, some ((r + k) % n, [64 + (r + k) % n]), some ((r + n - k) % n, [(r + n - k) % n])⟩

/-- The steps of rank `r` (spec/11 R319). -/
def collSteps (alg : CAlg) (f : CFields) (n r : Nat) : List CStep :=
  match alg with
  | .copy => []
  | .tree => treeSteps f.op n r
  | .broadcast => broadcastSteps n r f.root
  | .pairwise => pairwiseSteps n r
  | .halving => halvingSteps f.op n r
  | .ring => ringSteps f.op n r

/-- First element and elements of a chunk in an all-reduce: all of it in a tree, else the j-th of N chunks of ⌈COUNT ÷ N⌉, the last ones shorter or empty; in the other operations a chunk is a block (spec/11 R320). -/
def chunkOf (alg : CAlg) (f : CFields) (n j : Nat) : Nat × Nat :=
  if f.op ≠ 0 then (j % 64 * f.count, f.count)
  else if alg = .halving ∨ alg = .ring then
    let q := (f.count + n - 1) / n
    (j * q, min q (f.count - j * q))
  else (0, f.count)

/-- Where a result chunk stands in DST, in bytes: reduce-scatter and broadcast put theirs at its start (spec/11 R318). -/
def dstAt (alg : CAlg) (f : CFields) (n j : Nat) : Nat := if f.op = 1 ∨ f.op = 3 ∨ alg = .copy then 0 else (chunkOf alg f n j).1 * f.size

/-- The result chunks of a rank's DST (spec/11 R318). -/
def dstKeys (alg : CAlg) (f : CFields) (n r : Nat) : List Nat :=
  match alg with
  | .copy | .broadcast => [0]
  | .pairwise => List.range n
  | _ => if f.op = 1 then [r] else if f.op = 2 then List.range n else if alg = .tree then [0] else List.range n

/-- Bytes of DST (spec/11 R318). -/
def CFields.dstLen (f : CFields) (n : Nat) : Nat := if f.op = 2 ∨ f.op = 4 then n * f.block else f.block

/-- Bytes of a chunk in a step: results of DTYPE, or partial values. -/
def keyLen (alg : CAlg) (f : CFields) (n : Nat) (fin : Bool) (j : Nat) : Nat := (chunkOf alg f n j).2 * (if fin then f.size else f.partW / 8)

/-- A step carries results: one that gathers, and every step of an operation that reduces nothing. -/
def CStep.fin (x : CStep) (f : CFields) : Bool := x.gather || decide (2 ≤ f.op)

/-! ### Members -/

def setColl (s : State) (v : Collv) : State := { s with colls := s.colls.map fun x => if x.cmd = v.cmd then v else x }

def collOf (s : State) (cmd : Nat) : Option Collv := s.colls.find? (·.cmd == cmd)

/-- Another rank of this chip takes part. -/
def localRank (s : State) (g r : Nat) : Bool := (memberAt s g r).1 == s.chip

/-- The algorithm of a member's collective. -/
def Collv.alg (v : Collv) (s : State) (f : CFields) : CAlg := collAlg (s.f F.FAB_COLL_SMALL 0) f (s.f F.FAB_GRP_NRANK v.g)

/-- What a member's SRC gives it: the partial values it enters, or the results it holds (spec/11 R318). -/
def collLoad (s : State) (v : Collv) (f : CFields) (d : List Byte) : Collv :=
  let n := s.f F.FAB_GRP_NRANK v.g
  let alg := v.alg s f
  let cut (j : Nat) : List Byte := (d.drop ((chunkOf alg f n j).1 * f.size)).take ((chunkOf alg f n j).2 * f.size)
  match alg with
  | .copy => { v with fin := [(0, d)] }
  | .broadcast => { v with fin := if v.rank = f.root then [(0, d)] else [] }
  | .pairwise => { v with fin := (v.rank, cut v.rank) :: (List.range n).map fun j => (64 + j, cut j) }
  | _ =>
    if f.op = 2 then { v with fin := [(v.rank, d)] }
    else { v with part := (if alg = .tree ∧ f.op = 0 then [0] else List.range n).map fun j => (j, f.enterAll (cut j)) }

/-- A chunk's data in a step: the owner of a result resolves it (spec/11 R322). -/
def Collv.chunk (v : Collv) (f : CFields) (fin : Bool) (j : Nat) : List Byte :=
  if fin then ((v.fin.find? (·.1 == j)).map Prod.snd).getD (f.resultAll (mget [] v.part j)) else mget [] v.part j

/-- The ADDR field of COLL and CBRK: group, sequence, step, offset, whose highest bit marks a step that gathers results (spec/11 R298; log 28). -/
def collAddr (g n step off : Nat) : Nat := g * 2 ^ 48 + n % 2 ^ 16 * 2 ^ 32 + step % 64 * 2 ^ 26 + step / 64 % 2 * 2 ^ 25 + off % 2 ^ 25

/-- A message waits to leave on its link. -/
def sendOut (s : State) (m : LMsg) : State := State.pumpL { s with lout := s.lout ++ [(m, none)] }

/-- Every member of this chip has ended its part of collective `n` of a group. -/
def collOver (s : State) (g n : Nat) : Bool :=
  ((List.range (s.f F.FAB_GRP_NRANK g)).filter (localRank s g)).all (fun r => decide (0 < (mget 0 s.colN (64 * g + r) + 2 ^ 16 - n) % 2 ^ 16)
      && decide ((mget 0 s.colN (64 * g + r) + 2 ^ 16 - n) % 2 ^ 16 < 2 ^ 15))
    && !(s.colls.any fun v => v.g == g && v.n % 2 ^ 16 == n)

/-- Files what arrived for a collective; what has been taken already, and what comes after the end, is discarded (spec/11 R326). -/
def fileRx (s : State) (r : ColRx) : State :=
  if collOver s r.g r.n ∨ s.colRx.any fun x => x.g == r.g && x.n == r.n && x.src == r.src && x.step == r.step && x.brk == r.brk && x.off == r.off then s
  else { s with colRx := s.colRx ++ [r] }

/-- Pieces of `k` bytes, numbered; data of no bytes is one byte on its way. -/
def cutPieces (k : Nat) : Nat → Nat → List Byte → List (Nat × List Byte)
  | 0, _, _ => []
  | n + 1, i, d => if d = [] then [] else (i, d.take k) :: cutPieces k n (i + 1) (d.drop k)

/-- A message of a member to rank `j` (spec/11 R298). -/
def collMsg (s : State) (v : Collv) (c : Cmd) (j mtype st step off : Nat) (d : List Byte) : LMsg :=
  ⟨mtype, (memberAt s v.g j).1, s.chip, 0, s.qPart c.q, s.qCtx c.q, false, d.length - 1, 0, st, collAddr v.g v.n step off, d⟩

/-- Sends data of a step to rank `j`: filed at once on this chip, else as COLL messages of at most 512 bytes. -/
def collSend (s : State) (v : Collv) (c : Cmd) (j step : Nat) (d : List Byte) : State :=
  let d := if d = [] then [0] else d
  (cutPieces 512 (d.length / 512 + 1) 0 d).foldl (init := s) fun s e =>
    if localRank s v.g j then fileRx s ⟨v.g, v.n % 2 ^ 16, v.rank, step, false, e.1, e.2⟩
    else sendOut s (collMsg s v c j 5 0 step e.1 e.2)

/-- What rank `i` has sent in a step, when all `len` bytes of it are there. -/
def collGot (s : State) (v : Collv) (i step len : Nat) : Option (List Byte) :=
  let len := max 1 len
  let got := s.colRx.filter fun x => x.g == v.g && x.n == v.n % 2 ^ 16 && x.src == i && x.step == step && !x.brk
  let d := (List.range (len / 512 + 1)).flatMap fun o => ((got.find? (·.off == o)).map (·.data)).getD []
  if d.length = len then some d else none

/-- Sends CBRK to rank `j` (spec/11 R325). -/
def collBreak (s : State) (v : Collv) (c : Cmd) (st : Nat) (j : Nat) : State :=
  if localRank s v.g j then fileRx s ⟨v.g, v.n % 2 ^ 16, v.rank, 0, true, 0, [BitVec.ofNat 8 st]⟩
  else sendOut s (collMsg s v c j 6 st v.step 0 [0])

/-- The gallery bytes of a member's DST that its partition owns in lit chambers: unspecified when its part ends other than with DONE (spec/11 R325; log 3). -/
def collSpoil (s : State) (v : Collv) (c : Cmd) : State :=
  match collFields c.body with
  | none => s
  | some f =>
    let l := if f.dsp then [⟨0, f.dstLen (s.f F.FAB_GRP_NRANK v.g), f.dst, .gallery⟩] else v.spans.filter (·.tgt == .gallery)
    let as := (l.flatMap fun x => (List.range x.len).map (x.pa + ·)).filter fun a =>
      (ownerOf s (a / 65536)).valid && (ownerOf s (a / 65536)).part == s.qPart c.q
        && s.chamber (s.hallOf a) ((lineIn s.b.halls a + a % 512 / 32) % 16) == 0
    let (d, s) := s.freeBytes as.length
    s.galStore (as.zip d)

/-- Ends a member's part; `tell` sends CBRK to the other members (spec/11 R325). -/
def collEndPart (s : State) (cmd : Nat) (st : Status) (tell : Bool) : State :=
  match collOf s cmd, s.cmd? cmd with
  | some v, some c =>
    if v.phase = 4 then s
    else
      let s := collSpoil (setColl s { v with phase := 4, st }) v c
      let s := { s with ops := s.ops.filter fun o => match o.pur with
        | .coll x _ => x != cmd
        | _ => true }
      if tell then ((List.range (s.f F.FAB_GRP_NRANK v.g)).filter (· != v.rank)).foldl (fun s j => collBreak s v c st.code j) s else s
  | _, _ => s

/-- A CBRK has come for a member: the status its part ends with, UNSUPPORTED when that is the cause (spec/11 R304, R317, R325; log 113). -/
def broken (s : State) (v : Collv) : Option Status :=
  match s.colRx.filter fun x => x.g == v.g && x.n == v.n % 2 ^ 16 && x.brk && x.src != v.rank with
  | [] => none
  | l => some (if l.any fun x => x.data == [BitVec.ofNat 8 Status.unsupported.code] then .unsupported else .collectiveRestarted)

/-! ### The exchange of DIGEST and fields (spec/11 R317) -/

/-- The physical address of a piece of DST as another chip names it: a gallery address in the aperture of this chip (spec/11 R295), with the secure bit above. -/
def spanWord (s : State) (x : Span) : Nat :=
  match x.tgt with
  | .mem sec _ => x.pa + sec.toNat * 2 ^ 63
  | .chip _ sec _ => x.pa + sec.toNat * 2 ^ 63
  | .gallery => s.chip * 2 ^ 52 + (2 ^ 23 - 1) * 2 ^ 29 + x.pa

/-- DIGEST, COLLECT fields and DST as a member sends them (log 28). -/
def fieldWords (s : State) (v : Collv) (c : Cmd) (f : CFields) : List Byte :=
  bytesOf ([BitVec.ofNat 64 (s.f F.FAB_GRP_DIGEST f.g),
    BitVec.ofNat 64 (f.op + f.exact_.toNat * 8 + f.g * 16 + f.dtype * 2 ^ 12 + f.redop * 2 ^ 16 + f.root * 2 ^ 18), BitVec.ofNat 64 f.count,
    BitVec.ofNat 64 (s.qCtx c.q), BitVec.ofNat 64 v.spans.length] ++ v.spans.flatMap fun x => [BitVec.ofNat 64 x.len, BitVec.ofNat 64 (spanWord s x)])

/-- What another rank has sent of its DIGEST and fields, when all is there. -/
def fieldsFrom (s : State) (v : Collv) (i : Nat) : Option (List Byte) :=
  match s.colRx.find? fun x => x.g == v.g && x.n == v.n % 2 ^ 16 && x.src == i && x.step == 0 && !x.brk && x.off == 0 with
  | none => none
  | some x => collGot s v i 0 (40 + 16 * ((wordsOf 5 x.data).getD 4 0).toNat)

/-- The fields of another rank differ as spec/11 R317 and spec/03 R95 forbid. -/
def fieldsDiffer (mine other : List Byte) : Bool :=
  other.take 8 != mine.take 8
    || ((other.drop 8).take 16 != (mine.drop 8).take 16 && (decide (ofBytes ((mine.drop 8).take 8) % 8 ≤ 1) || decide (ofBytes ((other.drop 8).take 8) % 8 ≤ 1)))

/-- Where another rank's DST lies, as this chip reaches it. -/
def peerSpans (s : State) (d : List Byte) : List Span :=
  let ws := wordsOf (d.length / 8) d
  ((List.range (ws.getD 4 0).toNat).foldl (init := (([] : List Span), 0)) fun (l, off) i =>
    let len := (ws.getD (5 + 2 * i) 0).toNat
    let w := (ws.getD (6 + 2 * i) 0).toNat
    let pa := w % 2 ^ 56
    let sec := w.testBit 63
    let tgt := if pa / 2 ^ 52 % 16 ≠ s.chip then Tgt.chip (pa / 2 ^ 52 % 16) sec 0 else if inAperture pa then .gallery else .mem sec 0
    (l ++ [⟨off, len, if tgt = .gallery then pa % 2 ^ 29 else pa, tgt⟩], off + len)).1

/-! ### Running a part -/

/-- The group has a member reached through a link of revision 1 (spec/11 R304). -/
def lp1Member (s : State) (g : Nat) : Bool :=
  (List.range (s.f F.FAB_GRP_NRANK g)).any fun r =>
    let ch := (memberAt s g r).1
    ch != s.chip && s.linkRev1 (s.f F.FAB_ROUTE_LINK ch)

/-- Reads the next piece of SRC, of at most 4,096 bytes. -/
def collRead (s : State) (c : Cmd) (f : CFields) (len : Nat) : State :=
  s.startOp (mkOp (.coll c.id 0) (s.qIdent c.q) 112 (if f.ssp then .gal else .va) (f.src + c.nxt) (min 4096 (len - c.nxt)) false [])

/-- The writes that put chunks into a DST, in pieces of at most 4,096 bytes: offset in DST, and data; a block of all-to-all lies where its sender's rank says. -/
def dstWrites (alg : CAlg) (f : CFields) (n : Nat) (v : Collv) (keys : List Nat) : List (Nat × List Byte) :=
  keys.flatMap fun j =>
    let d := v.chunk f true j
    (cutPieces 4096 (d.length / 4096 + 1) 0 d).map fun e => (dstAt alg f n (if 64 ≤ j then v.rank else j) + 4096 * e.1, e.2)

/-- The chunks that rank `i` sends rank `j` go straight into its DST by MWRs: they are results, the ranks are on different chips, and `j` sends none of them on (spec/11 R324; log 28). -/
def byMwr (s : State) (v : Collv) (f : CFields) (n : Nat) (x : CStep) (i j : Nat) (keys : List Nat) : Bool :=
  x.fin f && (memberAt s v.g i).1 != (memberAt s v.g j).1
    && !((collSteps (v.alg s f) f n j).any fun y => y.fin f && ((y.send.map Prod.snd).getD []).any keys.contains)

/-- What a step sends: COLL messages, or the next MWR into the receiver's DST and at last one COLL message that says so. -/
def stepSend (s : State) (v : Collv) (c : Cmd) (f : CFields) (n : Nat) (x : CStep) : State :=
  let no := x.no + 64 * x.gather.toNat
  let done (s : State) : State := setColl s { v with sent := true, since := s.time }
  match x.send with
  | none => done s
  | some (j, keys) =>
    if byMwr s v f n x v.rank j keys then
      match (dstWrites (v.alg s f) f n v keys)[v.pos]?, fieldsFrom s v j with
      | some (off, d), some w =>
        if s.ops.any (fun o => o.pur == .coll c.id 2) then s
        else s.startOp (mkOp (.coll c.id 2) ⟨(memberAt s v.g j).2, some ((wordsOf 4 w).getD 3 0).toNat, false⟩ 96 (.spans (peerSpans s w)) off d.length true d)
      | _, _ => done (collSend s v c j no [])
    else done (collSend s v c j no (keys.flatMap (v.chunk f (x.fin f))))

/-- What a step receives, when it is all there: partial values are combined with the member's own, those of lower ranks and those that have come round the ring first; results are kept (spec/11 R320). -/
def stepRecv (s : State) (v : Collv) (f : CFields) (n : Nat) (x : CStep) : Option Collv :=
  let no := x.no + 64 * x.gather.toNat
  let alg := v.alg s f
  let next := { v with step := v.step + 1, sent := false, pos := 0, since := s.time }
  match x.recv with
  | none => some next
  | some (i, keys) =>
    if byMwr s v f n x i v.rank keys then
      (collGot s v i no 0).map fun _ => { next with got := v.got ++ keys }
    else
      (collGot s v i no (keys.map (keyLen alg f n (x.fin f))).sum).map fun d =>
        (keys.foldl (init := (next, d)) fun (u, d) j =>
          let k := keyLen alg f n (x.fin f) j
          let e := d.take k
          let own := mget [] v.part j
          (if x.fin f then { u with fin := mset u.fin j e }
            else { u with part := mset u.part j (if i < v.rank ∨ alg = .ring then f.combineAll e own else f.combineAll own e) }, d.drop k)).1

/-- A member that has UNSUPPORTED fields before it ends its part: the cause DIGEST when a DIGEST differs (spec/11 R317). -/
def endUnsupported (s : State) (v : Collv) (digest : Bool) : State :=
  let s := if digest then (s.setF F.FAB_ERR_CAUSE 0 5).setF F.FAB_ERR_WHERE 0 v.g else s
  collEndPart s v.cmd .unsupported true

/-- The first step: DIGEST and fields go to every other member and are compared (spec/11 R317). -/
def stepFields (s : State) (v : Collv) (c : Cmd) (f : CFields) (n : Nat) : State :=
  let mine := fieldWords s v c f
  if v.sent = false then
    -- one copy for each other chip, and one filed here
    let first (j : Nat) : Bool := (List.range n).find? (fun i => (memberAt s v.g i).1 == (memberAt s v.g j).1) == some j
    let s := (List.range n).foldl (init := s) fun s j => if j = v.rank ∨ (localRank s v.g j = false ∧ first j) then collSend s v c j 0 mine else s
    setColl s { v with sent := true, since := s.time }
  else
    let fs := (List.range n).map (fieldsFrom s v)
    let bad := fs.filter fun x => (x.map (fieldsDiffer mine)).getD false
    if bad ≠ [] then endUnsupported s v (bad.any fun x => (x.map fun d => d.take 8 != mine.take 8).getD false)
    else if fs.all Option.isSome then setColl s { v with step := 1, sent := false, since := s.time }
    else s

/-- A member's part goes on by one move, as far as what has arrived allows. -/
def collGo (s : State) (cmd : Nat) : State :=
  match collOf s cmd, s.cmd? cmd with
  | some v, some c =>
    match collFields c.body with
    | none => s
    | some f =>
      let n := s.f F.FAB_GRP_NRANK v.g
      let busy (k : Nat) : Bool := s.ops.any fun o => o.pur == .coll cmd k
      if s.coreUp (2 + v.g % 2) = false ∨ 4 ≤ v.phase ∨ s.halted then s
      else
        match (if v.phase ≤ 2 then broken s v else none) with
        | some st => collEndPart s cmd st false
        | none =>
          match v.phase with
          | 0 =>
            let len := f.srcLen n v.rank
            if busy 0 then s
            else if c.nxt < len then collRead s c f len
            else (setColl s { collLoad s v f c.buf with phase := 1 }).setCmd { c with nxt := 0, buf := [] }
          | 1 =>
            if busy 3 then s
            else if v.spans = [] then
              s.startOp { mkOp (.coll cmd 3) (s.qIdent c.q) 96 (if f.dsp then .gal else .va) f.dst (f.dstLen n) true [] with xlOnly := true }
            else setColl s { v with phase := 2, since := s.time }
          | 2 =>
            if v.step = 0 then stepFields s v c f n
            else
              match (collSteps (v.alg s f) f n v.rank)[v.step - 1]? with
              | none => setColl s { v with phase := 3, pos := 0 }
              | some x =>
                if v.sent = false then stepSend s v c f n x
                else match stepRecv s v f n x with
                  | some v' => setColl s v'
                  | none => s
          | _ =>
            match (dstWrites (v.alg s f) f n v ((dstKeys (v.alg s f) f n v.rank).filter (!v.got.contains ·)))[v.pos]? with
            | some (off, d) =>
              if busy 1 then s else s.startOp (mkOp (.coll cmd 1) (s.qIdent c.q) 96 (if f.dsp then .gal else .va) (f.dst + off) d.length true d)
            | none => setColl s { v with phase := 4, st := .done }
  | _, _ => s

/-- Goes on with every member's part until none moves. -/
def collPump : Nat → State → State
  | 0, s => s
  | k + 1, s =>
    if s.colls = [] then s
    else
      let t := (s.colls.map (·.cmd)).foldl (fun s c => collGo s c) s
      if t.colls = s.colls then t else collPump k t

/-! ### Beginning and end -/

/-- The lowest entry of the relay cores' part of the waiter pool that no member holds (spec/05 R138). -/
def relayEntry (s : State) : Nat := 4096 + ((List.range 64).find? fun i => !(s.colls.any (·.entry == 4096 + i))).getD 0

/-- A COLLECT reaches its relay core: its number is counted and recorded; one that a page fault set aside keeps its number (spec/11 R317, spec/10 R286). A revision 1 link excludes exact mode (spec/11 R304). -/
def startCollect (s : State) (c : Cmd) (num : Option Nat) : State :=
  match collFields c.body with
  | none => s
  | some f =>
    let rank := (rankOf s f.g (s.qPart c.q)).getD 0
    let key := 64 * f.g + rank
    let n := num.getD (mget 0 s.colN key)
    let s := if c.colN.isSome then s
      else State.note { s.setCmd { c with colN := some n } with colN := mset s.colN key (n + 1) } (some (s.qPart c.q)) false 8 (some c.q) (sqOrd c.sq c.ord) (f.g * 2 ^ 56 + n % 2 ^ 48)
    let s := { s with colls := s.colls ++ [{ cmd := c.id, g := f.g, rank, n, phase := 0, since := s.time, st := .done, entry := relayEntry s }] }
    if f.exact_ ∧ lp1Member s f.g then collEndPart s c.id .unsupported true else collGo s c.id

/-- A RESTARTABLE COLLECT that meets a page fault leaves its relay core until the fault is resolved; what has come for it is kept (spec/03 R69, spec/10 R286). -/
def collAside (s : State) (c : Cmd) (o : Op) (x : XFail) : State :=
  let s := { s with colls := s.colls.filter (·.cmd != c.id), ops := s.ops.filter fun p => match p.pur with
    | .coll k _ => k != c.id
    | _ => true }
  let s := settleUnits s c.id
  cmdXfail s ((s.cmd? c.id).getD c) o x

/-- An access of a collective has ended (spec/11 R324, R325). -/
def collOpDone (s : State) (cmd step : Nat) (o : Op) : State :=
  match s.cmd? cmd, collOf s cmd with
  | some c, some v =>
    if o.status ≠ .done then
      match o.xfail with
      | some x => if x.pf ∧ c.rst then collAside s c o x else collEndPart (raiseXfail (s.setCmd { c with stopQ := true }) c o x) cmd x.status true
      | none => collEndPart s cmd (c.body.report o.status) true
    else if step = 3 then collGo (setColl s { v with spans := o.spans, phase := 2, since := s.time }) cmd
    else
      let s := match s.units.find? (·.cmd == cmd) with
        | some u => s.setUnit { u with bytes := u.bytes + o.len }
        | none => s
      if step = 0 then collGo (s.setCmd { c with nxt := c.nxt + o.len, buf := c.buf ++ o.data }) cmd
      else collGo (setColl (s.setCmd { c with crc := (c.crc + crc64 o.data) % 2 ^ 64 }) { v with pos := v.pos + 1 }) cmd
  | _, _ => s

/-- The rank of a chip's partition in a group. -/
def rankAt (s : State) (g chip part : Nat) : Option Nat := (List.range (s.f F.FAB_GRP_NRANK g)).find? fun r => memberAt s g r == (chip, part)

/-- A COLL or CBRK message has reached this chip. -/
def collArrive (s : State) (m : LMsg) : State :=
  let g := m.addr / 2 ^ 48 % 256
  match rankAt s g m.src m.part with
  | none => s
  | some r =>
    let n := m.addr / 2 ^ 32 % 2 ^ 16
    if m.mtype = 6 then fileRx s ⟨g, n, r, 0, true, 0, [BitVec.ofNat 8 m.status]⟩
    else fileRx s ⟨g, n, r, m.addr / 2 ^ 26 % 64 + 64 * (m.addr / 2 ^ 25 % 2), false, m.addr % 2 ^ 25, m.data⟩

/-- What came for the collectives that have ended on this chip is forgotten. -/
def collForget (s : State) : State := { s with colRx := s.colRx.filter fun x => !collOver s x.g x.n }

/-- The relay core reports the end of a part of queue `q` (spec/04 R104). -/
def collectiveEnd (s : State) (q : Nat) : State :=
  match s.colls.find? fun v => v.phase == 4 && (match s.cmd? v.cmd with
      | some c => c.q == q && !cbufFull s q
      | none => false) with
  | none => s
  | some v => endPlaced (settleUnits (collForget { s with colls := s.colls.filter (·.cmd != v.cmd) }) v.cmd) v.cmd v.st

/-- A member has waited STEPLIM for data of its next step (spec/11 R325). -/
def steplim (s : State) (q : Nat) : State :=
  match s.colls.find? fun v => v.phase == 2 && v.sent && s.coreUp (2 + v.g % 2) && decide (v.since + max 1 (s.f F.FAB_COLL_STEPLIM) * 1000 ≤ s.time) && (match s.cmd? v.cmd with
      | some c => c.q == q
      | none => false) with
  | some v => collEndPart s v.cmd .collectiveRestarted false
  | none => s

/-- Relay core `k` has crashed: a RESTARTABLE member goes back to the start of the step it has not completed (spec/11 R326, spec/15 R419). -/
def relayCrash (s : State) (k : Nat) : State :=
  (s.colls.filter fun v => v.g % 2 == k && v.phase != 4).foldl (init := s) fun s v =>
    match s.cmd? v.cmd with
    | none => s
    | some c =>
      if c.rst then
        let s := { s with ops := s.ops.filter fun o => match o.pur with
          | .coll x _ => x != v.cmd
          | _ => true }
        if v.phase = 0 then s.setCmd { c with nxt := 0, buf := [] }
        else setColl s { v with sent := false, pos := if v.phase = 2 then 0 else v.pos }
      else collEndPart s v.cmd .collectiveRestarted true

/-- Collectives that a relay core runs. -/
def relayLoad (s : State) (k : Nat) : Nat := (s.colls.filter fun v => v.g % 2 == k).length

end Sys2Proof.Machine
end

