-- ==== Sys2Proof/Machine/Admit.lean ====
section
/-! DEFINITION. Admission of units (spec/06 R163, R169 to R172), the completion items of engines (spec/18 R484), the command watchdog (spec/06 R176), migration's ends (spec/04 R128). -/

namespace Sys2Proof.Machine

/-! ### The next command of a queue -/

/-- A placed command has units that are not admitted (spec/04 R105). -/
def wantsAdmission (c : Cmd) : Bool :=
  c.placed && c.abort.isNone && !c.whole && (match c.body, c.st with
    | _, .held => true
    | .dispatch .., .admitted => dispatchLeft c != 0
    | .tilepass _ _ _ _ tx ty _ _ _, .admitted =>
      c.tiles.any (fun t => t.st == 1) || (c.fails == [] && (decide (c.nxt < tx * ty) || c.tiles.any (fun t => t.st == 0)))
    | _, _ => false)

/-- The command of a queue that is admitted next: no later one passes it, and none that started after a command set aside (spec/04 R105, spec/10 R286). -/
def frontOf : List Cmd → Option Cmd
  | [] => none
  | c :: r => if isAside c then none else if wantsAdmission c then some c else frontOf r

def frontCmd (s : State) (q : Nat) : Option Cmd := frontOf (s.cmds.filter (·.q == q))

/-- Inserts a number into a list, rising by a key. -/
def insertBy (key : Nat → Nat) (x : Nat) : List Nat → List Nat
  | [] => [x]
  | a :: r => if key x < key a then x :: a :: r else if x = a then a :: r else a :: insertBy key x r

/-- Numbers in round-robin order after `last`, of `n`. -/
def roundRobin (n last : Nat) (l : List Nat) : List Nat := l.foldr (insertBy fun x => (x + n - (last + 1) % n) % n) []

/-- The queues of partition `p` with placed commands, in round-robin order after `last`; no command of a FROZEN queue starts (spec/15 R417). -/
def queuesFrom (s : State) (last p : Nat) : List Nat :=
  roundRobin 4096 last ((s.cmds.filter fun c => c.placed && s.qPart c.q == p && (s.q c.q).st != .frozen).map (·.q))

/-- The commands that partition `p` presents, in round-robin order of its queues. -/
def frontsOf (s : State) (p : Nat) : List Cmd := (queuesFrom s (mget 4095 s.sch.lastQ p) p).filterMap (frontCmd s)

/-- Partitions with placed commands, in round-robin order after `last`. -/
def partsFrom (s : State) (last : Nat) : List Nat := roundRobin 64 last ((s.cmds.filter (·.placed)).map fun c => s.qPart c.q)

/-! ### Placement of a unit -/

/-- NP and EGRP of a launch command. -/
def npGroup : Body → Bool × Nat
  | .launch np _ _ g _ _ _ => (np, g)
  | .dispatch np g _ _ _ _ _ _ _ => (np, g)
  | .tilepass np g _ _ _ _ _ _ _ => (np, g)
  | _ => (false, 0)

/-- The number of the unit that is admitted next; none when no unit stands ready. -/
def nextUnit (c : Cmd) : Option Nat :=
  match c.body with
  | .dispatch .. => if dispatchLeft c = 0 then none else some c.nxt
  | .tilepass .. => (c.tiles.find? (·.st == 1)).map (·.k)
  | _ => some 0

/-- What an admission does: its level (1 real-time and EXCLUSIVE, 2 SHARE, 3 ungrouped), its placement, unit, whether it is charged to the balance, its estimate in ns, the ports a whole-command admission takes. -/
structure Plan where
  level : Nat
  pl : Place
  ix : Nat
  share : Bool
  est : Nat
  mask : Nat
  num : Option Nat
  deriving DecidableEq, Repr

/-- A record ADMIT names this unit (spec/17 R456). -/
def recNames (r : List W64) (c : Cmd) (ix n : Nat) : Bool :=
  lbKind r == 2 && lbBits r 0 47 36 == c.q && lbBits r 2 63 32 == c.sq % 2 ^ 32 && lbBits r 2 31 12 == c.ord % 2 ^ 20
    && lbBits r 3 63 16 == ix && lbBits r 3 5 0 == n

/-- Whether a placement may be taken: by a record that governs it, or by the rules. -/
def mayPlace (s : State) (c : Cmd) (pl : Place) (ix n : Nat) (rules : Bool) : Bool :=
  match s.verdict (s.qPart c.q) (some c.q) (.place pl.code.1 pl.code.2) with
  | .wait => false
  | .must r => recNames r c ix n
  | .free => rules

/-- The estimate of one unit in ns (spec/06 R173). -/
def estNs (s : State) (d : Nat) : Nat := (if d = 0 then undecl s else d) * 1000

/-- A port of a list for a unit: the lowest that is free and admits it (spec/06 R171). -/
def planPort (s : State) (c : Cmd) (ks : List Nat) (ix : Nat) : Option Plan :=
  let p := s.qPart c.q
  let d := declared s p c
  (ks.find? fun k => portFree s c.id k && !(s.q c.q).removed.contains k && mayPlace s c (.port k) ix 0 (groupAdmits s p d true (groupOfPort s k))).map fun k =>
    let sh := winOwner (curWin s) true (groupOfPort s k) == .share
    ⟨if sh then 2 else 1, .port k, ix, sh, estNs s d, 0, none⟩

/-- Units of a command with NP = 1 that is admitted as a whole (spec/06 R169). -/
def wholeUnits (c : Cmd) : Nat :=
  match c.body with
  | .dispatch _ _ _ x y z ch _ _ => chunkCount x y z ch
  | .tilepass _ _ _ _ tx ty _ _ _ => tx * ty
  | _ => 1

/-- Admission of a DISPATCH or TILEPASS with NP = 1 as a whole: every port of its group is free (spec/06 R169). -/
def planWhole (s : State) (c : Cmd) (ix : Nat) : Option Plan :=
  let p := s.qPart c.q
  let ks := queuePorts s c.q (npGroup c.body).2
  let n := wholeUnits c
  let np := match c.body with
    | .tilepass .. => min ks.length (max 1 (tileHdr c.buf).nslot)
    | _ => ks.length
  let d := declared s p c
  let dw := d * ((n + np - 1) / max 1 np)
  match ks with
  | [] => none
  | k :: _ =>
    if ks.all (portFree s c.id) = false ∨ ks.all (fun k => mayPlace s c (.port k) ix 0 (groupAdmits s p dw true (groupOfPort s k))) = false then none
    else
      let sh := winOwner (curWin s) true (groupOfPort s k) == .share
      some ⟨if sh then 2 else 1, .port k, ix, sh, estNs s d * n, ks.foldl (fun m k => m + 2 ^ k) 0, none⟩

/-- The ports of a command admitted as a whole; when all have been reported failed, those its group now has (spec/04 R128, spec/06 R169). -/
def wholePorts (s : State) (c : Cmd) : List Nat :=
  match (List.range s.b.eports).filter fun k => c.ports.testBit k && !s.sch.failed.contains k with
  | [] => queuePorts s c.q (npGroup c.body).2
  | l => l

/-- A further unit of a command admitted as a whole goes to a free one of its ports, without an admission (spec/06 R169). -/
def planLater (s : State) (c : Cmd) (ix : Nat) : Option Plan :=
  ((wholePorts s c).find? fun k => portFree s c.id k && mayPlace s c (.port k) ix 0 true).map fun k => ⟨1, .port k, ix, c.wshare, 0, 0, none⟩

/-- A PASSAGE needs all its stations and every group that holds one (spec/06 R162, R170). -/
def planPassage (s : State) (c : Cmd) (first cnt : Nat) : Option Plan :=
  let p := s.qPart c.q
  let d := declared s p c
  let l := passStations s c.q first cnt
  let f := l.headD 0
  let n := cnt + 1
  if l.all (stationFree s) = false ∨ mayPlace s c (.stations f n) 0 cnt (l.all fun x => groupAdmits s p d false (groupOfStation s x)) = false then none
  else
    let sh := l.any fun x => winOwner (curWin s) false (groupOfStation s x) == .share
    some ⟨if sh then 2 else 1, .stations f n, 0, sh, (estNs s d * n + 3) / 4, 0, none⟩

/-- A movement on the courier the scheduler chose, or on the near-memory unit (spec/06 R163, spec/07 R202). -/
def planMove (s : State) (c : Cmd) (courier : Nat) : Option Plan :=
  let pl : Place := if usesNmu c.body then .nmu else .courier courier
  if (usesNmu c.body = false ∧ 16 ≤ courier) ∨ placeBusy s (· == pl) ∨ mayPlace s c pl 0 0 (ungroupedAdmits s (s.qPart c.q)) = false then none
  else some ⟨3, pl, 0, false, 0, 0, none⟩

/-- A COLLECT goes to the relay core of its group, which runs at most 16, and admits none while an update holds it (spec/11 R317, spec/15 R419, R422). -/
def planCollect (s : State) (c : Cmd) (g : Nat) : Option Plan :=
  if 16 ≤ relayLoad s (g % 2) ∨ s.f F.FW_CORE_STATE (2 + g % 2) = 2 then none
  else if c.colN = none ∧ updateHolds s then none
  else if c.colN.isSome then (if ungroupedAdmits s (s.qPart c.q) then some ⟨3, .relay (g % 2), 0, false, 0, 0, c.colN⟩ else none)
  else match s.verdict (s.qPart c.q) (some c.q) (.group g) with
    | .wait => none
    | .must r =>
      if lbBits r 2 63 32 = c.sq % 2 ^ 32 ∧ lbBits r 2 31 12 = c.ord % 2 ^ 20 then some ⟨3, .relay (g % 2), 0, false, 0, 0, some (lbBits r 3 47 0)⟩ else none
    | .free => if ungroupedAdmits s (s.qPart c.q) then some ⟨3, .relay (g % 2), 0, false, 0, 0, none⟩ else none

/-- The admission a command's next unit gets now, if any. -/
def planFor (s : State) (courier : Nat) (c : Cmd) : Option Plan :=
  match nextUnit c with
  | none => none
  | some ix =>
    match c.body with
    | .launch _ pin port g _ _ _ => planPort s c (if pin then [mappedPort s c.q port] else queuePorts s c.q g) ix
    | .dispatch np g .. => if np then planWhole s c ix else planPort s c (queuePorts s c.q g) ix
    | .tilepass np g .. => if np then planWhole s c ix else planPort s c (queuePorts s c.q g) ix
    | .passage _ first cnt _ _ _ _ => planPassage s c first cnt
    | .copy .. => planMove s c courier
    | .fill .. => planMove s c courier
    | .dma .. => planMove s c courier
    | .collect _ _ _ g .. => planCollect s c g
    | _ => none

/-- No placement can ever take the command's next unit (spec/04 R128). -/
def noPlacement (s : State) (c : Cmd) : Bool :=
  let groupGone (g : Nat) : Bool :=
    let ks := groupPorts s g
    ks != [] && ks.all (s.sch.failed.contains ·) && (queuePorts s c.q g).all (s.sch.failed.contains ·)
      && (!c.whole || (wholePorts s c).all (s.sch.failed.contains ·))
  match c.body with
  | .launch _ true port _ _ _ _ => !somePortRemains s (mappedPort s c.q port)
  | .launch _ false _ g _ _ _ => groupGone g
  | .dispatch _ g .. => groupGone g
  | .tilepass _ g .. => groupGone g && c.tiles.any (·.st == 1)
  | _ => false

/-- A COLLECT for a relay core that has halted (spec/15 R415). -/
def relayGone (s : State) (c : Cmd) : Bool :=
  match c.body with
  | .collect _ _ _ g .. => s.f F.FW_CORE_STATE (2 + g % 2) == 3
  | _ => false

/-- The payload of a launch command. -/
def payloadOf : Body → List W64
  | .launch _ _ _ _ _ pl _ => pl
  | .dispatch _ _ _ _ _ _ _ pl _ => pl
  | .tilepass _ _ _ _ _ _ _ pl _ => pl
  | _ => []

/-- Sends an admitted unit to its placement (spec/18 R483, spec/03 R85 to R95). -/
def sendUnit (s : State) (c : Cmd) (u : Wunit) (num : Option Nat) : State :=
  let pay := payloadOf c.body
  match c.body, u.place with
  | .launch .., .port k => s.emit (.eCmd k (engHeader s u 0 0 0 0) pay)
  | .dispatch _ _ _ x y z ch _ _, .port k =>
    let first := u.ix * ch
    s.emit (.eCmd k (engHeader s u 1 first (min ch (x * y * z - first)) 0) pay)
  | .tilepass .., .port k =>
    match c.tiles.find? (·.k == u.ix) with
    | some t => s.emit (.eCmd k (tileHeader s c u t) pay)
    | none => s
  | .passage .., _ => startPassage s c
  | .collect .., _ => startCollect s c num
  | _, _ => moveNext s c.id

/-- Carries out an admission (spec/06 R171, R173). -/
def doAdmit (s : State) (c : Cmd) (x : Plan) : State :=
  let key : LbKey := match c.body with
    | .collect _ _ _ g .. => .group g
    | _ => .place x.pl.code.1 x.pl.code.2
  let s := match s.verdict (s.qPart c.q) (some c.q) key with
    | .must r => s.applied r
    | _ => s
  -- the estimate of a whole command is its own, not its first unit's (spec/06 R173)
  let (s, uid) := addUnit s c x.pl x.ix x.share (if x.mask = 0 then x.est else 0)
  let s := if x.share ∧ c.whole = false then { s with sch := { s.sch with lastShare := s.qPart c.q, shareAt := s.time } } else s
  let s := if x.mask ≠ 0 ∧ x.share then addBal s (s.qPart c.q) (-x.est) else s
  let c := (s.cmd? c.id).getD c
  let c := { c with st := .admitted, live := c.live + 1 }
  let c := if x.mask = 0 then c else { c with whole := true, ports := x.mask, wshare := x.share, west := x.est, wcharge := 0 }
  let c := match c.body with
    | .dispatch .. => { c with nxt := c.nxt + 1 }
    | .tilepass .. => { c with tiles := c.tiles.map fun t => if t.k = x.ix then { t with st := 2 } else t }
    | _ => c
  let s := s.setCmd c
  match s.unit? uid with
  | some u => sendUnit s c u x.num
  | none => s

/-- A unit that no placement can take completes with ENGINE_ERROR (spec/04 R128). -/
def failUnit (s : State) (c : Cmd) : State :=
  match c.body with
  | .dispatch .. => dispatchDone (s.setCmd { c with st := .admitted, nxt := c.nxt + 1, fails := c.fails ++ [(c.nxt, .engineError)] }) c.id
  | .tilepass .. =>
    match c.tiles.find? (·.st == 1) with
    | some t => tileFail s { c with st := .admitted } t .engineError
    | none => s
  | _ => endPlaced s c.id .engineError

/-- SHARE admissions start at the partition of the pass that runs, else after the last one (spec/06 R173). -/
def shareOrder (s : State) : List Nat := partsFrom s (if s.sch.shareAt = s.time ∧ s.sch.lastShare < 64 then (s.sch.lastShare + 63) % 64 else s.sch.lastShare)

/-- The queues in the order in which ungrouped placements serve them: first those of partitions that own a group in the window, in round-robin order of partitions and of their queues (spec/06 R163). -/
def courierOrder (s : State) : List Nat :=
  let l := partsFrom s s.sch.unPart
  (l.filter (ownsRt s) ++ l.filter fun p => !ownsRt s p).flatMap fun p => queuesFrom s (mget 4095 s.sch.unQ p) p

/-- A resolve write of queue `q` that courier `k` could begin: its command and its tile (spec/04 R135, spec/06 R163). -/
def resolveReady (s : State) (k q : Nat) : Option (Cmd × TileSt) :=
  match s.cmds.find? (resolveWaits q) with
  | none => none
  | some c => match c.tiles.find? (·.st == 3) with
    | none => none
    | some t =>
      if 16 ≤ k ∨ placeBusy s (fun pl => pl == .courier k) ∨ mayPlace s c (.courier k) t.k 0 (ungroupedAdmits s (s.qPart q)) = false then none
      else some (c, t)

/-- The plan of a queue's next command on an ungrouped placement. -/
def ungroupedPlan (s : State) (courier q : Nat) : Option (Cmd × Plan) :=
  (frontCmd s q).bind fun c => ((planFor s courier c).filter (·.level == 3)).map fun x => (c, x)

/-- The queues before the first whose resolve write waits for the courier. Of one queue the resolve write goes first, as the older command's: DESIGN CHOICE (log 101), R163 orders partitions and queues only. -/
def beforeResolve (s : State) (courier : Nat) : List Nat := (courierOrder s).takeWhile fun q => (resolveReady s courier q).isNone

/-- The next admission to an ungrouped placement; a resolve write that is due on the courier is passed by no movement (spec/06 R163). -/
def nextUngrouped (s : State) (courier : Nat) : Option (Cmd × Plan) :=
  (courierOrder s).findSome? fun q => (ungroupedPlan s courier q).filter fun e =>
    e.2.pl != .courier courier || (beforeResolve s courier).contains q

/-- The next admission: real-time and EXCLUSIVE units first, then SHARE, then ungrouped placements (spec/06 R163, R171). -/
def nextPlan (s : State) (courier : Nat) : Option (Cmd × Plan) :=
  let pick (ps : List Nat) (lv : Nat) : Option (Cmd × Plan) :=
    ps.findSome? fun p => (frontsOf s p).findSome? fun c => ((planFor s courier c).filter (·.level == lv)).map fun x => (c, x)
  ((pick (partsFrom s s.sch.lastPart) 1).orElse fun _ => pick (shareOrder s) 2).orElse fun _ => nextUngrouped s courier

/-- A command admitted as a whole has a unit to issue. -/
def wholeLeft (c : Cmd) : Bool := c.whole && c.st == .admitted && (nextUnit c).isSome

/-- The next unit of a command admitted as a whole, which needs no further admission, even after the window has ended (spec/06 R169). -/
def laterPlan (s : State) : Option (Cmd × Plan) :=
  (s.cmds.filter wholeLeft).findSome? fun c => ((nextUnit c).bind (planLater s c)).map fun x => (c, x)

/-- A unit that no placement can ever take (spec/04 R128, spec/15 R415). -/
def goneUnit (s : State) : Option Cmd :=
  (s.cmds.filter wholeLeft ++ (partsFrom s s.sch.lastPart).flatMap (frontsOf s)).find? fun c => noPlacement s c || relayGone s c

/-- The scheduler runs: the sorters have started it, the block is awake and has not halted. -/
def schRuns (s : State) : Bool := s.sch.started && s.ctlOn && s.awake && !s.halted

/-- One admission, of the first unit in order that some placement admits; at a window's end the boundary comes before admissions (spec/06 R165, R170, R171, R178). -/
def unitAdmission (s : State) (courier : Nat) : State :=
  if schRuns s = false then s
  else
    match goneUnit s with
    | some c => if relayGone s c then endPlaced s c.id .collectiveRestarted else failUnit s c
    | none =>
      match (laterPlan s).orElse fun _ => if windowOver s then none else nextPlan s courier with
      | some (c, x) => doAdmit s c x
      | none => s

/-- A courier begins the resolve write of a tile whose launch has completed, when its queue is the next that the courier serves (spec/04 R135, spec/06 R163). -/
def resolveStart (s : State) (q k : Nat) : State :=
  let turn := (courierOrder s).find? fun x => (resolveReady s k x).isSome || (ungroupedPlan s k x).any fun e => e.2.pl == .courier k
  if schRuns s = false ∨ windowOver s ∨ turn ≠ some q then s
  else
    match resolveReady s k q with
    | none => s
    | some (c, t) =>
      let s := match s.verdict (s.qPart q) (some q) (.place 2 k) with
        | .must r => s.applied r
        | _ => s
      let (s, uid) := addUnit s c (.courier k) t.k false 0
      let s := { s with units := s.units.map fun (u : Wunit) => if u.id = uid then { u with deadline := none } else u }
      match s.unit? uid, s.cmd? c.id with
      | some u, some c =>
        let t := { t with st := 5, row := 0 }
        let c := { setTile c t with live := c.live + 1 }
        resolveRow (s.setCmd c) c t u
      | _, _ => s

/-! ### Ends of engine units -/

/-- The unit of a port that a tag names (spec/18 R484). -/
def unitByTag (s : State) (k utag : Nat) : Option Wunit := s.units.find? fun u => onPort k u.place && utagOf u == utag

/-- A further failure of a command of several units; it issues no further unit. -/
def addFail (s : State) (id ix : Nat) (st : Status) (stop : Bool) : State :=
  match s.cmd? id with
  | none => s
  | some c => s.setCmd { c with fails := c.fails ++ [(ix, st)], st := if stop ∧ c.st = .admitted then .stopping else c.st }

/-- An engine unit has ended and been settled; its command goes on, or completes; with `stop` a DISPATCH issues no further unit (spec/03 R85, R86, spec/04 R134 to R136). -/
def unitEnd (s : State) (u : Wunit) (st : Status) (stop : Bool := false) : State :=
  match s.cmd? u.cmd with
  | none => s
  | some c =>
    if isAside c then s
    else match c.body with
      | .dispatch .. =>
        let s := if st = .done then s else addFail s c.id u.ix st (stop || st == .watchdog)
        dispatchDone s c.id
      | .tilepass .. =>
        match c.tiles.find? (·.k == u.ix) with
        | none => tileDone s c.id
        | some t => if st = .done then s.setCmd (setTile c { t with st := 3 }) else tileFail s c t st
      | _ => endPlaced s c.id st

/-- What the failed translation an engine reports was: the one answered to the unit for that page; for a failure the fabric did not answer, what the engine says, with LEVEL 0 and the present epoch (spec/10 R280, R289; log 96). -/
def engFail (s : State) (u : Wunit) (kind : XKind) (va : Nat) : XFail :=
  match u.xfails.find? (fun x => x.kind == kind && x.va / 4096 == va / 4096) with
  | some x => { x with va }
  | none => ⟨kind, 0, va, false, kind == .notPresent && s.fb F.XLT_CTX_EN (s.qCtx u.q), s.f F.XLT_CTX_EPOCH (s.qCtx u.q)⟩

/-- A unit ended on a failed translation: the page-fault sequence, or XLATE_FAULT and a stop (spec/10 R275, R280, R286). -/
def unitXfail (s : State) (u : Wunit) (kind : XKind) (va acc : Nat) : State :=
  match s.cmd? u.cmd with
  | none => s
  | some c =>
    if isAside c then s
    else
      let o : Op := { mkOp .none (s.qIdent u.q) u.place.reqId .va va 1 (acc == 1) [] with acc }
      let x := engFail s u kind va
      let one : Bool := match c.body with
        | .dispatch .. => false
        | .tilepass .. => false
        | _ => true
      if (x.pf ∧ c.rst) ∨ one then cmdXfail s c o x
      else unitEnd (raiseXfail (s.setCmd { c with stopQ := true }) c o x) u x.status true

/-- The outcome of a code of spec/10 R275. -/
def XKind.ofCode : Nat → XKind
  | 0 => .hit | 1 => .notPresent | 2 => .protection | 3 => .mapError | 4 => .route | _ => .noncanon

/-- The status of a completion item; others are ENGINE_ERROR (spec/18 R484). -/
def engStatus (n : Nat) : Status :=
  match Status.ofCode n with
  | some .done => .done
  | some .unsupported => .unsupported
  | some .xlateFault => .xlateFault
  | some .uncorrected => .uncorrected
  | some .chamberDark => .chamberDark
  | some .sealTimeout => .sealTimeout
  | _ => .engineError

/-- A completion signal outside the allotment (spec/04 R129). -/
def signalRange (s : State) (k : Nat) (p : Nat) (c : Option Cmd) : State :=
  s.raise ⟨10, 2, 1, true, false, k, some p, Status.engineError.code, commonDetail 0 (c.map Cmd.at) k 0 0 0 0, c.map (·.id), none⟩

/-- An engine's completion item crosses into the control island (spec/18 R484, spec/04 R104, R129). A completion with STATUS XLATE_FAULT whose signal lies outside the allotment takes the path of the translation failure: DESIGN CHOICE (log 100), the spec does not say which of R129's ENGINE_ERROR and R275's XLATE_FAULT is reported; the fault of R129 is raised in either case. -/
def completionItem (s : State) (k : Nat) (w0 w1 w2 w3 : W64) : State :=
  if s.b.eports ≤ k ∨ s.ctlOn = false ∨ s.flt.halt ≥ 6 then s
  else
    let s := if w0.toNat.testBit 38 then s.raise (hwFault 10 3 k true none 0) else s
    match unitByTag s k (fieldOf w0 63 48) with
    | none => s
    | some u =>
      -- it waits at its crossing (spec/15 R417)
      if cbufFull s u.q then s else
      let st := engStatus (fieldOf w0 47 40)
      let s := settleUnit s u
      let ph := fieldOf w0 20 0
      -- a FENCED twin applies no completion signal of a mirrored queue (spec/12 R331)
      let sig := w0.toNat.testBit 39 && !(s.mirrored u.q && s.f F.ECH_STAT_ROLE == 5)
      let out := sig && !inAllot s u.part ph
      let s := match s.cmd? u.cmd with
        | some c => if w0.toNat.testBit 37 then s.setCmd { c with edig := c.edig + w2 } else s
        | none => s
      let (s, lost) : State × Bool := if sig = false then (s, false)
        else if out then (signalRange s k u.part (s.cmd? u.cmd), false)
        else
          let (s, res) := phSignal s ph .max w1 none
          (match s.cmd? u.cmd with
          | some c => s.setCmd { c with sumPh := ph, sumPhV := (s.row ph).value }
          | none => s, res == .poisoned)
      if st = .xlateFault then unitXfail s u (XKind.ofCode (fieldOf w0 36 33)) w3.toNat (fieldOf w0 32 31)
      else unitEnd s u (if out then .engineError else if lost ∧ st = .done then .uncorrected else st)

/-! ### The watchdog (spec/06 R176) -/

/-- Resets an engine: it takes no unit until it reports ready. -/
def resetEngine (s : State) (k : Nat) : State :=
  let lim := s.time + max 1 (s.f F.SCH_WD_RLIMIT) * 1000
  let s := { s with sch := { s.sch with resets := mset s.sch.resets k lim } }.emit (.eCtl k (BitVec.ofNat 64 (0x81 * 2 ^ 56)))
  ((s.setF F.INT_EPORT_READY k 0).setF F.INT_EPORT_REPORTED k 0).satF F.INT_EPORT_RESETS k

/-- The watchdog of unit `id` expires; the unit ends with WATCHDOG. -/
def watchdogExpiry (s : State) (id : Nat) : State :=
  match s.unit? id with
  | none => s
  | some u =>
    match u.deadline with
    | none => s
    | some t =>
      if s.time < t ∨ s.ctlOn = false ∨ s.flt.halt ≥ 6 then s
      else
        let s := match u.place with
          | .port k => resetEngine s k
          | _ => s
        let at? := (s.cmd? u.cmd).map Cmd.at
        let s := s.raise ⟨1, 1, 1, true, false, u.place.num, some u.part, Status.watchdog.code, commonDetail 0 at? u.place.num 0 0 0 0, some u.cmd, none⟩
        let s := s.incF F.SCH_WD_FIRED 0
        match u.place with
        | .stations .. => stopPassage s u.cmd .watchdog
        | .relay _ =>
          let s := collEndPart s u.cmd .watchdog true
          let s := collForget { s with colls := s.colls.filter (·.cmd != u.cmd) }
          endPlaced (settleUnit s u) u.cmd .watchdog
        | _ => unitEnd (settleUnit s u) u .watchdog

/-- A port counts as drained for every invalidation (spec/10 R284). -/
def drainPort (s : State) (k : Nat) : State :=
  { s with xlt := { s.xlt with held := mdel s.xlt.held k, invs := s.xlt.invs.map fun (v : Inv) => { v with ports := v.ports.filter (· != k) } } }

/-- A port is reported failed: no unit is placed on it (spec/06 R176 step 5). -/
def portFailed (s : State) (k : Nat) : State :=
  State.raise (drainPort { s with sch := { s.sch with resets := mdel s.sch.resets k, failed := if s.sch.failed.contains k then s.sch.failed else s.sch.failed ++ [k] } } k)
    (hwFault 10 1 k true none 0)

/-- The limit of an engine's reset passes (spec/06 R176 step 5). -/
def engineResetLimit (s : State) (k : Nat) : State :=
  match s.sch.resets.find? (·.1 == k) with
  | some e => if e.2 ≤ s.time ∧ s.ctlOn then portFailed s k else s
  | none => s

/-! ### PSTOP (spec/03 R93) -/

/-- The running PASSAGE of a queue that a PSTOP names: one admitted, whose program FIRST is the same (spec/04 R128). -/
def runningPassage (s : State) (q first : Nat) : Option Cmd :=
  s.cmds.find? fun c => c.q == q && c.st == .admitted && (match c.body with
    | .passage _ f _ _ _ _ _ => f == first
    | _ => false)

/-- PSTOP: the passage stops with ABORTED; PSTOP completes when it has completed. -/
def doPstop (s : State) (id first : Nat) : State :=
  match s.cmd? id with
  | none => s
  | some c =>
    match runningPassage s c.q first with
    | none => endCmd s id .done
    | some x => stopPassage ((s.setCmd { c with aux := x.id }).setCmd { x with abort := some .done }) x.id .aborted

/-- PSTOPs whose passage has completed complete. -/
def pstopSettle (s : State) : State :=
  s.cmds.foldl (fun s c => match c.body with
    | .pstop _ => if c.st = .running ∧ (s.cmd? c.aux).isNone then endCmd s c.id .done else s
    | _ => s) s

end Sys2Proof.Machine
end

