-- ==== Sys2Proof/Machine/FaultOps.lean ====
section
/-! DEFINITION. The fault collector (spec/13): sequence, latches, escalation, records and rings, holds, acknowledgements, the lantern, injection. -/

namespace Sys2Proof.Machine

/-! ### Rings: 0 to 63 the partitions', 64 the global one -/

def ringEn (s : State) (r : Nat) : Bool := if r = 64 then s.fb F.FLT_GRING_CFG_EN else s.fb F.FLT_PRING_CFG_EN r
def ringLog (s : State) (r : Nat) : Nat := if r = 64 then s.f F.FLT_GRING_CFG_LOG2 else s.f F.FLT_PRING_CFG_LOG2 r
def ringPos (s : State) (r : Nat) : Nat := if r = 64 then s.f F.FLT_GRING_POS_POS else s.f F.FLT_PW_POS_POS r
def ringHead (s : State) (r : Nat) : Nat := if r = 64 then s.f F.FLT_GRING_HEAD_HEAD else s.f F.FLT_PW_HEAD_HEAD r

/-- A ring has space for one record (spec/13 R364). -/
def ringSpace (s : State) (r : Nat) : Bool :=
  ringEn s r && decide ((BitVec.ofNat 32 (ringPos s r) - BitVec.ofNat 32 (ringHead s r)).toNat < 2 ^ ringLog s r)

def setRec (s : State) (x : RingRec) : State :=
  { s with flt := { s.flt with recs := s.flt.recs.map fun y => if y.id = x.id then x else y } }

def dropRec (s : State) (id : Nat) : State := { s with flt := { s.flt with recs := s.flt.recs.filter (·.id != id) } }

/-- The words of a record in its ring: the phase of its count and LOST (spec/13 R361, R365). -/
def ringWords (s : State) (x : RingRec) (count : Nat) : List W64 :=
  match x.words with
  | [] => []
  | w :: r => (w ||| (if phaseOf (ringLog s x.ring) (BitVec.ofNat 32 count) then 0x8000000000000000#64 else 0)
      ||| (if s.flt.lost.contains x.ring then 0x0400000000000000#64 else 0)) :: r

/-- Reserves the next count of a ring for a record and starts its write: at once in the global ring, after the translation of its place in a partition ring (spec/13 R363, R364). -/
def reserveRec (s : State) (x : RingRec) : State :=
  let r := x.ring
  let c := ringPos s r
  let at_ := 64 * (c % 2 ^ ringLog s r)
  let s := if r = 64 then s.setF F.FLT_GRING_POS_POS 0 (c + 1) else s.setF F.FLT_PW_POS_POS r (c + 1)
  let w := ringWords s x c
  let x := { x with count := some c, words := w }
  let s := setRec { s with flt := { s.flt with lost := s.flt.lost.filter (· != r) } } x
  if r = 64 then
    s |> fun s => (setRec s { x with issued := true, cmd := none, fetchQ := none }).startOp
      (mkOp (.faultRec 64 x.id) ⟨0, none, true⟩ 112 (.spans [⟨0, 64, s.f F.FLT_GRING_BASE_BASE * 4096 + at_, .mem false 0⟩]) 0 64 true (bytesOf w))
  else
    s.startOp { mkOp (.ringPage r x.id) ⟨r, some (s.f F.FLT_PRING_CFG_CTX r), false⟩ 112 .va (s.f F.FLT_PRING_BASE_BASE r * 4096 + at_) 64 true [] with
      xlOnly := true, memOnly := true }

/-- The fate of a held command: FAULT_OVERFLOW takes the place of the status its fault gave (spec/13 R365). -/
def overflowCmd (s : State) (id : Nat) (st : Nat) : State :=
  match s.cmd? id with
  | none => s
  | some c =>
    match c.st with
    | .finishing => s.setCmd { c with status := .faultOverflow }
    | .aside _ => endPlaced (s.setCmd { c with st := .running }) id .faultOverflow
    | _ => s.setCmd { c with fails := c.fails.map fun e => if e.2.code = st then (e.1, .faultOverflow) else e }

/-- A fetch whose page-fault notice was dropped ends its program (spec/10 R286). -/
def overflowFetch (s : State) (q : Nat) : State :=
  match curDesc s q with
  | none => s
  | some d =>
    let (w, pcl) := atWord s q
    let s := s.setQ q { s.q q with asideFetch := none }
    let s := endProgram (setDesc s q (noteEnd d (s.q q).ord .faultOverflow w pcl)) q
    pushEnds (s.q q).descs.length s q

/-- Drops a record from its ring: DEAD, the first-drop latch, LOST in the next record; the command held for it completes with FAULT_OVERFLOW (spec/13 R365). -/
def deadRec (s : State) (x : RingRec) : State :=
  let r := x.ring
  let s := dropRec s x.id
  let s := if r = 64 then s.satF F.FLT_G_DEAD_DEAD 0 else s.satF F.FLT_PW_DEAD_DEAD r
  let s := if s.flt.dropped.contains r then s
    else
      let s := { s with flt := { s.flt with dropped := s.flt.dropped ++ [r] } }
      if r = 64 then s.setF F.FLT_G_DEAD_FIRST 0 (lbBits x.words 0 31 0)
      else (List.range 8).foldl (fun s k => s.setF F.FLT_PW_OVF_RECORD (r * 8 + k) (x.words.getD k 0).toNat) s
  let s := if s.flt.lost.contains r then s else { s with flt := { s.flt with lost := s.flt.lost ++ [r] } }
  if x.holdUntil.isNone then s
  else
    let s := match x.cmd with
      | some c => overflowCmd s c (lbBits x.words 0 39 32)
      | none => s
    match x.fetchQ with
    | some q => overflowFetch s q
    | none => s

/-- The records of a ring that wait for space are written while it has space, in order (spec/13 R365). -/
def pumpRing : Nat → State → Nat → State
  | 0, s, _ => s
  | n + 1, s, r =>
    match s.flt.recs.find? (fun x => x.ring == r && x.count.isNone) with
    | some x => if ringSpace s r ∧ s.flt.halt = 0 then pumpRing n (reserveRec s x) r else s
    | none => s

/-- Delivers a record to one ring: written, held, or dropped (spec/13 R364, R365). -/
def deliver (s : State) (r : Nat) (words : List W64) (cmd fetchQ : Option Nat) (notice : Bool) : State :=
  let b := min 1000 (s.f F.FLT_HOLD_BUDGET_BUDGET)
  let live := (cmd.bind s.cmd?).isSome || fetchQ.isSome
  let x : RingRec := ⟨s.nid, r, words, cmd, fetchQ, notice, none, false, none⟩
  let s := State.bump { s with flt := { s.flt with recs := s.flt.recs ++ [x] } }
  if ringSpace s r then reserveRec s x
  else if ringEn s r ∧ live ∧ (notice ∨ lbBits words 0 39 32 ≠ 0) ∧ 0 < b then setRec s { x with holdUntil := some (s.time + b * 1000) }
  else deadRec s x

/-! ### Processing a fault (spec/13 R357 to R362) -/

/-- The words of a record without its phase and LOST. -/
def faultWords (s : State) (x : Flt) (seq : Nat) : List W64 :=
  [BitVec.ofNat 64 (x.cls * 2 ^ 61 + x.escl.toNat * 2 ^ 60 + x.part.isSome.toNat * 2 ^ 59 + x.grp * 2 ^ 54 + x.part.getD 0 % 64 * 2 ^ 48
      + x.cause % 256 * 2 ^ 40 + x.status % 256 * 2 ^ 32 + seq % 2 ^ 32),
   BitVec.ofNat 64 s.time] ++ x.detail

/-- Stores a fault in a group latch; OVF when it is taken (spec/13 R358). -/
def latchC (s : State) (x : Flt) (esc : Bool) (seq : Nat) : State :=
  let g := x.grp
  if s.fb F.FLT_LATCH_C_VALID g then s.setF F.FLT_LATCH_C_OVF g 1
  else
    let s := { s with flt := { s.flt with autoack := mset s.flt.autoack g (s.time + max 1 (s.f F.FLT_CFG_ACKDELAY) * 1000) } }
    ((((((((s.setF F.FLT_LATCH_C_VALID g 1).setF F.FLT_LATCH_C_OVF g 0).setF F.FLT_LATCH_C_ESCL g x.escl.toNat).setF F.FLT_LATCH_C_ESC g esc.toNat).setF
      F.FLT_LATCH_C_CAUSE g x.cause).setF F.FLT_LATCH_C_PART g (x.part.getD 0)).setF F.FLT_LATCH_C_PV g x.part.isSome.toNat).setF
      F.FLT_LATCH_C_UNIT g x.unit).setF F.FLT_LATCH_C_SEQ g seq

def latchK (s : State) (x : Flt) (esc : Bool) (seq : Nat) : State :=
  let g := x.grp
  if s.fb F.FLT_LATCH_K_VALID g then s.setF F.FLT_LATCH_K_OVF g 1
  else
    ((((((((s.setF F.FLT_LATCH_K_VALID g 1).setF F.FLT_LATCH_K_OVF g 0).setF F.FLT_LATCH_K_ESCL g x.escl.toNat).setF F.FLT_LATCH_K_ESC g esc.toNat).setF
      F.FLT_LATCH_K_CAUSE g x.cause).setF F.FLT_LATCH_K_PART g (x.part.getD 0)).setF F.FLT_LATCH_K_PV g x.part.isSome.toNat).setF
      F.FLT_LATCH_K_UNIT g x.unit).setF F.FLT_LATCH_K_SEQ g seq

def latchP (s : State) (x : Flt) (p seq : Nat) : State :=
  if s.fb F.FLT_PLATCH_VALID p then s.setF F.FLT_PLATCH_OVF p 1
  else
    ((((((((s.setF F.FLT_PLATCH_VALID p 1).setF F.FLT_PLATCH_OVF p 0).setF F.FLT_PLATCH_ESCL p x.escl.toNat).setF F.FLT_PLATCH_ESC p 0).setF
      F.FLT_PLATCH_CAUSE p x.cause).setF F.FLT_PLATCH_PART p p).setF F.FLT_PLATCH_PV p 1).setF F.FLT_PLATCH_GROUP p x.grp).setF F.FLT_PLATCH_SEQ p seq

/-- The class after escalation: one level up when the latch of the fault's group and class holds an escalating cause (spec/13 R359). -/
def escalates (s : State) (x : Flt) : Bool :=
  x.escl && !x.prog && (if x.cls = 0 then s.fb F.FLT_LATCH_C_VALID x.grp && s.fb F.FLT_LATCH_C_ESCL x.grp
    else if x.cls = 1 then s.fb F.FLT_LATCH_K_VALID x.grp && s.fb F.FLT_LATCH_K_ESCL x.grp else false)

/-- The order in which the collector takes the faults that have reached it: those of an earlier time first; of one time the lower group, then the lower unit (spec/13 R357). -/
def faultBefore (x y : Nat × Flt) : Bool :=
  decide (x.1 < y.1) || (x.1 == y.1 && (decide (x.2.grp < y.2.grp) || (x.2.grp == y.2.grp && decide (x.2.unit < y.2.unit))))

/-- The fault a step takes. -/
def nextFault (s : State) : Option (Nat × Flt) :=
  s.flt.pend.foldl (fun o x => match o with
    | none => some x
    | some y => if faultBefore x y then some x else some y) none

/-- Latches and counts a fault after escalation (spec/13 R358, R359; OBS_PW_ERR, spec/17 R447). -/
def latchFault (s : State) (x : Flt) (esc : Bool) (cls seq : Nat) : State :=
  let s := if cls = 0 then s.satF F.FLT_CNT_CORRECTED x.grp else if cls = 1 then s.satF F.FLT_CNT_CONTAINED x.grp else s
  let s := match x.part with
    | some p => if cls = 0 then s.satF F.OBS_PW_ERR_CORRECTED p else if cls = 1 then s.satF F.OBS_PW_ERR_CONTAINED p else s
    | none => s
  match x.prog, x.part with
  | true, some p => if cls ≤ 1 then latchP s x p seq else s
  | _, _ => if cls = 0 then latchC s x esc seq else if cls = 1 then latchK s x esc seq else s

/-- Writes a fault's records (spec/13 R363). -/
def recordFault (s : State) (x : Flt) (words : List W64) (cls : Nat) (ringErr : Bool) : State :=
  if s.flt.halt ≠ 0 ∨ cls = 2 then s
  else
    let s := if cls = 3 then s else deliver s 64 words x.cmd none false
    match x.part with
    | some p => if ringErr then s else deliver s p words x.cmd x.fetchQ (cls == 3)
    | none => s

/-- The collector processes one fault (spec/13 R357 to R366). -/
def faultRaised (s : State) : State :=
  match nextFault s with
  | none => s
  | some (t, x) =>
    if s.ctlOn = false then s
    else
      let s := { s with flt := { s.flt with pend := s.flt.pend.erase (t, x) } }
      let seq := s.f F.FLT_STAT_SEQ
      let s := s.incF F.FLT_STAT_SEQ 0
      let esc := escalates s x
      let cls := if esc then x.cls + 1 else x.cls
      let s := latchFault s x esc cls seq
      let s := s.note x.part false 0xA none (seq * 2 ^ 32 + cls % 4 * 2 ^ 30 + x.grp * 2 ^ 26 + x.cause % 256 * 2 ^ 18) x.unit
      if cls = 2 then
        if s.flt.halt = 0 then { s with flt := { s.flt with halt := 1, haltFlt := some { x with cls := 2, escl := esc }, haltSeq := seq } }
        else s.setF F.FLT_FATAL_OVF 0 1
      else recordFault s x (faultWords s { x with cls := cls, escl := esc } seq) cls (x.grp == 13 && x.cause == 1)

/-- A ring write failed, or a partition ring does not translate: the ring is disabled, its records that are not issued are dropped, RING_WRITE is raised (spec/13 R364). -/
def ringError (s : State) (r id : Nat) : State :=
  let s := if r = 64 then s.setF F.FLT_GRING_CFG_EN 0 0 else s.setF F.FLT_PRING_CFG_EN r 0
  let gone := s.flt.recs.filter fun x => x.ring == r && (x.id == id || !x.issued)
  let s := gone.foldl deadRec s
  s.raise (hwFault 13 1 r false none 0)

/-- The translation of a partition ring's place has ended. -/
def ringPageDone (s : State) (r id : Nat) (o : Op) : State :=
  match s.flt.recs.find? (·.id == id) with
  | none => s
  | some x =>
    if o.status ≠ .done ∨ allMem o.spans = false then ringError s r id
    else if s.flt.halt ≥ 6 then deadRec s x
    else
      (setRec s { x with issued := true, cmd := none, fetchQ := none }).startOp
        (mkOp (.faultRec r id) ⟨r, some (s.f F.FLT_PRING_CFG_CTX r), false⟩ 112 (.spans o.spans) 0 64 true (bytesOf x.words))

/-- The write of a record has been answered: the interrupt of its ring, or RING_WRITE (spec/13 R364). -/
def faultRecDone (s : State) (r id : Nat) (o : Op) : State :=
  if o.status ≠ .done then ringError s r id
  else
    let s := dropRec s id
    if r = 64 then s.irqG 0 else if s.fb F.FLT_PRING_CFG_IRQ r ∧ s.flt.halt < 6 then s.irqP r else s

/-- A command whose last fault record has its fate completes (spec/13 R365). -/
def finishSettle (s : State) : State :=
  if s.flt.halt ≠ 0 then s
  else s.cmds.foldl (fun s c => if c.st = .finishing ∧ faultPending s c.id = false then (match s.cmd? c.id with
    | some c => completeCmd s c.id c.status
    | none => s) else s) s

/-- A write of a ring's HEAD (spec/13 R365). -/
def ringHeadWrite (s : State) (r head : Nat) : State :=
  let s := if r = 64 then s.setF F.FLT_GRING_HEAD_HEAD 0 head else s.setF F.FLT_PW_HEAD_HEAD r head
  pumpRing (s.flt.recs.length + 1) s r

/-- A hold's budget has passed (spec/13 R365). -/
def holdExpiry (s : State) (id : Nat) : State :=
  match s.flt.recs.find? (·.id == id) with
  | none => s
  | some x =>
    match x.holdUntil with
    | none => s
    | some t => if x.count.isNone ∧ t ≤ s.time ∧ s.flt.halt = 0 then deadRec s x else s

/-- A write of a ring's DEAD (spec/13 R365). -/
def deadWrite (s : State) (r : Nat) : State :=
  let s := { s with flt := { s.flt with dropped := s.flt.dropped.filter (· != r) } }
  if r = 64 then (s.setF F.FLT_G_DEAD_DEAD 0 0).setF F.FLT_G_DEAD_FIRST 0 0 else s.setF F.FLT_PW_DEAD_DEAD r 0

/-- Acknowledges a latch: class 0 CORRECTED, 1 CONTAINED, 2 a partition's (spec/13 R360). -/
def ackLatch (s : State) (g cls : Nat) : State :=
  match cls with
  | 0 => { (s.setF F.FLT_LATCH_C_VALID g 0).setF F.FLT_LATCH_C_OVF g 0 with flt := { s.flt with autoack := mdel s.flt.autoack g } }
  | 1 => (s.setF F.FLT_LATCH_K_VALID g 0).setF F.FLT_LATCH_K_OVF g 0
  | _ => (s.setF F.FLT_PLATCH_VALID g 0).setF F.FLT_PLATCH_OVF g 0

/-- The delay of the automatic acknowledgement ends; it waits until the postmaster runs (spec/13 R360, spec/15 R420). -/
def autoack (s : State) (g : Nat) : State :=
  match s.flt.autoack.find? (·.1 == g) with
  | none => s
  | some e =>
    if s.time < e.2 ∨ s.ctlOn = false ∨ s.coreUp 4 = false ∨ s.coreUp 5 = false then s
    else if s.fb F.FLT_CFG_AUTOACK then ackLatch s g 0
    else { s with flt := { s.flt with autoack := mdel s.flt.autoack g } }

/-! ### Lantern and outputs (spec/13 R367, R368) -/

/-- FAULT_CONTAINED. -/
def containedOut (s : State) : Bool :=
  (s.setIdx F.FLT_LATCH_K_VALID) != [] || (s.fb F.FLT_CFG_PROGOUT && s.setIdx F.FLT_PLATCH_VALID != [])

/-- AWAKE: from the release of the control island's reset until the entry to NAP or DORMANT, and from step 5 of a wake (spec/18 R490, spec/14 R381). -/
def awakePin (s : State) : Bool := s.ctlOn && !(s.f F.PWR_STATE_STATE == 5 && s.pwr.step != 5 && s.pwr.step != 6)

/-- A multiple of 2,048 CLK_AON cycles: the lantern, the missing echo, the next ping. -/
def lanternPeriod (s : State) : State :=
  let n := s.tsync.cycles
  if n % 2048 ≠ 0 ∨ n = s.flt.pingAt ∨ awakePin s = false then s
  else
    let ok := s.flt.echoOk && s.flt.halt < 2
    let s := if ok then s.setF F.FLT_STAT_LANTERN 0 (1 - s.f F.FLT_STAT_LANTERN) else s
    let s := { s with flt := { s.flt with pingAt := n } }
    if s.flt.pingOut then
      if s.flt.pingMissed ∧ s.flt.halt = 0 then
        -- CONTROL_SILENT: raised by the always-on island, at step 2 of the halt
        { s with flt := { s.flt with halt := 1, haltFlt := some ⟨13, 2, 2, false, false, 0, none, 0, commonDetail 0 none 0 0 0 0 0, none, none⟩, haltSeq := 0 } }
      else { s with flt := { s.flt with pingMissed := true, echoOk := false } }
    else { s with flt := { s.flt with pingOut := true, pingMissed := false, echoOk := false } }

/-- The health echo crosses back. -/
def healthEcho (s : State) : State :=
  if s.flt.pingOut ∧ s.ctlOn then { s with flt := { s.flt with pingOut := false, pingMissed := false, echoOk := true } } else s

/-! ### Injection (spec/13 R369) -/

/-- A write of FLT_INJ: its positions and target, and ARM. -/
def injWrite (s : State) (v : Nat) : State :=
  let w := BitVec.ofNat 64 v
  let s := if w.toNat.testBit 62 then s.setF F.FLT_INJ_DONE 0 0 else s
  let s := if w.toNat.testBit 61 then s.setF F.FLT_INJ_ERR 0 0 else s
  let p (n : Nat) : Nat := if 79 ≤ n then 127 else n
  let s := (((s.setF F.FLT_INJ_TARGET 0 (fieldOf w 22 21)).setF F.FLT_INJ_POS2 0 (p (fieldOf w 20 14))).setF F.FLT_INJ_POS1 0 (p (fieldOf w 13 7))).setF
    F.FLT_INJ_POS0 0 (p (fieldOf w 6 0))
  if w.toNat.testBit 63 = false then s
  else if fieldOf w 22 21 = 3 ∨ (fieldOf w 22 21 = 2 ∧ s.fb F.INT_FEAT_SECUREDEBUG = false ∧ s.fb F.INT_FEAT_OPENLAB = false) then s.setF F.FLT_INJ_ERR 0 1
  else s.setF F.FLT_INJ_ARM 0 1

end Sys2Proof.Machine
end

