-- ==== Sys2Proof/Machine/RingOps.lean ====
section
/-! DEFINITION. The queue engine's flow (spec/02): rings and doorbells, ENABLE and the disable requests, batches and scans, the start of descriptors (spec/04 R108). -/

namespace Sys2Proof.Machine

/-! ### Inputs of the host -/

/-- A write of a register that would start work has no effect once the fabric halts or before the control island runs (spec/13 R366, spec/18 R494). -/
def hostOk (s : State) : Bool := s.ctlOn && s.flt.halt == 0

/-- The letterbook's record of a host write (spec/17 R456): key queue, or none. -/
def hostWr (s : State) (q : Option Nat) (off v : Nat) : State :=
  s.note (match q with
    | some n => some (s.qPart n)
    | none => if 0x1000000 ≤ off ∧ off < 0x1400000 then some ((off - 0x1000000) / 65536) else none) true 0x15 q off v

/-- A replay run with INPUTS makes the host writes of partition `p` itself (spec/17 R462). -/
def windowReplayed (s : State) (p : Nat) : Bool := s.fb F.OBS_RP_CFG_INPUTS && s.rpState p == 1

/-- A replay run with INPUTS makes the inputs of queue `q` itself (spec/17 R462). -/
def inputsReplayed (s : State) (q : Nat) : Bool := windowReplayed s (s.qPart q)

/-- The queue of a partition with a doorbell slot (spec/02 R43). -/
def queueOfSlot (s : State) (p d : Nat) : Option Nat :=
  (s.setIdx F.QE_QCFG_ASSIGNED).find? fun q => s.qPart q == p && s.f F.QE_QCFG_DBSLOT q == d

/-- A discarded ring (spec/02 R44, R46). -/
def stray (s : State) : State := s.incF F.QE_DB_STRAY_COUNT 0

/-- A ring reaches a queue; `src` 0 H-port, 1 ENQUEUE, 2 porter (spec/02 R45, R46, spec/17 R456). -/
def ringQueue (s : State) (q src : Nat) : State :=
  match (s.q q).st with
  | .disabled => stray s
  | .draining => stray s
  | _ =>
    let s := if s.mirrored q then s.mirror (.hostwr q none) else s
    ring s q src

/-- A doorbell write delivered to the queue engine: a queue's slot, the fence doorbell at 0xF00, or none (spec/02 R43, R44, spec/05 R150). -/
def deliverDoorbell (s : State) (p off src : Nat) : State :=
  -- the partition is being disabled (spec/16 R435 step 1)
  if s.f F.PRT_STAT_STATE p = 2 then stray s
  else if off = 0xF00 then fenceDoorbell s p
  else if 0xF00 ≤ off then stray s
  else match queueOfSlot s p (off / 4) with
    | none => stray s
    | some q => if inputsReplayed s q then s else ringQueue s q src

/-- The sorter cores run, so that rings are delivered (spec/01 R33). -/
def ringsDelivered (s : State) : Bool := s.ctlOn && decide (6 ≤ s.f F.INT_STARTUP_STEP) && s.awake && s.f F.INT_STARTUP_STEP != 7

/-- DOORBELL_WRITE: discarded before the control island runs, latched by the porter while it sleeps or starts, else delivered (spec/01 R33, spec/02 R44, R46). -/
def doorbellWrite (s : State) (p off : Nat) : State :=
  if s.f F.INT_STARTUP_STEP < 2 ∨ s.rst ≠ 0 ∨ s.flt.halt ≠ 0 then s
  else if ringsDelivered s then deliverDoorbell s p off 0
  else if s.latch.contains (p, off) then s
  else { s with latch := s.latch ++ [(p, off)] }

/-- The latched rings are delivered (spec/01 R33, spec/14 R381). -/
def deliverLatched (s : State) : State :=
  if ringsDelivered s then s.latch.foldl (fun s e => deliverDoorbell s e.1 e.2 2) { s with latch := [] } else s

/-! ### Ring translations (spec/02 R35, R61) -/

/-- Starts the translation of one ring: the descriptor ring for read, or the completion ring for write. -/
def ringXl (s : State) (q : Nat) (cq : Bool) (why : Nat) : State :=
  let base := (if cq then s.f F.QE_CQ_BASE_BASE q else s.f F.QE_RING_BASE_BASE q) * 4096
  let n := if cq then 32 * 2 ^ s.cqLog q else 64 * 2 ^ s.sqLog q
  (s.setQ q { s.q q with ringReq := why + 1 }).startOp { mkOp (.ringXl q cq why) (s.qIdent q) 112 .va base n cq [] with xlOnly := true, memOnly := true }

/-- Both rings are translated, the descriptor ring first; a translation of them in flight is given up. Why: 0 ENABLE, 1 an invalidation, 2 to 4 a request that waits for it. -/
def ringsXl (s : State) (q why : Nat) : State :=
  let s := { s with ops := s.ops.filter fun o => match o.pur with
    | .ringXl n _ _ => n != q
    | _ => true }
  ringXl (s.setQ q { s.q q with sqOk := false, cqOk := false, ringBad := false }) q false why

/-- What is left of a queue on ENABLE: every register and count at 0, not enabled yet. -/
def freshQueue (s : State) (q : Nat) : State :=
  s.setQ q {}

/-- The checks of ENABLE (spec/02 R35, R52, R60, spec/10 R266, spec/12 R336, spec/16 R427, spec/15 R424). -/
def enableOk (s : State) (q : Nat) : Bool :=
  let p := s.qPart q
  let d := s.f F.QE_QCFG_DBSLOT q
  decide (4 ≤ s.sqLog q) && decide (s.sqLog q ≤ 16) && decide (4 ≤ s.cqLog q) && decide (s.cqLog q ≤ 16) && s.f F.QE_QCFG_DEPTH q != 0
    && decide (d < 960) && !((s.setIdx F.QE_QCFG_ASSIGNED).any fun o => o != q && s.qPart o == p && s.f F.QE_QCFG_DBSLOT o == d)
    && s.f F.FW_UPDATE_STATE != 4 && s.f F.PRT_STAT_STATE p == 1
    && s.fb F.XLT_CTX_EN (s.qCtx q) && s.f F.XLT_CTX_PART (s.qCtx q) == p
    && (!s.mirrored q || (!s.qHyp q && s.mirPart p))

/-- ENABLE (spec/02 R52, R60). DESIGN CHOICE (log 94): an ENABLE written while the ring translations of an earlier one are in flight begins them anew. -/
def enable (s : State) (q : Nat) : State :=
  if (s.q q).st ≠ .disabled then s
  else
    let s := freshQueue s q
    let s := ((((s.setF F.QE_CQ_HEAD_HEAD q 0).setF F.QE_ERR_INDEX_CAUSE q 0).setF F.QE_ERR_INDEX_WORD q 0).setF F.QE_ERR_INDEX_INDEX q 0).setF F.QE_ENQ_PCOUNT q 0
    if enableOk s q then ringsXl s q 0 else s.setF F.QE_ERR_INDEX_CAUSE q 10

/-- The taken descriptors that no command has started from end aborted; SKIP and ended ones keep theirs (spec/02 R57). -/
def abortDescs (s : State) (q : Nat) : State :=
  s.setQ q { s.q q with descs := (s.q q).descs.map fun d => if d.st = 0 then
      { d with st := 2, endSt := some (0, abortStatus s q, 0, none) } else d }

/-- A command waits in a way that an abort abandons (spec/02 R57). -/
def waits (s : State) (c : Cmd) : Bool :=
  s.waits.any (fun w => match w.who with
    | .queue _ id => id == c.id
    | _ => false) || (match c.body with
    | .enqueue .. => c.aux == 1
    | .pdef .. => c.aux == 0
    | .ppatch .. => c.aux == 0
    | .pfree .. => c.aux == 0
    | .waitge .. => true
    | _ => false)

/-- A command goes no further: its waiter, its access and its claim are withdrawn. -/
def abandon (s : State) (id : Nat) : State :=
  releaseClaim (abandonWait s id) id

/-- What an abort does to a started command (spec/02 R57, spec/06 R178, spec/10 R291); one admitted as a whole holds no unit and finishes (spec/06 R169). -/
def abortCmd (s : State) (c : Cmd) : State :=
  let st := abortStatus s c.q
  if c.whole then s else match c.st with
  | .held => endCmd s c.id st
  | .aside _ => endCmd (s.setCmd { c with st := .running }) c.id st
  | .running => if waits s c then endCmd (abandon s c.id) c.id st else s
  | .admitted =>
    let more : Bool := match c.body with
      | .dispatch .. => dispatchLeft c != 0
      | .tilepass _ _ _ _ tx ty _ _ _ => decide (c.nxt < tx * ty) || c.tiles.any fun t => t.st ≤ 1
      | _ => false
    if more then
      let s := s.setCmd { c with abort := some st, tiles := c.tiles.map fun t => if t.st ≤ 1 then { t with st := 4 } else t }
      match c.body with
      | .dispatch .. => dispatchDone s c.id
      | _ => tileDone s c.id
    else s
  | _ => s

/-- DISABLE_ABORT has taken effect (spec/02 R57). -/
def abortQueue (s : State) (q : Nat) : State :=
  let s := s.setQ q { s.q q with aborting := true }
  let s := abortDescs s q
  let s := (s.cmds.filter (·.q == q)).foldl (fun s c => match s.cmd? c.id with
    | some c => abortCmd s c
    | none => s) s
  let Q := s.q q
  let s := match Q.blk with
    | .ready => abortProgram s q
    | .fetching => abortProgram s q
    | .starting => abortProgram s q
    | _ => s
  let s := s.setQ q { s.q q with asideFetch := none }
  queueSettle (pushEnds (s.q q).descs.length s q) q

/-- The queue moves to DRAINING: no further descriptor is taken (spec/02 R56). DESIGN CHOICE (log 94): the pending bit is cleared, which the spec leaves open. -/
def startDisable (s : State) (q : Nat) (abort : Bool) : State :=
  let s := dropScan s q
  let s := s.setQ q { s.q q with st := .draining, pend := false }
  if abort then abortQueue s q else queueSettle s q

/-- The effect of DISABLE_DRAIN, DISABLE_ABORT or RESUME, why 2, 3, 4, on a queue whose rings are translated as far as it needs (spec/02 R52, R55 to R57). -/
def requestGo (s : State) (q why : Nat) : State :=
  let Q := s.q q
  match Q.st with
  | .stoppedError => if why = 4 then queueSettle (s.setQ q { Q with st := .active }) q else startDisable s q (why == 3)
  | .idle => if why = 4 then s else startDisable s q (why == 3)
  | .active => if why = 4 then s else startDisable s q (why == 3)
  | _ => s

/-- The queue is STOPPED_ERROR with cause RING_XLATE, or without its rings (spec/02 R61). -/
def ringBroken (s : State) (q : Nat) : Bool :=
  (s.q q).st == .stoppedError && (s.f F.QE_ERR_INDEX_CAUSE q == 9 || (!((s.q q).sqOk && (s.q q).cqOk)))

/-- DISABLE_DRAIN, DISABLE_ABORT or RESUME: why 2, 3, 4 (spec/02 R52, R55 to R57, R59, R61). DESIGN CHOICE (log 94): while FROZEN a second request replaces the one held; while the rings are being translated for a request, a disable request stands and RESUME gives way to one. -/
def request (s : State) (q why : Nat) : State :=
  let Q := s.q q
  if Q.st = .frozen then s.setQ q { Q with held := some why }
  else if ringBroken s q then (if Q.ringReq = 3 ∨ Q.ringReq = 4 then s else ringsXl s q why)
  else requestGo s q why

/-- A re-translation under R61 has failed. DESIGN CHOICE (log 94): of a queue that is FROZEN, the recorded state becomes STOPPED_ERROR. -/
def ringLost (s : State) (q : Nat) : State :=
  let hit (x : QState) : Bool := x == .idle || x == .active || x == .draining
  let s := dropScan s q
  let Q := s.q q
  let Q := { Q with aborting := false, st := if hit Q.st then .stoppedError else Q.st,
                    prior := if Q.st = .frozen ∧ hit Q.prior then .stoppedError else Q.prior }
  let s := (s.setQ q Q).setF F.QE_ERR_INDEX_CAUSE q 9
  s.raise ⟨0, 2, 1, true, false, q, some (s.qPart q), 0, commonDetail 0 none q 0 0 0 0, none, none⟩

/-- Both rings have been translated as far as they can be; `good` when both have. -/
def ringsDone (s : State) (q why : Nat) (good : Bool) : State :=
  let Q := s.q q
  if Q.st = .disabled then
    if why ≠ 0 then s
    -- a partition that has begun to disable meanwhile refuses the ENABLE (spec/16 R429; log 94)
    else if s.f F.PRT_STAT_STATE (s.qPart q) ≠ 1 then (s.setQ q { Q with sqOk := false, cqOk := false }).setF F.QE_ERR_INDEX_CAUSE q 10
    else if good then queueSettle (s.setQ q { Q with st := .idle }) q
    else (s.setQ q { Q with sqOk := false, cqOk := false }).setF F.QE_ERR_INDEX_CAUSE q 9
  else
    let s := writeRecs Q.recs.length s q
    if good = false then (if why = 1 then ringLost s q else s)
    else if 2 ≤ why then requestGo s q why
    else queueSettle s q

/-- A ring's translation has ended: the completion ring follows the descriptor ring, whatever became of it. -/
def ringXlDone (s : State) (q : Nat) (cq : Bool) (why : Nat) (o : Op) : State :=
  let Q := s.q q
  let good := o.status == .done && allMem o.spans
  if Q.ringReq ≠ why + 1 then s
  else if cq = false then
    ringXl (s.setQ q { Q with sqOk := good, sqRing := if good then o.spans else Q.sqRing, ringBad := !good }) q true why
  else
    ringsDone (s.setQ q { Q with cqOk := good, cqRing := if good then o.spans else Q.cqRing, ringReq := 0, ringBad := false }) q why (good && !Q.ringBad)

/-- The rings of the enabled queues of a context are translated again, and so are those a translation in flight has not finished (spec/02 R61; log 94). -/
def retranslateRings (s : State) (ctx : Nat) : State :=
  s.qs.foldl (fun s e =>
    let Q := s.q e.1
    if s.qCtx e.1 ≠ ctx then s
    else if Q.ringReq ≠ 0 then ringsXl s e.1 (Q.ringReq - 1)
    else if Q.st ≠ .disabled ∧ (Q.sqOk || Q.cqOk) then ringsXl s e.1 1
    else s) s

/-! ### Batches and the scan (spec/02 R41, R42, R47, R53) -/

/-- Descriptors taken and not yet started (spec/02 R42). -/
def heldCount (s : State) (q : Nat) : Nat := ((s.q q).descs.filter (·.st == 0)).length

/-- A batch of the queue may be read now. -/
def wantsBatch (s : State) (q : Nat) : Bool :=
  let Q := s.q q
  Q.st == .active && !Q.batchOut && Q.scanWords == [] && !Q.scanXl && (Q.pend || Q.scanning) && Q.sqOk && decide (heldCount s q < s.f F.QE_QCFG_DEPTH q)
    && s.sorterUp q && !s.passive q && s.awake && s.flt.halt == 0

/-- The next queue in round-robin order that wants a batch. -/
def nextBatch (s : State) : Option Nat := (roundRobin 4096 s.rr (s.qs.map (·.1))).find? (wantsBatch s)

/-- Issues one batch read (spec/02 R41, R42, R45). -/
def batchIssue (s : State) : State :=
  match nextBatch s with
  | none => s
  | some q =>
    let Q := s.q q
    let c := Q.sq.toNat
    let n := min (4 - c % 4) (s.f F.QE_QCFG_DEPTH q - heldCount s q)
    let s := { s.setQ q { Q with pend := if Q.scanning then Q.pend else false, scanning := true, batchOut := true, scanFirst := Q.sq } with rr := q }
    s.startOp (mkOp (.batch q) (s.qIdent q) 112 (.spans Q.sqRing) (64 * (c % 2 ^ s.sqLog q)) (64 * n) false [])

/-- The examination of a batch has ended; the letterbook records what was taken (spec/17 R456). -/
def batchEnd (s : State) (q : Nat) (scanOver : Bool) : State :=
  let Q := s.q q
  let n := (Q.sq - Q.scanFirst).toNat
  let s := s.note (some (s.qPart q)) false 1 (some q) (Q.scanFirst.toNat * 2 ^ 32 + n) 0
  queueSettle (s.setQ q { s.q q with scanWords := [], scanXl := false, scanning := !scanOver && (s.q q).scanning }) q

/-- The first failed check at scan, 1 to 6: its cause (spec/02 R38, R53). DESIGN CHOICE (log 94): an ARGADDR that is not 0 while ARGV is 0 fails check 3, RESERVED; the table names no check for it. -/
def scanCheck (s : State) (q : Nat) (w : List W64) : Option Nat :=
  let w0 := w.getD 0 0
  let ty := fieldOf w0 59 56
  let skip := ty == 2
  let argv := w0.toNat.testBit 50
  let res := fieldOf w0 48 32 != 0 || w.getD 7 0 != 0 || fieldOf (w.getD 2 0) 63 20 != 0 || (!argv && w.getD 3 0 != 0)
    || (skip && (fieldOf w0 55 49 != 0 || (w.drop 1).any (· != 0)))
  if fieldOf w0 62 60 ≠ 3 then some 1
  else if ty ≠ 1 ∧ ty ≠ 2 then some 2
  else if res then some 3
  else if skip then none
  else if fieldOf w0 55 52 ≠ 4 ∧ ¬ (fieldOf w0 55 52 = 3 ∧ s.fb F.QE_QCFG_CS3EN q) then some 4
  else if fieldOf (w.getD 2 0) 19 0 = 0 then some 5
  else if (w.getD 1 0).toNat % 8 ≠ 0 ∨ (argv ∧ (w.getD 3 0).toNat % 64 ≠ 0) then some 6
  else none

/-- A descriptor taken at the scan count, with the epoch its ranges were translated under (spec/02 R47, spec/10 R279). -/
def takenDesc (s : State) (q : Nat) (w : List W64) (epoch : Nat) (cb arg : List Span) (st : Nat) (mal : Option Status) : Desc :=
  { count := (s.q q).sq.toNat, words := w, epoch, stale := false, cb, arg, st, malformed := mal, endSt := none, overrun := false,
    restarted := false, migrated := false, time := 0, bytes := 0, energy := 0, aborted := false }

/-- Takes a descriptor: a completion entry is reserved and the scan count advances (spec/02 R42, R50). -/
def takeDesc (s : State) (q : Nat) (d : Desc) : State :=
  let s := reserve s q
  let Q := s.q q
  s.setQ q { Q with descs := Q.descs ++ [d], sq := Q.sq + 1, scanWords := Q.scanWords.drop 1, scanXl := false, scanSpans := [] }

/-- A malformed descriptor (spec/02 R53, R54). -/
def takeMalformed (s : State) (q : Nat) (w : List W64) (cause : Nat) (x : Option XFail) : State :=
  let st : Status := if cause = 7 then .xlateFault else .malformed
  let c := (s.q q).sq.toNat
  let s := takeDesc s q (takenDesc s q w 0 [] [] 2 (some st))
  let s := setErr (stopQueue s q) q cause none (c % 2 ^ s.sqLog q)
  let s := match x with
    | some x =>
      s.raise ⟨5, 1, 1, true, false, 112, some (s.qPart q), st.code, xlateDetail x.va ⟨q, c, 0, none⟩ x.epoch (s.qCtx q) x.kind 2 false 112 x.level, none, none⟩
    | none => s.raise ⟨0, 1, 1, true, false, q, some (s.qPart q), st.code, commonDetail 0 (some ⟨q, c, 0, none⟩) q 0 0 0 0, none, none⟩
  let s := batchEnd s q true
  pushEnds (s.q q).descs.length s q

/-- Starts a pre-translation of a descriptor's range (spec/02 R47). -/
def scanXlStart (s : State) (q : Nat) (w : List W64) (arg : Bool) : State :=
  let a := if arg then (w.getD 3 0).toNat else (w.getD 1 0).toNat
  let n := if arg then 128 else 8 * fieldOf (w.getD 2 0) 19 0
  (s.setQ q { s.q q with scanXl := true }).startOp { mkOp (.scanXl q arg) (s.qIdent q) 112 .va a n false [] with xlOnly := true, memOnly := true, acc := 2 }

/-- How many descriptors of the batch the rules or a record allow: none when it waits for its record (spec/17 R462). -/
def scanLimit (s : State) (q : Nat) : Option (Nat × Option (List W64)) :=
  match s.verdict (s.qPart q) (some q) (.queue q) with
  | .free => some (4, none)
  | .wait => none
  | .must r => if lbKind r = 1 ∧ lbBits r 2 63 32 = (s.q q).scanFirst.toNat then some (lbBits r 2 31 0, some r) else none

/-- The next descriptor of a batch is examined (spec/02 R42, R53). -/
def scanGo : Nat → State → Nat → State
  | 0, s, _ => s
  | fuel + 1, s, q =>
    let Q := s.q q
    if Q.st ≠ .active ∨ Q.scanXl ∨ Q.scanning = false then s
    else match scanLimit s q with
      | none =>
        -- the record names another batch than the one that stands here (spec/17 R463)
        (match s.verdict (s.qPart q) (some q) (.queue q) with
          | .must r => if lbKind r = 1 ∧ s.rpState (s.qPart q) = 1 then s.diverge 2 r q Q.sq.toNat 0 else s
          | _ => s)
      | some (lim, r) =>
        let fin (s : State) (ran : Bool) : State :=
          let s := match r with
            | some r => s.applied r
            | none => s
          batchEnd s q ran
        let taken := (Q.sq - Q.scanFirst).toNat
        match Q.scanWords with
        | [] => s
        | w :: rest =>
          let owned := (w.getD 0 0).toNat.testBit 63 == phaseOf (s.sqLog q) Q.sq
          if lim ≤ taken then fin s (decide (lim < 4) && !owned)
          else if owned = false then
            match r with
            | some r => s.diverge 2 r q Q.sq.toNat 0
            | none => fin s true
          else if cqFree s q = false then s
          else match scanCheck s q w with
            | some c => takeMalformed (match r with
              | some r => s.applied r
              | none => s) q w c none
            | none =>
              if fieldOf (w.getD 0 0) 59 56 = 2 then
                let s := takeDesc s q (takenDesc s q w 0 [] [] 2 none)
                let s := pushEnds (s.q q).descs.length s q
                if rest = [] then fin s false else scanGo fuel s q
              else scanXlStart s q w false

/-- A batch read has returned (spec/02 R42). -/
def batchDone (s : State) (q : Nat) (o : Op) : State :=
  let s := s.setQ q { s.q q with batchOut := false }
  let Q := s.q q
  if Q.st ≠ .active ∨ o.status ≠ .done then queueSettle (s.setQ q { Q with scanning := false }) q
  else scanGo 8 (s.setQ q { Q with scanWords := (List.range (o.len / 64)).map fun i => wordsOf 8 (o.data.drop (64 * i)) }) q

/-- A pre-translation has ended (spec/02 R47). -/
def scanXlDone (s : State) (q : Nat) (arg : Bool) (o : Op) : State :=
  let Q := s.q q
  if Q.scanXl = false then s
  else match Q.scanWords with
    | [] => s.setQ q { Q with scanXl := false }
    | w :: rest =>
      match o.xfail with
      | some x => takeMalformed s q w 7 (some x)
      | none =>
      if arg = false ∧ (w.getD 0 0).toNat.testBit 50 then scanXlStart (s.setQ q { Q with scanSpans := o.spans, scanEpoch := o.epoch }) q w true
      else
        let (cb, ar, ep) := if arg then (Q.scanSpans, o.spans, Q.scanEpoch) else (o.spans, [], o.epoch)
        let s := takeDesc s q (takenDesc s q w ep cb ar 0 none)
        if rest = [] then
          match scanLimit s q with
          | some (_, some r) => batchEnd (s.applied r) q false
          | _ => batchEnd s q false
        else scanGo 8 s q

/-! ### Starting descriptors (spec/02 R39, R48, spec/04 R108) -/

/-- The descriptor the sorter starts next: the first that has not started, once the previous program has ended and its FENCE holds. -/
def startable (s : State) (q : Nat) : Option Desc :=
  let Q := s.q q
  if (curDesc s q).isSome ∨ s.sorterUp q = false ∨ s.passive q ∨ Q.aborting ∨ Q.st = .frozen ∨ Q.st = .disabled ∨ hasAside s q ∨ Q.asideFetch.isSome then none
  else match Q.descs.find? (·.st == 0) with
    | none => none
    | some d => if descFence d ∧ s.cmds.any (·.q == q) then none else some d

/-- Loads the registers and begins the program (spec/02 R39), or goes on where a takeover's checkpoint stands (spec/12 R344). -/
def beginProgram (s : State) (q : Nat) (d : Desc) (args : Option (List W64)) : State :=
  match (s.q q).resumeAt with
  | some (c, o, pc, loc, st) =>
    if c = d.count then advance (s.setQ q { s.q q with blk := .ready, resumeAt := none, ord := o, pc, loc, stack := st }) q else beginFresh s q d args
  | none => beginFresh s q d args
where
  beginFresh (s : State) (q : Nat) (d : Desc) (args : Option (List W64)) : State :=
  let s := ((s.setG q 1 (d.words.getD 4 0)).setG q 2 (d.words.getD 5 0)).setG q 3 (d.words.getD 6 0)
  let s := match args with
    | some l => (List.range 16).foldl (fun (s : State) i => s.setG q (16 + i) (l.getD i 0)) s
    | none => s
  advance (s.setQ q { s.q q with blk := .ready }) q

/-- Reads the argument block, or begins the program; a translation of an older epoch is not used (spec/10 R283). -/
def startGo (s : State) (q : Nat) (d : Desc) : State :=
  if descArgv d then
    let (sp, a) : ASpace × Nat := if descFresh s q d then (.spans d.arg, 0) else (.va, (d.words.getD 3 0).toNat)
    (s.setQ q { s.q q with blk := .starting }).startOp { mkOp (.argBlock q) (s.qIdent q) 112 sp a 128 false [] with acc := 2, memOnly := true }
  else beginProgram s q d none

/-- Translates a range of a descriptor again at its start (spec/02 R48). -/
def startXl (s : State) (q : Nat) (d : Desc) (arg : Bool) : State :=
  let a := if arg then (d.words.getD 3 0).toNat else (d.words.getD 1 0).toNat
  let n := if arg then 128 else 8 * descCbLen d
  (s.setQ q { s.q q with blk := .starting }).startOp { mkOp (.startXl q arg) (s.qIdent q) 112 .va a n false [] with xlOnly := true, memOnly := true, acc := 2 }

/-- DESCRIPTOR_START. -/
def descriptorStart (s : State) (q : Nat) : State :=
  match startable s q with
  | none => s
  | some d =>
    let s := setDesc s q { d with st := 1 }
    let s := s.setQ q { s.q q with pc := 0, loc := none, stack := [], winAt := 0, win := [], ord := 0 }
    if descFresh s q d then startGo s q d else startXl s q d false

/-- The program of the running descriptor ends before its first command, with a status. -/
def endUnstarted (s : State) (q : Nat) (st : Status) : State :=
  match curDesc s q with
  | none => s
  | some d =>
    let (w, pcl) := atWord s q
    let s := endProgram (setDesc s q (noteEnd d (s.q q).ord st w pcl)) q
    queueSettle (pushEnds (s.q q).descs.length s q) q

/-- The detail of a failed fetch (spec/10 R289). -/
def fetchDetail (s : State) (q : Nat) (d : Desc) (x : XFail) : List W64 :=
  let (w, pcl) := atWord s q
  xlateDetail x.va ⟨q, d.count, w, pcl⟩ x.epoch (s.qCtx q) x.kind 2 true 112 x.level

/-- The program ends with XLATE_FAULT and the queue stops (spec/10 R275). -/
def fetchStop (s : State) (q : Nat) (d : Desc) (st : Status) (det : List W64) : State :=
  let s := s.raise ⟨5, 1, 1, true, false, 112, some (s.qPart q), st.code, det, none, none⟩
  endUnstarted (setErr (stopQueue s q) q 7 none (d.count % 2 ^ s.sqLog q)) q st

/-- A page fault of a fetch sets the queue aside (spec/02 R48, spec/10 R286). -/
def fetchAside (s : State) (q : Nat) (det : List W64) : State :=
  let s := (s.setQ q { s.q q with asideFetch := some s.time, asideDet := det }).incF F.XLT_STAT_PFAULTS 0
  s.raise ⟨5, 0x10, 3, true, false, 112, some (s.qPart q), 0, det, none, some q⟩

/-- An access the sorter makes for the running program has failed: a page fault sets the queue aside, another translation failure stops it, an error response ends the program (spec/02 R48, spec/10 R275, R286). -/
def fetchFail (s : State) (q : Nat) (d : Desc) (o : Op) : State :=
  match o.xfail with
  | some x =>
    let det := fetchDetail s q d x
    if x.pf then fetchAside s q det else fetchStop s q d (if x.bad then .uncorrected else .xlateFault) det
  | none => endUnstarted s q o.status

/-- A translation at the start of a descriptor has ended (spec/02 R48). -/
def startXlDone (s : State) (q : Nat) (arg : Bool) (o : Op) : State :=
  match curDesc s q with
  | none => s
  | some d =>
    if (s.q q).blk ≠ .starting then s
    else if o.status ≠ .done then fetchFail s q d o
    else if arg = false then
      let d := { d with cb := o.spans, epoch := o.epoch, stale := false }
      let s := setDesc s q d
      if descArgv d then startXl s q d true else startGo s q d
    else startGo (setDesc s q { d with arg := o.spans }) q { d with arg := o.spans }

/-- The argument block has been read (spec/02 R39). -/
def argBlockDone (s : State) (q : Nat) (o : Op) : State :=
  match curDesc s q with
  | none => s
  | some d =>
    if (s.q q).blk ≠ .starting then s
    else if o.status ≠ .done then fetchFail s q d o
    else beginProgram s q d (some (wordsOf 16 o.data))

/-- A fetch has returned (spec/03 R63; log 7). -/
def fetchDone (s : State) (q : Nat) (o : Op) : State :=
  let Q := s.q q
  match curDesc s q with
  | none => s
  | some d =>
    if Q.blk ≠ .fetching then s
    else if o.status ≠ .done then fetchFail s q d o
    else queueSettle (advance (s.setQ q { Q with blk := .ready, win := wordsOf (o.len / 8) o.data }) q) q

/-- The write of a completion record has been answered: the partition's interrupt, the queue's state (spec/01 R28, spec/02 R51, R52). -/
def recordDone (s : State) (q : Nat) (irq isEnd : Bool) (sq : Nat) : State :=
  let Q := s.q q
  let s := s.setQ q { Q with recsOut := Q.recsOut - 1,
                             descs := if isEnd then Q.descs.filter (fun d => !(d.count == sq && d.st == 3)) else Q.descs }
  let s := if irq ∧ s.flt.halt < 6 then s.irqP (s.qPart q) else s
  queueSettle s q

/-- A write of QE_CQ_HEAD: entries are freed, a waiting scan goes on (spec/02 R50, R59). -/
def cqHeadWrite (s : State) (q head : Nat) : State :=
  -- at a STANDBY twin the write is ignored (spec/12 R338)
  if s.mirrored q ∧ s.f F.ECH_STAT_ROLE = 2 then s else
  let s := (s.setQ q { s.q q with head := BitVec.ofNat 32 head }).setF F.QE_CQ_HEAD_HEAD q head
  let s := if s.mirrored q then s.mirror (.hostwr q (some head)) else s
  scanGo 8 s q

end Sys2Proof.Machine
end

