-- ==== Sys2Proof/Machine/CmdOps.lean ====
section
/-! DEFINITION. The commands of a program (spec/03 R62 to R103): the checks at start, and the effect of each command once it has started. -/

namespace Sys2Proof.Machine

/-! ### Checks at start (spec/03 R71) -/

/-- The word a taken jump of the ready command lands on; none outside the program (spec/03 R73). -/
def jumpTarget (s : State) (q word off : Nat) : Option Nat :=
  let t : Int := (word : Int) + toSigned 32 off
  if 0 ≤ t ∧ t < (progLen s q : Int) then some t.toNat else none

/-- The effective address of LD and ST (spec/03 R78). -/
def effAddr (s : State) (q ga off : Nat) : W64 := s.greg q ga + sext 32 off

/-- LOOP jumps: its counter register is not G0 and its new value is not 0 (spec/03 R74). -/
def loopJumps (s : State) (q gc : Nat) : Bool := gc != 0 && s.greg q gc - 1 != 0

/-- The checks at start of the ready command. -/
def startOk (s : State) (q : Nat) : Body → Bool
  | .jump off => (jumpTarget s q (s.q q).pc off).isSome
  | .branch c ga gb off => !condOf c (s.greg q ga) (s.greg q gb) || (jumpTarget s q (s.q q).pc off).isSome
  | .loop gc off => !loopJumps s q gc || (jumpTarget s q (s.q q).pc off).isSome
  | .callp n => defined s (s.qPart q) n && decide ((s.q q).stack.length < 8)
  | .ppatch _ _ n _ _ => defined s (s.qPart q) n
  | .pfree n => defined s (s.qPart q) n
  | .ld sp _ ga size off => (effAddr s q ga off).toNat % 2 ^ size == 0 && galOk s sp (effAddr s q ga off)
  | .st sp _ ga size off => (effAddr s q ga off).toNat % 2 ^ size == 0 && galOk s sp (effAddr s q ga off)
  | _ => true

/-! ### Effects -/

/-- A register that a command has written, kept for its output summary (spec/12 R347). -/
def sumReg (s : State) (id g : Nat) (v : W64) : State :=
  match s.cmd? id with
  | some c => s.setCmd { c with sumR := g, sumV := v }
  | none => s

/-- Writes the destination register of a command and completes it. -/
def doneReg (s : State) (id q g : Nat) (v : W64) : State := endCmd (sumReg (s.setG q g v) id g v) id .done

/-- Moves the program counter of a queue. -/
def setPcQ (s : State) (q : Nat) (t : Option Nat) : State :=
  match t with
  | some t => s.setQ q { s.q q with pc := t }
  | none => s

/-- LOOP (spec/03 R74). -/
def doLoop (s : State) (c : Cmd) (gc off : Nat) : State :=
  let t := if loopJumps s c.q gc then jumpTarget s c.q c.word off else none
  let v := s.greg c.q gc - 1
  setPcQ (sumReg (s.setG c.q gc v) c.id gc v) c.q t

/-- CMP (spec/03 R77). -/
def doCmp (s : State) (c : Cmd) (cond pd ga : Nat) (b : Src) (comb : Nat) : State :=
  let r := condOf cond (s.greg c.q ga) (srcVal s c.q b)
  let old := s.pred c.q pd
  let v := if comb = 0 then r else if comb = 1 then old && r else old || r
  endCmd ((s.setP c.q pd v).setCmd { c with sumP := pd * 2 + v.toNat }) c.id .done

/-- A signal of a SIGNAL command (spec/03 R80). -/
def doSignal (s : State) (c : Cmd) (f : SigForm) (v : W64) (ph : Nat) : State :=
  let (s, r) := phSignal s ph f v (some c.q)
  let s := match s.cmd? c.id with
    | some c => s.setCmd { c with sumPh := ph, sumPhV := (s.row ph).value, sumV := (s.row ph).value }
    | none => s
  endCmd s c.id r.status

/-- A set that the partition may not read (spec/17 R450, R451). -/
def snapRefused (s : State) (q set : Nat) : Bool := decide (0x10 ≤ set) && !s.qHyp q && !s.fb F.INT_FEAT_OPENLAB

/-- SNAP (spec/03 R97, spec/17 R449). -/
def doSnap (s : State) (c : Cmd) (set : Nat) (addr : W64) : State :=
  if snapRefused s c.q set then endCmd s c.id .unsupported
  else
    let ws := snapWords s (s.qPart c.q) set
    s.startOp (mkOp (.snap c.id) (s.qIdent c.q) 112 .va addr.toNat (8 * ws.length) true (bytesOf ws))

/-- A new invalidation waits (spec/10 R282). -/
def addInval (s : State) (ctx scope seg start len : Nat) (cmd pw : Option Nat) : State :=
  State.bump { s with xlt := { s.xlt with invs := s.xlt.invs ++ [⟨s.nid, ctx, scope, seg, start, len, cmd, pw, 0, [], s.time, 0, []⟩] } }

/-- WAITGE (spec/03 R79, spec/05 R143, R147, R152): the threshold is that of the start. -/
def doWaitge (s : State) (c : Cmd) (kind : Nat) (target thr : W64) : State :=
  match kind with
  | 0 => waitPh s c target.toNat thr
  | 1 => waitFence s c target.toNat thr
  | _ => waitCounter s c target.toNat thr

/-- What a command does once it has started: blocking commands that need no access complete, the others begin their accesses or wait; placed commands are held for admission. -/
def runCmd (s : State) (id : Nat) : State :=
  match s.cmd? id with
  | none => s
  | some c =>
    let q := c.q
    match c.body with
    | .nop _ => endCmd s id .done
    | .jump off => endCmd (setPcQ s q (jumpTarget s q c.word off)) id .done
    | .branch k ga gb off =>
      endCmd (if condOf k (s.greg q ga) (s.greg q gb) then setPcQ s q (jumpTarget s q c.word off) else s) id .done
    | .loop gc off => endCmd (doLoop s c gc off) id .done
    | .callp _ => s.setCmd { c with aux := 1 }
    | .ret => endCmd (doReturn s q) id .done
    | .movi gd v => doneReg s id q gd (sext 32 v)
    | .movil gd v => doneReg s id q gd v
    | .alu o gd ga b => doneReg s id q gd (o.eval (s.greg q ga) (srcVal s q b))
    | .cmp k pd ga b comb => doCmp s c k pd ga b comb
    | .ld sp _ ga size off =>
      s.startOp (mkOp (.ld id) (s.qIdent q) 112 (if sp then .gal else .va) (effAddr s q ga off).toNat (2 ^ size) false [])
    | .st sp gs ga size off =>
      s.startOp (mkOp (.st id) (s.qIdent q) 112 (if sp then .gal else .va) (effAddr s q ga off).toNat (2 ^ size) true
        (toBytes (2 ^ size) (s.greg q gs).toNat))
    | .waitge kind _ _ _ t thr => doWaitge s c kind t (valOfQ s q thr)
    | .signal f v ph => doSignal s c f (valOfQ s q v) ph
    | .memsignal mx v a => startMemsig s id mx (valOfQ s q v) a.toNat
    | .barrier => if barrierDone s c then endCmd s id .done else s
    | .launch np pin port eg md pl sub => s.setCmd { c with body := .launch np pin port eg md (substPayload s q pl sub) none }
    | .dispatch np eg md x y z ch pl sub => s.setCmd { c with body := .dispatch np eg md x y z ch (substPayload s q pl sub) none }
    | .tilepass _ _ _ tl _ _ _ _ _ => s.startOp (mkOp (.tileHdr id) (s.qIdent q) 112 .va tl.toNat 64 false [])
    | .copy .. => s
    | .fill .. => s
    | .dma .. => s
    | .seal perm peek full rg base size => endCmd (sealRegion s rg perm peek full base size) id .done
    | .unseal rg => endCmd (unsealRegion s rg) id .done
    | .frank read gd n =>
      if read then doneReg s id q gd (s.frank n) else endCmd (setFrank s n 0) id .done
    | .passage .. => s
    | .pstop first => doPstop s id first
    | .enqueue _ src => s.startOp { mkOp (.enqRead id) (s.qIdent q) 112 .va src.toNat 64 false [] with memOnly := true }
    | .collect .. => s
    | .stamp gd => doneReg s id q gd (BitVec.ofNat 64 s.time)
    | .stampm a => s.startOp (mkOp (.stamp id) (s.qIdent q) 112 .va a.toNat 8 true (toBytes 8 s.time))
    | .snap set a => doSnap s c set a
    | .pdef _ n _ _ => parcelClaimCmd s id n
    | .ppatch _ _ n _ _ => parcelClaimCmd s id n
    | .pfree n => parcelClaimCmd s id n
    | .xinval scope seg ctx start len => addInval s ctx scope seg start.toNat len.toNat (some id) none
    | .phreset ph v =>
      let s := phReset s ph v
      endCmd (match s.cmd? id with
        | some c => s.setCmd { c with sumPh := ph, sumPhV := v }
        | none => s) id .done

/-- LD has its data (spec/03 R78). -/
def ldDone (s : State) (id : Nat) (o : Op) : State :=
  match s.cmd? id with
  | none => s
  | some c =>
    match c.body with
    | .ld _ gd _ _ _ => if o.status = .done then doneReg s id c.q gd (BitVec.ofNat 64 (ofBytes o.data)) else endByOp s id o
    | _ => s

/-- The ENQUEUE's image has been read (spec/04 R119 step 1). -/
def enqReadDone (s : State) (id : Nat) (o : Op) : State := if o.status = .done then enqGo s id o.data else endByOp s id o

/-- The done mark of a command that a takeover executes again (spec/12 R342, R344 step 5). -/
def markOf (s : State) (c : Cmd) : Option (Nat × W64) :=
  ((s.q c.q).marks.find? fun m => m.1 == c.sq && m.2.1 == c.ord).map fun m => (m.2.2.1, m.2.2.2)

/-- A command with a done mark does not run: it completes with the status and the register value of its HINGE record. -/
def doMarked (s : State) (c : Cmd) (m : Nat × W64) : State :=
  let s := match c.body with
    | .ppatch gd _ _ _ _ => sumReg (s.setG c.q gd m.2) c.id gd m.2
    | _ => s
  endCmd s c.id ((Status.ofCode m.1).getD .done)

/-- A started command runs, unless it has a done mark. -/
def beginCmd (s : State) (id : Nat) : State :=
  match s.cmd? id with
  | none => s
  | some c => match markOf s c with
    | some m => doMarked s c m
    | none => runCmd s id

/-- Starts the ready command of a queue when it is one of those `sel` picks and may start; a failed check at start makes it malformed (spec/03 R63, R71). -/
def onReady (s : State) (q : Nat) (sel : Body → Bool) : State :=
  match ready s q with
  | none => s
  | some (h, b) =>
    if sel b = false ∨ mayStart s q h b = false then s
    else if startOk s q b = false then malformedCmd s q
    else
      let (s, id) := startCmd s q h b
      beginCmd s id

end Sys2Proof.Machine
end

