-- ==== Sys2Proof/Machine/XltOps.lean ====
section
/-! DEFINITION. The translation unit beside the walks (spec/10): engine translations, invalidations, page faults, migration counters, contexts. -/

namespace Sys2Proof.Machine

/-! ### Engine translations (spec/10 R280, R281, spec/18 R485) -/

/-- An engine's translation request (spec/10 R280). -/
def engRequest (s : State) (k utag rtag ctx va acc : Nat) : State :=
  if s.ctlOn = false ∨ s.flt.halt ≥ 6 ∨ s.b.eports ≤ k then s
  else match (unitByTag s k utag).filter (fun u => s.qCtx u.q == ctx) with
    | some u => if s.cmdHeld u.cmd then s else s.startOp { mkOp (.engXl k utag rtag acc) ⟨u.part, some ctx, false⟩ k .va va 1 (acc == 1) [] with xlOnly := true, acc }
    | none =>
      (s.emit (.eXl k rtag .protection 0 .gallery 0 (s.f F.XLT_CTX_EPOCH ctx))).raise
        { hwFault 5 2 k false ((unitByTag s k utag).map (·.part)) va with prog := true }

/-- log2 of the span of a response: the largest of 30, 21 and 12 whose aligned block the entry covers whole (spec/18 R485). -/
def spanLog (t : Tlb) (va : Nat) : Nat :=
  let fits (n : Nat) : Bool := decide (t.va ≤ va / 2 ^ n * 2 ^ n) && decide (va / 2 ^ n * 2 ^ n + 2 ^ n ≤ t.va + t.len)
  if fits 30 then 30 else if fits 21 then 21 else 12

/-- Adds a number to a list that lacks it. -/
def addNew (l : List Nat) (x : Nat) : List Nat := if l.contains x then l else l ++ [x]

/-- An engine's translation has ended: the response; a success is kept in the port's buffer, makes the port one that holds translations of the context, and counts for migration (spec/10 R280, R282, R290). -/
def engXlDone (s : State) (k utag rtag : Nat) (o : Op) : State :=
  let ctx := o.idn.ctx.getD 0
  let ep := s.f F.XLT_CTX_EPOCH ctx
  match o.xfail, o.spans with
  | none, sp :: _ =>
    match (etbLookup s k ctx o.addr).orElse fun _ => stcLookup s ctx o.addr with
    | some t =>
      let etb := mget [] s.xlt.etb k
      let s := { s with xlt := { s.xlt with etb := mset s.xlt.etb k ((t :: etb.filter (fun x => decide (x ≠ t))).take 64),
                                            held := mset s.xlt.held k (addNew (mget [] s.xlt.held k) ctx) } }
      let s := match sp.tgt with
        | .mem .. => countAcc s sp.pa
        | _ => s
      s.emit (.eXl k rtag .hit sp.pa sp.tgt (spanLog t o.addr) ep)
    | none =>
      let s := { s with xlt := { s.xlt with held := mset s.xlt.held k (addNew (mget [] s.xlt.held k) ctx) } }
      s.emit (.eXl k rtag .hit sp.pa sp.tgt 12 ep)
  | some x, _ =>
    let s := match unitByTag s k utag with
      | some u => s.setUnit { u with xfails := x :: u.xfails.filter fun y => !(y.kind == x.kind && y.va / 4096 == x.va / 4096) }
      | none => s
    s.emit (.eXl k rtag x.kind 0 .gallery 0 ep)
  | none, [] => s

/-! ### Invalidations (spec/10 R282 to R285, R509) -/

/-- A write of XLT_PW_INV_CTL by partition `p` (spec/10 R285). -/
def invCtlWrite (s : State) (p v : Nat) : State :=
  if s.fb F.XLT_PW_INV_CTL_BUSY p then s
  else
    let s := if v / 2 ^ 61 % 2 = 1 then s.setF F.XLT_PW_INV_CTL_ERR p 0 else s
    let s := ((s.setF F.XLT_PW_INV_CTL_SCOPE p (v / 2 ^ 16)).setF F.XLT_PW_INV_CTL_SEG p (v / 2 ^ 10)).setF F.XLT_PW_INV_CTL_CTX p v
    if v / 2 ^ 63 % 2 = 0 then s
    else
      let scope := s.f F.XLT_PW_INV_CTL_SCOPE p
      let ctx := s.f F.XLT_PW_INV_CTL_CTX p
      let a := s.f F.XLT_PW_INV_START_START p
      let n := s.f F.XLT_PW_INV_LEN_LENGTH p
      if s.f F.XLT_CTX_PART ctx ≠ p ∨ scope = 3 ∨ (scope = 2 ∧ (a % 4096 ≠ 0 ∨ n % 4096 ≠ 0 ∨ n = 0)) then s.setF F.XLT_PW_INV_CTL_ERR p 1
      else addInval ((s.setF F.XLT_PW_INV_CTL_ERR p 0).setF F.XLT_PW_INV_CTL_BUSY p 1) ctx scope (s.f F.XLT_PW_INV_CTL_SEG p) a n none (some p)

def setInv (s : State) (v : Inv) : State :=
  { s with xlt := { s.xlt with invs := s.xlt.invs.map fun x => if x.id = v.id then v else x } }

/-- The range a segment entry covers; an entry that is not VALID adds none (spec/10 R509). -/
def segRange (ent : List W64) : Nat × Nat :=
  if ((ent.getD 2 0).toNat.testBit 11) = false then (0, 0)
  else (fieldOf (ent.getD 0 0) 56 12 * 4096, fieldOf (ent.getD 1 0) 44 0 * 4096)

/-- A cached entry of the context that an invalidation covers; `rng` is the range of the segment entry, none when it could not be read (spec/10 R509). -/
def invCovers (v : Inv) (rng : Option (Nat × Nat)) (t : Tlb) : Bool :=
  match v.scope with
  | 0 => true
  | 1 => t.seg == some v.seg || (match rng with
    | some (a, n) => overlaps t.va t.len a n
    | none => true)
  | _ => overlaps t.va t.len v.start v.len

/-- Tags of the accesses made for a context by translations that have not been answered (spec/10 R282 step 5). -/
def outTags (s : State) (ctx : Nat) : List Nat :=
  (s.mreqs.filter fun r => r.idn.ctx == some ctx).map (·.tag) ++ (s.lreqs.filter fun r => r.msg.ctx == ctx).map (·.tag)
    ++ (s.ops.filter fun o => o.idn.ctx == some ctx && o.space != .gal).flatMap fun o =>
      (o.parts.filter fun p => p.done.isNone && p.tgt == .gallery).map (·.tag)

/-- Steps 2 and 3 of an invalidation (spec/10 R278, R281, R282, R509). -/
def invStep2 (s : State) (v : Inv) (rng : Option (Nat × Nat)) : State :=
  let c := v.ctx
  let tags := outTags s c
  let ep := (s.f F.XLT_CTX_EPOCH c + 1) % 2 ^ 32
  let s := s.setF F.XLT_CTX_EPOCH c ep
  let s := if ep = 0 then { s with qs := s.qs.map fun e => if s.qCtx e.1 = c then
      (e.1, { e.2 with descs := e.2.descs.map fun (d : Desc) => { d with stale := true } }) else e } else s
  let keep (t : Tlb) : Option Tlb := if t.ctx ≠ c then some t else if invCovers v rng t then none else some { t with epoch := ep }
  let ports := (List.range s.b.eports).filter fun k => (mget [] s.xlt.held k).contains c
  let s := { s with xlt := { s.xlt with stc := s.xlt.stc.filterMap keep, etb := s.xlt.etb.map fun e => (e.1, e.2.filter (·.ctx != c)) } }
  let s := ports.foldl (fun s k => s.emit (.eInval k c ep)) s
  setInv s { v with step := 3, ports, since := s.time, epoch := ep, ops := tags }

/-- The next waiting invalidation begins: none of its context is in progress, and fewer than 16 are (spec/10 R282). -/
def invBegin (s : State) : State :=
  let started := s.xlt.invs.filter fun v => v.step != 0
  if s.ctlOn = false ∨ 16 ≤ started.length ∨ s.halted then s
  else match s.xlt.invs.find? (fun v => v.step == 0 && !started.any fun w => w.ctx == v.ctx) with
    | none => s
    | some v =>
      let s := (s.setF F.XLT_CTX_DRAINING v.ctx 1).incF F.XLT_STAT_INVACTIVE 0
      if v.scope = 1 then
        (setInv s { v with step := 2 }).startOp (mkOp (.invSeg v.id) ⟨s.f F.XLT_CTX_PART v.ctx, some v.ctx, false⟩ 112
          (.spans [⟨0, 32, s.f F.XLT_CTX_SEGBASE v.ctx * 4096 + 32 * v.seg, .mem false 0⟩]) 0 32 false [])
      else invStep2 s v none

/-- The segment entry has been read; when it could not be, every entry of the context is removed (log 29). -/
def invSegDone (s : State) (id : Nat) (o : Op) : State :=
  match s.xlt.invs.find? (·.id == id) with
  | some v => if v.step = 2 then invStep2 s v (if o.status = .done then some (segRange (wordsOf 4 o.data)) else none) else s
  | none => s

/-- An engine reports drained for a context (spec/10 R282 step 4). -/
def drained (s : State) (k ctx epoch : Nat) : State :=
  if s.ctlOn = false ∨ s.b.eports ≤ k then s
  else
    let hit (v : Inv) : Bool := v.ctx == ctx && v.step == 3 && v.epoch == epoch && v.ports.contains k
    if s.xlt.invs.any hit then
      { s with xlt := { s.xlt with held := mset s.xlt.held k ((mget [] s.xlt.held k).filter (· != ctx)),
                                   invs := s.xlt.invs.map fun v => if hit v then { v with ports := v.ports.filter (· != k) } else v } }
    else s

/-- Steps 4 and 5 of an invalidation are complete. -/
def invReady (s : State) (v : Inv) : Bool :=
  v.step == 3 && v.ports == [] && !(outTags s v.ctx).any fun t => v.ops.contains t

/-- The translations that a watch of WAITGE `cmd` rests on are made again: of a fence still being read, of one watched or waiting for a watch. -/
def retransWatch (s : State) (ctx i batch : Nat) (w : Waiter) : State :=
  match w.who, w.tgt with
  | .queue _ c, .fence .. =>
    if s.ops.any fun o => o.pur == .fenceRead c then
      State.startOp { s with ops := s.ops.filter fun o => o.pur != .fenceRead c }
        { mkOp (.watchXl c) ⟨w.part, some ctx, false⟩ 112 .va w.va 8 false [] with xlOnly := true, memOnly := true }
    else s
  | .queue _ c, .watch _ | .queue _ c, .nowatch .. =>
    State.startOp { s with ops := s.ops.filter (fun o => o.pur != .watchRetrans c),
                           waits := s.waits.map fun (x : Waiter) => if x.ent = w.ent then { x with mv := some (batch, i, false) } else x }
      { mkOp (.watchRetrans c) ⟨w.part, some ctx, false⟩ 112 .va w.va 8 false [] with xlOnly := true, memOnly := true }
  | _, _ => s

/-- The watches set up through a context translate again (spec/05 R151). -/
def retranslateWatches (s : State) (ctx : Nat) : State :=
  (s.waits.zipIdx).foldl (fun s' e => if e.1.ctx = ctx then retransWatch s' ctx e.2 s.nid e.1 else s') s

/-- The waiter of a WAITGE that watches a memory fence or waits for a free watch. -/
def watchWaiter (s : State) (cmd : Nat) : Option Waiter :=
  s.waits.find? fun w => match w.who, w.tgt with
    | .queue _ c, .watch _ | .queue _ c, .nowatch .. => c == cmd
    | _, _ => false

/-- A waiter's word is the one its watch is on, or the one it waits to watch. -/
def sameWord (s : State) (w : Waiter) (pa : Nat) : Bool :=
  match w.tgt with
  | .watch i => s.watches.any fun x => x.id == i && x.pa == pa
  | .nowatch _ a _ => a == pa
  | _ => false

/-- A watch's translation has been made again: the same word is read again, another word is joined and read, a failure ends the wait (spec/05 R151). -/
def watchRetransDone (s : State) (cmd : Nat) (o : Op) : State :=
  match watchWaiter s cmd with
  | none => s
  | some w =>
    match o.xfail, o.spans with
    | some _, _ => freeWatches (wake s w .xlateFault)
    | none, [] => s
    | none, sp :: _ =>
      if sameWord s w sp.pa then
        (s.watches.filter fun x => w.tgt == .watch x.id).foldl watchRead s
      else
        freeWatches (joinWatch (dropWaiter s w) { w with mv := w.mv.map fun m => (m.1, m.2.1, true) } w.part sp.pa sp.tgt true s.time)

/-- Step 6: the invalidation completes (spec/10 R282). -/
def invComplete (s : State) (id : Nat) : State :=
  match s.xlt.invs.find? (·.id == id) with
  | none => s
  | some v =>
    if invReady s v = false ∨ s.ctlOn = false then s
    else
      let s := (s.setF F.XLT_CTX_DRAINING v.ctx 0).setF F.XLT_STAT_INVACTIVE 0 (s.f F.XLT_STAT_INVACTIVE - 1)
      let s := { s with xlt := { s.xlt with invs := s.xlt.invs.filter (·.id != id) } }
      let s := retranslateWatches (retranslateRings s v.ctx) v.ctx
      let s := match v.cmd with
        | some c => endCmd s c .done
        | none => s
      match v.pw with
      | some p => (s.setF F.XLT_PW_INV_CTL_BUSY p 0).incF F.XLT_PW_INV_DONE_COUNT p
      | none => s

/-- An engine has not reported drained in time (spec/10 R284). -/
def elimitExpiry (s : State) (id k : Nat) : State :=
  match s.xlt.invs.find? (·.id == id) with
  | none => s
  | some v =>
    if v.step ≠ 3 ∨ v.ports.contains k = false ∨ s.time < v.since + max 1 (s.f F.XLT_INVCFG_ELIMIT) * 1000 ∨ s.ctlOn = false
        ∨ s.sch.resets.any (fun e => e.1 == k) then s
    else
      let s := s.raise (hwFault 5 3 k true none 0)
      let s := (s.setF F.XLT_ERR_CAUSE 0 2).setF F.XLT_ERR_WHERE 0 k
      let s := resetEngine s k
      match s.units.find? (fun u => onPort k u.place) with
      | some u => unitEnd (settleUnit s u) u .engineError
      | none => s

/-! ### Page faults (spec/10 R286 to R288) -/

/-- Runs a command that was set aside again from its beginning (spec/10 R286 step 5, R287). -/
def retryCmd (s : State) (c : Cmd) : State :=
  let s := wholeSettle s c
  let c' : Cmd := { c with id := s.nid, st := if c.placed then .held else .running, restarted := true, det := [], failOp := none, nxt := 0, live := 0, fails := [],
                           buf := [], aux := 0, whole := false, ports := 0, wshare := false, west := 0, wcharge := 0, tiles := [] }
  let s := State.bump { s with cmds := s.cmds.map fun x => if x.id = c.id then c' else x }
  let s := if (s.q c.q).blk = .cmd c.id then s.setQ c.q { s.q c.q with blk := .cmd c'.id } else s
  match c.body with
  | .launch .. => s
  | .dispatch .. => s
  | _ => runCmd s c'.id

/-- Runs the fetch of a queue that was set aside again. -/
def retryFetch (s : State) (q : Nat) : State :=
  let s := s.setQ q { s.q q with asideFetch := none, asideDet := [] }
  match curDesc s q with
  | none => s
  | some d =>
    let s := setDesc s q { d with restarted := true }
    match (s.q q).blk with
    | .starting => startXl s q { d with restarted := true } false
    | .fetching => advance (s.setQ q { s.q q with blk := .ready }) q
    | _ => s

/-- The commands of a queue that are set aside. -/
def asides (s : State) (q : Nat) : List Cmd := s.cmds.filter fun c => c.q == q && isAside c

/-- A command set aside completes with XLATE_FAULT and the queue stops (spec/10 R275, R286 step 5). -/
def failCmd (s : State) (c : Cmd) : State :=
  let s := s.setCmd { c with st := .running, stopQ := true }
  endCmd (s.raise ⟨5, 1, 1, true, false, fieldOf (c.det.getD 3 0) 63 57, some (s.qPart c.q), Status.xlateFault.code, c.det, some c.id, none⟩) c.id .xlateFault

/-- A fetch set aside fails. -/
def failFetch (s : State) (q : Nat) : State :=
  match curDesc s q with
  | none => s
  | some d => fetchStop (s.setQ q { s.q q with asideFetch := none }) q d .xlateFault (s.q q).asideDet

/-- A write of XLT_PW_RESUME in partition `p`'s window: RETRY or FAIL for the queue it names (spec/10 R287). -/
def resumeWrite (s : State) (p v : Nat) : State :=
  let q := v % 4096
  let act := v / 2 ^ 62 % 4
  if s.qPart q ≠ p ∨ s.ctlOn = false ∨ s.flt.halt ≠ 0 then s
  else
    let s := hostWr s none (0x1000000 + p * 65536 + 0xF300) v
    let l := asides s q
    let f := (s.q q).asideFetch.isSome
    if act = 1 then
      let s := l.foldl retryCmd s
      if f then retryFetch s q else s
    else if act = 2 then
      let s := l.foldl (fun s c => match s.cmd? c.id with
        | some c => failCmd s c
        | none => s) s
      if f then failFetch s q else s
    else s

/-- The set-aside limit of a queue expires (spec/10 R288). -/
def asideExpiry (s : State) (q : Nat) : State :=
  let lim := s.f F.XLT_PFCFG_LIMIT * 1000000
  if lim = 0 ∨ s.ctlOn = false then s
  else
    let s := (asides s q).foldl (fun s c => match c.st with
      | .aside t => if t + lim ≤ s.time then failCmd s c else s
      | _ => s) s
    match (s.q q).asideFetch with
    | some t => if t + lim ≤ s.time then failFetch s q else s
    | none => s

/-- Queues of a partition with a command or a fetch set aside (XLT_PW_PFCOUNT). -/
def asideCount (s : State) (p : Nat) : Nat :=
  (s.qs.filter fun e => s.qPart e.1 == p && (hasAside s e.1 || e.2.asideFetch.isSome)).length

/-! ### Migration counters and contexts (spec/10 R265, R266, R290) -/

/-- The halving of the access counters (spec/10 R290). -/
def acntDecay (s : State) : State :=
  let d := s.f F.XLT_ACNT_CFG_DECAY * 1000000
  if d = 0 ∨ s.time < s.xlt.decayAt + d ∨ s.ctlOn = false then s
  else { s with xlt := { s.xlt with acnt := s.xlt.acnt.filterMap (fun e => if e.2 / 2 = 0 then none else some (e.1, e.2 / 2)), decayAt := s.xlt.decayAt + d } }

/-- XLT_MIGR_POP (spec/10 R290). -/
def migrPop (s : State) : State :=
  let s := if s.xlt.notes.length = 1 then s.emit (.gintLevel false) else s
  State.setF { s with xlt := { s.xlt with notes := s.xlt.notes.drop 1 } } F.XLT_MIGR_NOTE_LOST 0 0

/-- The level of GINT[1]: the migration notice FIFO is not empty (spec/18 R479, spec/10 R290). -/
def gint1 (s : State) : Bool := s.xlt.notes != []

/-- A write of a word of XLT_CTX[c] (spec/10 R265, R266). -/
def ctxWrite (s : State) (c word v : Nat) : State :=
  match word with
  | 0 =>
    let en := v / 2 ^ 63 % 2
    if en = 0 ∧ s.fb F.XLT_CTX_EN c ∧ (s.qs.any fun e => e.2.st != .disabled && s.qCtx e.1 == c) then
      (s.setF F.XLT_ERR_CAUSE 0 1).setF F.XLT_ERR_WHERE 0 c
    else
      let s := if s.fb F.XLT_CTX_EN c then s else s.setF F.XLT_CTX_PART c (v / 2 ^ 48)
      (((s.setF F.XLT_CTX_EN c en).setF F.XLT_CTX_SEC c (v / 2 ^ 62)).setF F.XLT_CTX_MMEN c (v / 2 ^ 47)).setF F.XLT_CTX_SEGCNT c (v / 2 ^ 40)
  | 1 => s.setF F.XLT_CTX_SEGBASE c (v / 2 ^ 12)
  | 2 => s.setF F.XLT_CTX_MMROOT c (v / 2 ^ 12)
  | _ => s

end Sys2Proof.Machine
end

