-- ==== Sys2Proof/Machine/FabOps.lean ====
section
/-! DEFINITION. Fabric links (spec/11 R293 to R309), fabric time between chips (R310 to R314), collective groups (R316). -/

namespace Sys2Proof.Machine

/-! ### Entries of the commit log (spec/16 R438, R439), and the lane repairs a link shows (spec/18 R488) -/

/-- One bit step of the CRC-8 with polynomial 0x07. -/
def crc8Step (c : Nat) : Nat := if 128 ≤ c then (c * 2 % 256) ^^^ 7 else c * 2 % 256

def crc8 (l : List Byte) : Nat :=
  l.foldl (fun c b => crc8Step (crc8Step (crc8Step (crc8Step (crc8Step (crc8Step (crc8Step (crc8Step (c ^^^ b.toNat))))))))) 0

/-- CHECK of an entry: over its other 15 bytes in address order. -/
def logCheck (w0 w1 : W64) : Nat :=
  let l := bytesOf [w0, w1]
  crc8 (l.take 9 ++ l.drop 10)

/-- An entry that is neither empty nor torn. -/
def entryValid (e : W64 × W64) : Bool :=
  fieldOf e.2 15 8 == logCheck e.1 e.2 && decide (1 ≤ fieldOf e.1 15 12 ∧ fieldOf e.1 15 12 ≤ 8) && fieldOf e.1 1 0 == 0 && fieldOf e.2 7 0 == 0
    && !(e.1 == 0 && e.2 == 0)

/-- The valid entries of a setting, and of a link for codes 3 and 8, lowest slot first. -/
def entriesOf (s : State) (code link : Nat) : List (W64 × W64) :=
  (s.cmt.log.filter fun e => entryValid e.2 && fieldOf e.2.1 15 12 == code && (code != 3 && code != 8 || fieldOf e.2.1 11 9 == link)).map (·.2)

/-- The lane repairs committed for a link, oldest first (spec/16 R443). -/
def repairsOf (s : State) (l : Nat) : List Nat := ((entriesOf s 8 l).take 8).map fun e => fieldOf e.2 23 16

/-- The lane repairs that LREP_TX and LREP_RX show: they stand as they were when the link left DOWN (spec/18 R488). -/
def shownRepairs (s : State) (l : Nat) : List Nat := if s.f F.FAB_LSTAT_STATE l = 0 then repairsOf s l else mget [] s.cmt.lrep l

/-! ### Link states (spec/11 R301 to R304) -/

/-- The lowest and the native revisions of a block version 4.1 fabric (spec/11 R303). -/
def revMin : Nat := 0x13317
def revNative : Nat := 0x24317

/-- Field `i` of a revision set: 0 firmware ABI to 4 link protocol. -/
def revField (r i : Nat) : Nat := r / 16 ^ i % 16

/-- Joins five revision fields. -/
def revJoin (f : Nat → Nat) : Nat := ((List.range 5).map fun i => f i * 16 ^ i).sum

/-- The common revisions of two ends; none when an interface has no valid value (spec/11 R302 step 2). -/
def commonRevs (maxA minA maxB minB : Nat) : Option Nat :=
  if (List.range 5).all fun i => decide (max (revField minA i) (revField minB i) ≤ min (revField maxA i) (revField maxB i)) then
    some (revJoin fun i => min (revField maxA i) (revField maxB i)) else none

/-- A write of FAB_LANN: each field within its range (spec/11 R303). -/
def lannWrite (s : State) (l v : Nat) : State :=
  if s.f F.FAB_LSTAT_STATE l = 0 ∨ s.f F.FAB_LSTAT_STATE l = 4 then
    s.setF F.FAB_LANN_MAX l (revJoin fun i => min (revField revNative i) (max (revField revMin i) (revField v i)))
  else s

/-- FAB_FLOOR: the lowest common revisions over the links that are UP (spec/11 R303). -/
def setFloor (s : State) : State :=
  let ups := (List.range s.b.links).filter s.linkUp
  s.setF F.FAB_FLOOR_SET 0 (revJoin fun i => ups.foldl (fun m l => min m (revField (s.f F.FAB_LREV_CHOSEN l) i)) (revField revNative i))

/-- Sends NEG on a link (spec/11 R302). -/
def sendNeg (s : State) (l : Nat) (done : Option Nat) : State :=
  s.sendCtl l [BitVec.ofNat 64 (0x20 * 2 ^ 58 + done.isSome.toNat * 2 ^ 57 + s.chip * 2 ^ 49
      + revJoin (fun i => min (revField (s.f F.FAB_LANN_MAX l) i) (revField revNative i)) * 2 ^ 20 + revMin),
    BitVec.ofNat 64 (4 * 2 ^ 60 + 1 * 2 ^ 56 + done.getD 0)]

/-- LPARK_REQ of a link: it offers no traffic (spec/11 R301, spec/18 R472, R488). -/
def State.parkReq (s : State) (l : Nat) : Bool :=
  s.rst != 0 || decide (s.b.links ≤ l) || !s.domOn (s.b.domLink l) || s.f F.FAB_LSTAT_STATE l == 0 || s.f F.FAB_LSTAT_STATE l == 4

/-- The state after a change of a link, with the change of LPARK_REQ it makes. -/
def parkPin (s s' : State) (l : Nat) : State := if s.parkReq l = s'.parkReq l then s' else s'.emit (.lpark l (s'.parkReq l))

/-- A part of an access over links fails as kind ROUTE does: XLATE_FAULT and its detail (spec/11 R308, R309). -/
def routeFail (s : State) (id tag : Nat) : State :=
  match s.op? id with
  | none => s
  | some o =>
    match o.parts.find? (·.tag == tag) with
    | none => s
    | some p =>
      let x : XFail := ⟨.route, 0, o.addr + p.off, false, false, s.f F.XLT_CTX_EPOCH (o.idn.ctx.getD 0)⟩
      s.setOp { o with parts := o.parts.filter (·.tag != tag), fail := some (match o.fail with
        | some y => if y.va ≤ x.va then y else x
        | none => x) }

/-- The fault of a request whose response is lost with its link (spec/11 R309). -/
def lostFault (s : State) (l : Nat) (r : LReq) : Flt :=
  let cmd := ((s.op? r.op).bind fun o => purposeCmd o.pur).filter fun c => (s.cmd? c).isSome
  ⟨6, 4, 1, false, true, l, some r.msg.part, if cmd.isSome then Status.uncorrected.code else 0,
    commonDetail r.msg.addr ((cmd.bind s.cmd?).map Cmd.at) l 0 0 0 0, cmd, none⟩

/-- A request over a link has been answered, or its answer is lost: when it wrote, the watches it overlaps are read again (spec/05 R148). -/
def linkWrote (s : State) (r : LReq) : State := if r.msg.mtype = 2 then watchesHit s r.msg.addr (r.msg.len + 1) else s

/-- Requests sent on a link that leaves UP complete with UNCORRECTED (spec/11 R309). -/
def loseSent (s : State) (l : Nat) : State :=
  let lost := s.lreqs.filter fun r => r.sent && r.link == l
  lost.foldl (fun s r => linkWrote ((partDone s r.op r.tag .uncorrected []).raise (lostFault s l r)) r) { s with lreqs := s.lreqs.filter fun r => !(r.sent && r.link == l) }

/-- A link enters a state in which it is not UP: what was sent on it leaves first, and messages to forward that came over it are in no receive buffer any more. -/
def leaveUp (s : State) (l st cause : Nat) : State :=
  let was := s.linkUp l
  let s := s.flushLink l
  let s := parkPin s ((s.setF F.FAB_LSTAT_STATE l st).setF F.FAB_LREV_CHOSEN l 0) l
  let s := if st = 4 then s.setF F.FAB_LSTAT_CAUSE l cause else s
  let s := { s with lpart := mdel s.lpart l, lout := s.lout.map fun (e : LMsg × Option Nat) => if e.2 = some l then (e.1, none) else e }
  let s := s.noteFw 3
  if was then setFloor (loseSent s l) else s

/-- Parks a link that is UP or NEGOTIATING: PARK is sent while the adapter is up; the causes NO_COMMON, CHIP_CLASH and LOCK raise a fault (spec/11 R301). -/
def parkLink (s : State) (l cause : Nat) : State :=
  if s.f F.FAB_LSTAT_STATE l ≠ 2 ∧ s.f F.FAB_LSTAT_STATE l ≠ 3 then s
  else
    let s := if cause = 6 then s else s.sendCtl l [BitVec.ofNat 64 (0x21 * 2 ^ 58), 0]
    let s := leaveUp s l 4 cause
    if 3 ≤ cause ∧ cause ≤ 5 then
      (((s.setF F.FAB_ERR_CAUSE 0 (cause - 2)).setF F.FAB_ERR_WHERE 0 l)).raise (hwFault 6 (cause - 2) l false none 0)
    else s

/-- FAB_LCTL ENABLE (spec/11 R301). -/
def enableLink (s : State) (l : Nat) : State :=
  if l < s.b.links ∧ (s.f F.FAB_LSTAT_STATE l = 0 ∨ s.f F.FAB_LSTAT_STATE l = 4) then
    let s := { s with cmt := { s.cmt with lrep := mset s.cmt.lrep l (shownRepairs s l) } }
    (parkPin s (s.setF F.FAB_LSTAT_STATE l 1) l).noteFw 3
  else s

/-- FAB_LCTL DISABLE (spec/11 R301). -/
def disableLink (s : State) (l : Nat) : State := if s.b.links ≤ l ∨ s.f F.FAB_LSTAT_STATE l = 0 then s else leaveUp s l 0 0

/-- The adapter reports the link up: NEG is sent; the width and rate are the adapter's (spec/11 R301, R302; log 3). -/
def adapterUp (s : State) (l : Nat) : State :=
  if s.b.links ≤ l ∨ s.f F.FAB_LSTAT_STATE l ≠ 1 ∨ s.domOn (s.b.domLink l) = false then s
  else
    let (w, s) := s.freeW
    let (r, s) := s.freeW
    let s := (s.setF F.FAB_LSTAT_WIDTH l w.toNat).setF F.FAB_LSTAT_RATE l r.toNat
    sendNeg (State.noteFw { s.setF F.FAB_LSTAT_STATE l 2 with lneg := mset s.lneg l s.time } 3) l none

/-- The adapter reports the link down. -/
def adapterDown (s : State) (l : Nat) : State := if l < s.b.links then parkLink s l 6 else s

/-- The committed LINK_LOCK of a link disagrees (spec/11 R302 step 4, spec/16). -/
def lockBad (s : State) (l peer common : Nat) : Bool :=
  let v := s.f F.CMT_LINK_LOCK l
  v != 0 && (v / 2 ^ 20 % 16 != peer || v % 2 ^ 20 != common)

/-- A NEG message has come (spec/11 R302). -/
def negMsg (s : State) (l : Nat) (w0 w1 : W64) : State :=
  if s.b.links ≤ l ∨ s.f F.FAB_LSTAT_STATE l ≠ 2 then s
  else
    let peer := fieldOf w0 52 49
    let pmax := fieldOf w0 39 20
    let pmin := fieldOf w0 19 0
    let s := ((s.setF F.FAB_LPEER_CHIP l peer).setF F.FAB_LPEER_MAX l pmax).setF F.FAB_LPEER_MIN l pmin
    match commonRevs (s.f F.FAB_LANN_MAX l) revMin pmax pmin with
    | none => parkLink s l 3
    | some c =>
      if peer = s.chip then parkLink s l 4
      else if lockBad s l peer c then parkLink s l 5
      else if w0.toNat.testBit 57 = false then sendNeg s l (some c)
      else if fieldOf w1 19 0 ≠ c then parkLink s l 3
      else
        let s := (s.setF F.FAB_LSTAT_STATE l 3).setF F.FAB_LREV_CHOSEN l c
        State.pumpL ((setFloor { s with lcr := mset s.lcr l (1024, 1024), lret := mdel s.lret l, ltx := mdel s.ltx l }).noteFw 3)

/-- Negotiation has not completed 20 µs after the link came up (spec/11 R302). -/
def negTimeout (s : State) (l : Nat) : State :=
  if l < s.b.links ∧ s.f F.FAB_LSTAT_STATE l = 2 ∧ mget 0 s.lneg l + 20000 ≤ s.time then parkLink s l 3 else s

/-! ### Messages that arrive (spec/11 R294, R300, R305 to R308) -/

/-- The header of a routed message, with its data. -/
def msgOf (mtype : Nat) (w0 w1 : W64) (data : List Byte) : LMsg :=
  ⟨mtype, fieldOf w0 57 54, fieldOf w0 53 50, fieldOf w0 49 47, fieldOf w0 46 41, fieldOf w0 40 31, w0.toNat.testBit 30,
    fieldOf w0 28 20, fieldOf w0 15 0, fieldOf w1 63 56, fieldOf w1 55 0, data⟩

/-- Sends a response to a request (spec/11 R306, R307). -/
def respond (s : State) (m : LMsg) (st : Status) (data : List Byte) : State :=
  if m.mtype = 1 then
    let (fill, s) := if st = .done then (data, s) else s.freeBytes (m.len + 1)
    sendOut s ⟨0x10, m.src, s.chip, 0, m.part, m.ctx, m.sec, m.len, m.tag, st.code, 0, fill⟩
  else if m.mtype = 2 then sendOut s ⟨0x11, m.src, s.chip, 0, m.part, m.ctx, m.sec, 0, m.tag, st.code, 0, []⟩
  else s

/-- Units of a channel of link `l`'s receive buffer that messages to forward hold (spec/11 R299). -/
def heldUnits (s : State) (l : Nat) (rsp : Bool) : Nat :=
  ((s.lout.filter fun e => e.2 == some l && e.1.isRsp == rsp).map fun e => e.1.units).sum

/-- A message for another chip: forwarded from the receive buffer it stands in, or discarded and a request answered with XLATE_FAULT; one that the buffer's 1,024 units cannot take is lost (spec/11 R294, R299, R304; log 112). -/
def forward (s : State) (l : Nat) (m : LMsg) : State :=
  if m.hops = 7 ∨ s.linkRev1 l then respond (((s.returnCredits l m).setF F.FAB_ERR_CAUSE 0 6).setF F.FAB_ERR_WHERE 0 l) m .xlateFault []
  else if 1024 < heldUnits s l m.isRsp + m.units then s
  else State.pumpL { s with lout := s.lout ++ [({ m with hops := m.hops + 1 }, some l)] }

/-- A link signal reaches the pigeonhole unit (spec/05 R153): the local pigeonhole's IN entry must name the sender's chip and pigeonhole. -/
def linkSignal (s : State) (src addr : Nat) (v : W64) : State :=
  let n := addr % 2 ^ 21
  let from_ := addr / 2 ^ 21 % 2 ^ 21
  if (linkEntries s 1 n).any fun i => s.f F.PH_LINK_CHIP i == src && s.f F.PH_LINK_REMOTE i == from_ then (phSignal s n .max v none).1
  else s.incF F.PH_STAT_LSTRAY 0

/-- Link signals whose earlier writes have landed are applied (spec/11 R300). -/
def lsigSettle (s : State) : State :=
  s.lsigs.foldl (fun s x =>
    if x.waits.any fun i => (s.op? i).isSome then s
    else linkSignal { s with lsigs := s.lsigs.erase x } x.src x.addr x.value) s


/-- A request of another chip is carried out here (spec/11 R306, R307). -/
def remoteAccess (s : State) (l : Nat) (m : LMsg) : State :=
  let wr := m.mtype == 2
  let idn : Ident := ⟨m.part, some m.ctx, false⟩
  let pur : Purpose := if wr then .linkWrite l m.src m.tag else .linkRead l m.src m.tag
  if inAperture m.addr then
    s.startOp (mkOp pur idn (114 + l) .gal (m.addr % 2 ^ 29) (m.len + 1) wr m.data)
  else if (s.f F.FAB_MEMIN_CHIPS).testBit m.src = false then respond s m .xlateFault []
  else
    let (a, s) := s.freeW
    s.startOp (mkOp pur idn (114 + l) (.spans [⟨0, m.len + 1, m.addr, .mem m.sec (a.toNat % 16)⟩]) 0 (m.len + 1) wr m.data)

/-- The access made for a request of another chip has ended: its answer (spec/11 R306, R307). -/
def remoteDone (s : State) (src tag : Nat) (wr : Bool) (o : Op) : State :=
  let m : LMsg := ⟨if wr then 2 else 1, s.chip, src, 0, o.idn.part, o.idn.ctx.getD 0, match o.space with
    | .spans (⟨_, _, _, .mem sec _⟩ :: _) => sec
    | _ => false, o.len - 1, tag, 0, o.addr, []⟩
  respond s m o.status o.data

/-- A response completes the part of the access that sent the request (spec/11 R308). -/
def response (s : State) (m : LMsg) : State :=
  match s.lreqs.find? (fun r => r.sent && r.tag % 65536 == m.tag) with
  | none => s
  | some r =>
    let s := { s with lreqs := s.lreqs.filter (·.tag != r.tag) }
    linkWrote (match (Status.ofCode m.status).getD .uncorrected with
    | .xlateFault => routeFail s r.op r.tag
    | st => partDone s r.op r.tag st m.data) r

/-- A routed message arrives on a link that is UP: it is forwarded, or the letterbook records it, its units leave the buffer and it is taken (spec/11 R294, R299, spec/17 R456). -/
def arrive (s : State) (l : Nat) (m : LMsg) : State :=
  if s.b.links ≤ l ∨ s.linkUp l = false ∨ s.flt.halt ≥ 4 ∨ s.rst ≠ 0 then s
  else
    if m.dst ≠ s.chip then forward s l m
    else
      let s := (s.returnCredits l m).note (some m.part) true 0x12 none (m.mtype * 2 ^ 58 + m.src * 2 ^ 54 + l * 2 ^ 51 + m.tag) m.addr
      match m.mtype with
      | 1 => remoteAccess s l m
      | 2 => remoteAccess s l m
      | 4 =>
        let w := (s.ops.filter fun o => match o.pur with
          | .linkWrite _ c _ => c == m.src
          | _ => false).map (·.id)
        lsigSettle { s with lsigs := s.lsigs ++ [⟨m.src, m.addr, (wordsOf 1 m.data).headD 0, w⟩] }
      | 5 => collArrive s m
      | 6 => collArrive s m
      | 0x10 => response s m
      | 0x11 => response s m
      | _ => s

/-! ### Flits (spec/11 R297, R299) -/

/-- The message a header begins: none for a type that is not defined. -/
def headMsg (u : List Byte) : Option LMsg :=
  match wordsOf 2 u with
  | [w0, w1] =>
    let t := fieldOf w0 63 58
    if [1, 2, 4, 5, 6, 0x10, 0x11].contains t then some (msgOf t w0 w1 []) else none
  | _ => none


/-- The message in its units. -/
def unitMsg (m : LMsg) (u : List Byte) : LMsg :=
  let d := u.drop 16
  { m with data := match m.mtype with
    | 1 => [] | 6 => [] | 0x11 => []
    | 4 => d.take 8
    | 2 => (d.drop (m.addr % 16)).take (m.len + 1)
    | _ => d.take (m.len + 1) }

/-- Takes the messages of a traffic flit's units: bytes of the message in progress come first. -/
def takeUnits : Nat → State → Nat → List Byte → State
  | 0, s, _, _ => s
  | n + 1, s, l, u =>
    if u = [] then { s with lpart := mdel s.lpart l }
    else match headMsg u with
      | none => takeUnits n s l (u.drop 16)
      | some m =>
        let k := 16 * m.units
        if u.length < k then { s with lpart := mset s.lpart l u } else takeUnits n (arrive s l (unitMsg m (u.take k))) l (u.drop k)

/-- A PARK message of the peer (spec/11 R301). -/
def parkIn (s : State) (l : Nat) : State := if s.b.links ≤ l ∨ 4 ≤ s.flt.halt ∨ s.rst ≠ 0 then s else parkLink s l 2

/-- Chips that are reachable (FAB_MEMBERS). -/
def members (s : State) : List Nat := (List.range 16).filter s.reachable

/-- The time source (spec/11 R311). -/
def timeSource (s : State) : Nat :=
  let low := (members s).headD s.chip
  if s.fb F.FAB_TSRC_AUTO then low else if s.reachable (s.f F.FAB_TSRC_SRC) then s.f F.FAB_TSRC_SRC else low

/-- The link to the parent; none at the source. -/
def parentLink (s : State) : Option Nat := if timeSource s = s.chip then none else s.routeUp (timeSource s)

/-- Fabric time with 4 bits of fraction, as the link controllers stamp it (spec/11 R312). -/
def State.time16 (s : State) : Nat := (((s.time * 65536 : Nat) + s.tsync.acc) / 4096).toNat

/-- The mean of a list of offsets. -/
def meanOf (l : List Int) : Int := if l = [] then 0 else l.foldl (· + ·) 0 / l.length

/-- Sum of the absolute values, so that a mean |θ| above k is a sum above k times the length (spec/11 R312). -/
def absSum (l : List Int) : Nat := l.foldl (fun n x => n + x.natAbs) 0

/-- A response of the parent with the times t1, t2 and t3 in 1/16 ns; the law of the rate correction is not stated, its bound is (spec/11 R312; log 3). -/
def tsyncIn (s : State) (l t1 t2 t3 : Nat) : State :=
  if parentLink s ≠ some l ∨ s.rst ≠ 0 then s
  else
    let th : Int := (((t2 : Int) - t1) - ((s.time16 : Int) - (t3 : Int))) / 2
    let offs := (s.tsync.offs ++ [th]).drop (s.tsync.offs.length + 1 - 64)
    let m := meanOf offs
    let (w, s) := s.freeW
    let (hp, s) := s.freeW
    -- the hops of a parent that is not the source are not stated (log 54)
    let s := s.setF F.FAB_TSYNC_HOPS 0 (if s.f F.FAB_LPEER_CHIP l = timeSource s then 1 else 2 + hp.toNat % 6)
    let s := { s with tsync := { s.tsync with offs, rate := (w.toNat % 65537 : Nat) - (32768 : Int), lastRsp := s.time } }
    let s := s.setF F.FAB_TSYNC_OFFSET 0 (m % 65536).toNat
    if 64 * 16 * offs.length < absSum offs then
      let step : Int := m / 16
      let t : Int := s.time + step
      let s := { s with time := t.toNat, tsync := { s.tsync with offs := [], sentAt := t.toNat, lastRsp := t.toNat } }
      ((s.setF F.FAB_TSYNC_SYNC 0 0).incF F.FAB_TSYNC_STEPS 0).note none false 0xC none 0 (step % 2 ^ 64).toNat
    else if absSum offs ≤ 64 * offs.length then s.setF F.FAB_TSYNC_SYNC 0 1 else s

/-- A request of a child reaches this chip, its parent: the response carries t1, t2 and t3 (spec/11 R312; log 28). -/
def tsyncReq (s : State) (l : Nat) (t1 : W64) : State :=
  s.sendCtl l [BitVec.ofNat 64 (0x22 * 2 ^ 58 + 2 ^ 57), t1, BitVec.ofNat 64 s.time16, BitVec.ofNat 64 s.time16]

/-- A control message arrives: NEG, PARK or TSYNC (spec/11 R301, R302, R312; log 28). -/
def controlIn (s : State) (l : Nat) (ws : List W64) : State :=
  let w (i : Nat) : W64 := ws.getD i 0
  match fieldOf (w 0) 63 58 with
  | 0x20 => negMsg s l (w 0) (w 1)
  | 0x21 => parkIn s l
  | 0x22 =>
    if s.linkUp l = false then s
    else if (w 0).toNat.testBit 57 then tsyncIn s l (w 1).toNat (w 2).toNat (w 3).toNat else tsyncReq s l (w 1)
  | _ => s

/-- A flit arrives (spec/11 R297, R299, R327). -/
def flitIn (s : State) (l : Nat) (flit : List Byte) : State :=
  let st := s.f F.FAB_LSTAT_STATE l
  if s.b.links ≤ l ∨ (st ≠ 2 ∧ st ≠ 3) ∨ s.rst ≠ 0 ∨ flit.length ≠ 256 then s
  else
    let n := mget 0 s.lrx l + 1
    let s := State.setF { s with lrx := mset s.lrx l n } F.FAB_LCNT_RXFLITS l (n / 2 ^ 16)
    let w := (wordsOf 1 flit).headD 0
    let kind := fieldOf w 63 56
    let (rq, rs) := s.credits l
    let s' := if st = 3 then State.pumpL { s with lcr := mset s.lcr l (min 1024 (rq + fieldOf w 31 16), min 1024 (rs + fieldOf w 15 0)) } else s
    if kind = 2 then controlIn s' l (wordsOf 4 (flit.drop 16))
    else if kind ≠ 1 then s.satF F.FAB_LCNT_BADFLIT l
    else if st = 2 then s
    else
      let s := s'
      let old := mget [] s.lpart l
      let units := flit.drop 16
      let first := fieldOf w 47 40
      let u := if old ≠ [] then old ++ units else if first ≤ 14 then units.drop (16 * first) else []
      takeUnits 64 { s with lpart := mdel s.lpart l } l u

/-- A request has waited FAB_HOLD for its route (spec/11 R309). -/
def routeHold (s : State) (tag : Nat) : State :=
  match s.lreqs.find? (fun r => r.tag == tag && !r.sent) with
  | none => s
  | some r =>
    if (s.routeUp r.msg.dst).isSome ∨ s.time < r.since + max 1 (s.f F.FAB_HOLD_HOLD) * 1000000 then s
    else routeFail { s with lreqs := s.lreqs.filter (·.tag != tag) } r.op tag

/-! ### Fabric time (spec/11 R310 to R314) -/

/-- A request to the parent, every 8 µs (spec/11 R312). -/
def tsyncSend (s : State) : State :=
  match parentLink s with
  | none => s
  | some l =>
    if s.time < s.tsync.sentAt + 8000 ∨ s.rst ≠ 0 then s
    else
      let t := if s.tsync.parent = some (timeSource s) then s.tsync else { s.tsync with offs := [], parent := some (timeSource s), lastRsp := s.time }
      State.sendCtl { s with tsync := { t with sentAt := s.time } } l [BitVec.ofNat 64 (0x22 * 2 ^ 58), BitVec.ofNat 64 s.time16]

/-- No response for 10 ms (spec/11 R314). -/
def tsyncLost (s : State) : State :=
  if timeSource s = s.chip ∨ s.time < s.tsync.lastRsp + 10000000 then s else s.setF F.FAB_TSYNC_SYNC 0 0

/-! ### Groups (spec/11 R316) -/

/-- One bit step of the reflected CRC-32 of IEEE 802.3. -/
def crc32Step (c : Nat) : Nat := if c % 2 = 1 then (c / 2) ^^^ 0xEDB88320 else c / 2

/-- The CRC-32 of IEEE 802.3. -/
def crc32 (l : List Byte) : Nat :=
  (l.foldl (fun c b => crc32Step (crc32Step (crc32Step (crc32Step (crc32Step (crc32Step (crc32Step (crc32Step (c ^^^ b.toNat))))))))) (2 ^ 32 - 1)) ^^^ (2 ^ 32 - 1)

/-- The entry of a member table as its 16 bits. -/
def gmemBits (s : State) (g r : Nat) : Nat := (memberAt s g r).1 * 2 ^ 12 + (memberAt s g r).2

/-- The DIGEST of a group (spec/11 R316). -/
def groupDigest (s : State) (g n : Nat) : Nat :=
  crc32 (toBytes 1 n ++ (List.range n).flatMap (fun r => toBytes 2 (gmemBits s g r)) ++ toBytes 4 (s.f F.FAB_COLL_SMALL))

/-- A write of FAB_GRP[g]; the counts of the group's collectives begin again (log 30). -/
def groupWrite (s : State) (g v : Nat) : State :=
  let en := v / 2 ^ 63 % 2 == 1
  let n := v / 2 ^ 48 % 128
  if s.fb F.FAB_GRP_EN g then (if en then s else s.setF F.FAB_GRP_EN g 0)
  else if en = false then s.setF F.FAB_GRP_NRANK g n
  else
    let ms := (List.range n).map (memberAt s g)
    if n = 0 ∨ 64 < n ∨ ¬ ms.Nodup ∨ (s.b.links = 0 ∧ ms.any fun m => m.1 != s.chip) then (s.setF F.FAB_ERR_CAUSE 0 4).setF F.FAB_ERR_WHERE 0 g
    else
      let s := { s with colN := s.colN.filter fun e => e.1 / 64 != g }
      ((s.setF F.FAB_GRP_NRANK g n).setF F.FAB_GRP_DIGEST g (groupDigest s g n)).setF F.FAB_GRP_EN g 1

end Sys2Proof.Machine
end

