-- ==== Sys2Proof/Machine/RegTable.lean ====
section
/-! DEFINITION. Where each register stands in the H-port window and which fields it holds with which access code (spec/00 R16, spec/19 R504, R505). -/

namespace Sys2Proof.Machine

/-- Access codes of spec/00 R16. -/
inductive Acc where
  | ro | rw | w1c | w1s | wo
  deriving DecidableEq, Repr

/-- One field of a register: the field, its highest and lowest bit and its access code. -/
structure RegField where
  fld : Fld
  hi : Nat
  lo : Nat
  acc : Acc
  deriving DecidableEq, Repr

/-- The registers of the block (spec/19 R504, R505). -/
inductive RegName where
  | INT_IDENT | INT_BUILD | INT_SIZES | INT_REVS | INT_FEAT | INT_RST | INT_STARTUP | INT_EPORT | QE_CAP | QE_DB_STRAY | QE_QSEL | QE_QCFG
  | QE_RING_BASE | QE_CQ_BASE | QE_QSIZE | QE_QCTL | QE_QSTAT | QE_QPOS | QE_CQ_HEAD | QE_ERR_INDEX | QE_STOPPED | QE_FWD | QE_PCL_GAL | QE_PCL_MEM
  | QE_ENQ | PH_CAP | PH_CYCLE_SCAN | PH_STAT | PH_PEEK_SEL | PH_PEEK_W0 | PH_PEEK_W1 | PH_ERR | PH_PART_BASE | PH_PART_LIMIT | PH_WQUOTA | PH_LINK
  | SCH_CAP | SCH_TTCTL | SCH_TTSTAT | SCH_CYCLE_T | SCH_DRR | SCH_WD | SCH_STAT | SCH_ERR | SCH_EGRP_ACT | SCH_EGRP | SCH_SGRP_ACT | SCH_SGRP | SCH_PRT
  | SCH_BAL | SCH_ACC | GAL_CAP | GAL_SEAL_TIMEOUT | GAL_STAT | GAL_ERR | GAL_SCRUB | GAL_HOST_ADDR | GAL_HOST_DATA | GAL_FRANK_SEL | GAL_FRANK_VAL
  | GAL_WHEEL_MODE | GAL_LENIENT_OPT | GAL_WHEEL | GAL_WHEEL_ACT | GAL_CPWR_REQ | GAL_CPWR_STAT | GAL_SEAL_BASE | GAL_SEAL_SIZE | GAL_SEAL_MODE
  | GAL_DROP | GAL_DROP_RANGE | GAL_FRANK_PART | GAL_OWN | STN_ID | STN_FMT | STN_AFLAGS | STN_PSTAT | STN_PFLAGS | STN_PERR | STN_FIFO | STN_RUNCYC
  | STN_STALLCYC | STN_X | XLT_CAP | XLT_PFCFG | XLT_INVCFG | XLT_STAT | XLT_ERR | XLT_ACNT_BASE | XLT_ACNT_CFG | XLT_ACNT_SEL | XLT_ACNT_VAL
  | XLT_MIGR_NOTE | XLT_MIGR_POP | XLT_CTX_W0 | XLT_CTX_W1 | XLT_CTX_W2 | XLT_CTX_W3 | FAB_CAP | FAB_ID | FAB_MEMBERS | FAB_TIME | FAB_TSYNC | FAB_TSRC
  | FAB_MEMIN | FAB_HOLD | FAB_FLOOR | FAB_COLL | FAB_ERR | FAB_ROUTE | FAB_LCTL | FAB_LSTAT | FAB_LREV | FAB_LANN | FAB_LPEER | FAB_LCNT | FAB_GRP
  | FAB_GMEM | ECH_CAP | ECH_CTL | ECH_STAT | ECH_HB | ECH_CMP | ECH_PARTS | ECH_ERR | ECH_CNT | ECH_DIV_Q | ECH_DIV_LOCAL | ECH_DIV_PEER | ECH_CFGDIG
  | ECH_GAL | FLT_CAP | FLT_CFG | FLT_STAT | FLT_FATAL | FLT_FATAL_TIME | FLT_GRING_BASE | FLT_GRING_CFG | FLT_GRING_HEAD | FLT_GRING_POS | FLT_G_DEAD
  | FLT_HOLD_BUDGET | FLT_INJ | FLT_INJ_ADDR | FLT_LATCH_C | FLT_LATCH_K | FLT_CNT | FLT_PRING_BASE | FLT_PRING_CFG | FLT_PLATCH | PWR_CMD | PWR_STATE
  | PWR_WAKE_TIME | PWR_WAKE_CAUSE | PWR_SAFE | PWR_CLAMP | PWR_THR | PWR_CAP | PWR_CFG | PWR_CEIL | PWR_STAT | PWR_EST | PWR_ENERGY | PWR_UNATTR
  | PWR_ISL | PWR_CPOL | PWR_SENS | PWR_EXTCFG | PWR_ZONE | PWR_ZMODEL_W0 | PWR_ZMODEL_W1 | PWR_ZMODEL_W2 | PWR_ZMODEL_W3 | PWR_FCST | PWR_DOM | FW_CAP
  | FW_BOOT | FW_STAT | FW_VAULT_ADDR | FW_VAULT_DATA | FW_UPDATE | FW_STAGED | FW_WDT | FW_DIGEST | FW_LOG_BASE | FW_LOG_CFG | FW_LOG_POS | FW_LOG_HEAD
  | FW_LOG_DROP | FW_CORE | PRT_CTL | PRT_STAT | PRT_CFG | PRT_MBOX_CTL | PRT_MBOX_REQ | PRT_MBOX_RSP | PRT_DONE | PRT_PEND | OBS_CAP | OBS_CFG
  | OBS_PLC_SEL | OBS_PLC_TIME | OBS_PLC_BYTES | OBS_PLC_ENERGY | OBS_ENG_BUSY | OBS_STN_BUSY | OBS_HALL_SLOTS | OBS_LB_BASE | OBS_LB_CFG | OBS_LB_POS
  | OBS_LB_HEAD | OBS_LB_STAT | OBS_LB_SEQ | OBS_LB_MODE | OBS_RP_BASE | OBS_RP_LEN | OBS_RP_PARTS | OBS_RP_CFG | OBS_RP_CTL | OBS_RP_STAT | OBS_RP_DIV0
  | OBS_RP_DIV1 | OBS_TRC_CFG | OBS_TRC_PMASK | OBS_TRC_STAT | CMT_CAP | CMT_ARM | CMT_COMMIT | CMT_STAT | CMT_UID | CMT_VAL | CMT_LINK | CMT_LREP
  | CMT_LOGSEL | CMT_LOG | CMT_CHAL | CMT_TOKEN | PH_PW_SEL | PH_PW_VALUE | PH_PW_POLL | PH_PW_CYCLE | PH_PW_USE | SCH_PW_ENG_NS | SCH_PW_STN_NS
  | SCH_PW_BYTES | SCH_PW_ENERGY_UJ | SCH_PW_BAL | GAL_PW_ADDR | GAL_PW_DATA | GAL_PW_DROP_SEL | GAL_PW_DROP_RANGE | GAL_PW_DROP_CTL | GAL_PW_FRANK_SEL
  | GAL_PW_FRANK_VAL | XLT_PW_RESUME | XLT_PW_INV_CTL | XLT_PW_INV_START | XLT_PW_INV_LEN | XLT_PW_INV_DONE | XLT_PW_PFCOUNT | FLT_PW_POS | FLT_PW_HEAD
  | FLT_PW_DEAD | FLT_PW_LATCH | FLT_PW_OVF | OBS_PW_CTL | OBS_PW_STAT | OBS_PW_ERR | OBS_PW_PLC_SEL | OBS_PW_PLC_TIME | OBS_PW_PLC_BYTES
  | OBS_PW_PLC_ENERGY | OBS_PW_TRC | OBS_PW_ENG | OBS_PW_STN | OBS_PW_HALL | PRT_PW_STAT | PRT_PW_MBOX_CTL | PRT_PW_MBOX_REQ | PRT_PW_MBOX_RSP
  | ECH_PW_STAT
  deriving DecidableEq, Repr

/-- A register or an array of them: element (i, j) stands at `off` + `pitch` × i + 8 × j of the H-port's window, i below `count`, j below `sub`, and is element i × `sub` + j of its fields. The registers of a queue's view stand where QE_QSEL presents them; those of the partition windows have the partition as i. -/
structure RegRow where
  name : RegName
  off : Nat
  pitch : Nat
  count : Nat
  sub : Nat
  fields : List RegField
  deriving DecidableEq, Repr

/-- The registers of block INT. -/
def regsINT : List RegRow := [
  ⟨.INT_IDENT, 0x0, 8, 1, 1, [⟨F.INT_IDENT_VENDOR, 63, 48, .ro⟩, ⟨F.INT_IDENT_BLOCK, 47, 32, .ro⟩, ⟨F.INT_IDENT_MAJOR, 31, 24, .ro⟩, ⟨F.INT_IDENT_MINOR, 23, 16, .ro⟩]⟩,
  ⟨.INT_BUILD, 0x8, 8, 1, 1, [⟨F.INT_BUILD_HALLS, 63, 56, .ro⟩, ⟨F.INT_BUILD_STATIONS, 55, 48, .ro⟩, ⟨F.INT_BUILD_EPORTS, 47, 40, .ro⟩, ⟨F.INT_BUILD_LINKS, 39, 36, .ro⟩, ⟨F.INT_BUILD_ECHO, 35, 35, .ro⟩, ⟨F.INT_BUILD_LOG2PH, 31, 24, .ro⟩, ⟨F.INT_BUILD_ISLANDS, 23, 16, .ro⟩, ⟨F.INT_BUILD_NDOM, 15, 0, .ro⟩]⟩,
  ⟨.INT_SIZES, 0x10, 8, 1, 1, [⟨F.INT_SIZES_GALMIB, 63, 48, .ro⟩, ⟨F.INT_SIZES_NQUEUE, 47, 32, .ro⟩, ⟨F.INT_SIZES_NCTX, 31, 16, .ro⟩, ⟨F.INT_SIZES_NPART, 15, 8, .ro⟩]⟩,
  ⟨.INT_REVS, 0x18, 8, 1, 1, [⟨F.INT_REVS_NATIVE, 39, 20, .ro⟩, ⟨F.INT_REVS_LOWEST, 19, 0, .ro⟩]⟩,
  ⟨.INT_FEAT, 0x20, 8, 1, 1, [⟨F.INT_FEAT_CS3, 63, 63, .ro⟩, ⟨F.INT_FEAT_LP1, 62, 62, .ro⟩, ⟨F.INT_FEAT_MX, 61, 61, .ro⟩, ⟨F.INT_FEAT_EXACT, 60, 60, .ro⟩, ⟨F.INT_FEAT_PAIR, 59, 59, .ro⟩, ⟨F.INT_FEAT_SECUREDEBUG, 58, 58, .ro⟩, ⟨F.INT_FEAT_OPENLAB, 57, 57, .ro⟩, ⟨F.INT_FEAT_COURIERS, 47, 40, .ro⟩, ⟨F.INT_FEAT_MPORTS, 39, 32, .ro⟩, ⟨F.INT_FEAT_FWCORES, 31, 24, .ro⟩, ⟨F.INT_FEAT_LOG2WAIT, 23, 16, .ro⟩]⟩,
  ⟨.INT_RST, 0x100, 8, 1, 1, [⟨F.INT_RST_LAST, 63, 62, .ro⟩, ⟨F.INT_RST_SAFE, 47, 32, .ro⟩, ⟨F.INT_RST_WARM, 31, 0, .ro⟩]⟩,
  ⟨.INT_STARTUP, 0x108, 8, 1, 1, [⟨F.INT_STARTUP_READYUS, 63, 32, .ro⟩, ⟨F.INT_STARTUP_VAULTREADY, 7, 7, .ro⟩, ⟨F.INT_STARTUP_STEP, 3, 0, .ro⟩]⟩,
  ⟨.INT_EPORT, 0x200, 8, 32, 1, [⟨F.INT_EPORT_REPORTED, 63, 63, .ro⟩, ⟨F.INT_EPORT_READY, 62, 62, .ro⟩, ⟨F.INT_EPORT_CLASS, 47, 44, .ro⟩, ⟨F.INT_EPORT_IFREV, 43, 40, .ro⟩, ⟨F.INT_EPORT_COMP, 39, 36, .ro⟩, ⟨F.INT_EPORT_RESETS, 31, 0, .ro⟩]⟩]

/-- The registers of block QE. -/
def regsQE : List RegRow := [
  ⟨.QE_CAP, 0x10000, 8, 1, 1, [⟨F.QE_CAP_MAXDEPTH, 43, 40, .ro⟩, ⟨F.QE_CAP_DFMT, 39, 36, .ro⟩, ⟨F.QE_CAP_CSREV, 35, 32, .ro⟩, ⟨F.QE_CAP_CS3, 31, 31, .ro⟩, ⟨F.QE_CAP_NQUEUES, 12, 0, .ro⟩]⟩,
  ⟨.QE_DB_STRAY, 0x10008, 8, 1, 1, [⟨F.QE_DB_STRAY_COUNT, 31, 0, .rw⟩]⟩,
  ⟨.QE_QSEL, 0x10010, 8, 1, 1, [⟨F.QE_QSEL_QUEUE, 11, 0, .rw⟩]⟩,
  ⟨.QE_QCFG, 0x10018, 8, 1, 1, [⟨F.QE_QCFG_HYP, 33, 33, .rw⟩, ⟨F.QE_QCFG_ASSIGNED, 32, 32, .rw⟩, ⟨F.QE_QCFG_CS3EN, 31, 31, .rw⟩, ⟨F.QE_QCFG_MIRRORED, 30, 30, .rw⟩, ⟨F.QE_QCFG_DEPTH, 29, 26, .rw⟩, ⟨F.QE_QCFG_DBSLOT, 25, 16, .rw⟩, ⟨F.QE_QCFG_CTX, 15, 6, .rw⟩, ⟨F.QE_QCFG_PART, 5, 0, .rw⟩]⟩,
  ⟨.QE_RING_BASE, 0x10100, 8, 1, 1, [⟨F.QE_RING_BASE_BASE, 63, 12, .rw⟩]⟩,
  ⟨.QE_CQ_BASE, 0x10108, 8, 1, 1, [⟨F.QE_CQ_BASE_BASE, 63, 12, .rw⟩]⟩,
  ⟨.QE_QSIZE, 0x10110, 8, 1, 1, [⟨F.QE_QSIZE_CQLOG2, 20, 16, .rw⟩, ⟨F.QE_QSIZE_SQLOG2, 4, 0, .rw⟩]⟩,
  ⟨.QE_QCTL, 0x10118, 8, 1, 1, [⟨F.QE_QCTL_CMD, 3, 0, .wo⟩]⟩,
  ⟨.QE_QSTAT, 0x10120, 8, 1, 1, [⟨F.QE_QSTAT_IDLE, 63, 63, .ro⟩, ⟨F.QE_QSTAT_STATE, 62, 60, .ro⟩, ⟨F.QE_QSTAT_PENDING, 59, 59, .ro⟩, ⟨F.QE_QSTAT_CQWAIT, 58, 58, .ro⟩, ⟨F.QE_QSTAT_SQPHASE, 57, 57, .ro⟩, ⟨F.QE_QSTAT_CQPHASE, 56, 56, .ro⟩, ⟨F.QE_QSTAT_REQHELD, 55, 55, .ro⟩, ⟨F.QE_QSTAT_PRIOR, 54, 52, .ro⟩]⟩,
  ⟨.QE_QPOS, 0x10128, 8, 1, 1, [⟨F.QE_QPOS_CQ, 63, 32, .ro⟩, ⟨F.QE_QPOS_SQ, 31, 0, .ro⟩]⟩,
  ⟨.QE_CQ_HEAD, 0x10130, 8, 1, 1, [⟨F.QE_CQ_HEAD_HEAD, 31, 0, .rw⟩]⟩,
  ⟨.QE_ERR_INDEX, 0x10138, 8, 1, 1, [⟨F.QE_ERR_INDEX_CAUSE, 63, 60, .ro⟩, ⟨F.QE_ERR_INDEX_WORD, 55, 36, .ro⟩, ⟨F.QE_ERR_INDEX_INDEX, 15, 0, .ro⟩]⟩,
  ⟨.QE_STOPPED, 0x10200, 8, 64, 1, [⟨F.QE_STOPPED_STOPPED, 63, 0, .ro⟩]⟩,
  ⟨.QE_FWD, 0x10400, 8, 64, 1, [⟨F.QE_FWD_GRANT, 63, 0, .rw⟩]⟩,
  ⟨.QE_PCL_GAL, 0x10600, 16, 64, 1, [⟨F.QE_PCL_GAL_GSIZE, 44, 32, .rw⟩, ⟨F.QE_PCL_GAL_GBASE, 12, 0, .rw⟩]⟩,
  ⟨.QE_PCL_MEM, 0x10608, 16, 64, 1, [⟨F.QE_PCL_MEM_MSIZE, 63, 56, .rw⟩, ⟨F.QE_PCL_MEM_MBASE, 55, 12, .rw⟩]⟩,
  ⟨.QE_ENQ, 0x18000, 8, 4096, 1, [⟨F.QE_ENQ_TARGET, 63, 63, .rw⟩, ⟨F.QE_ENQ_LOST, 47, 32, .rw⟩, ⟨F.QE_ENQ_PCOUNT, 31, 0, .ro⟩]⟩]

/-- The registers of block PH. -/
def regsPH : List RegRow := [
  ⟨.PH_CAP, 0x20000, 8, 1, 1, [⟨F.PH_CAP_BANKS, 55, 48, .ro⟩, ⟨F.PH_CAP_LOG2PH, 47, 40, .ro⟩, ⟨F.PH_CAP_LOG2WAIT, 39, 32, .ro⟩, ⟨F.PH_CAP_NLINK, 31, 16, .ro⟩, ⟨F.PH_CAP_NWATCH, 15, 0, .ro⟩]⟩,
  ⟨.PH_CYCLE_SCAN, 0x20008, 8, 1, 1, [⟨F.PH_CYCLE_SCAN_SCAN, 23, 0, .rw⟩]⟩,
  ⟨.PH_STAT, 0x20010, 8, 1, 1, [⟨F.PH_STAT_LSTRAY, 63, 32, .ro⟩, ⟨F.PH_STAT_WFREE, 31, 13, .ro⟩, ⟨F.PH_STAT_WATCHUSED, 12, 0, .ro⟩]⟩,
  ⟨.PH_PEEK_SEL, 0x20018, 8, 1, 1, [⟨F.PH_PEEK_SEL_PH, 20, 0, .rw⟩]⟩,
  ⟨.PH_PEEK_W0, 0x20020, 8, 1, 1, [⟨F.PH_PEEK_W0_VALUE, 63, 0, .ro⟩]⟩,
  ⟨.PH_PEEK_W1, 0x20028, 8, 1, 1, [⟨F.PH_PEEK_W1_ROW1, 63, 0, .ro⟩]⟩,
  ⟨.PH_ERR, 0x20030, 8, 1, 1, [⟨F.PH_ERR_CAUSE, 63, 60, .ro⟩, ⟨F.PH_ERR_WHERE, 12, 0, .ro⟩]⟩,
  ⟨.PH_PART_BASE, 0x21000, 16, 64, 1, [⟨F.PH_PART_BASE_EN, 63, 63, .rw⟩, ⟨F.PH_PART_BASE_BASE, 20, 0, .rw⟩]⟩,
  ⟨.PH_PART_LIMIT, 0x21008, 16, 64, 1, [⟨F.PH_PART_LIMIT_LAST, 20, 0, .rw⟩]⟩,
  ⟨.PH_WQUOTA, 0x21400, 8, 64, 1, [⟨F.PH_WQUOTA_QUOTA, 17, 0, .rw⟩]⟩,
  ⟨.PH_LINK, 0x28000, 8, 4096, 1, [⟨F.PH_LINK_EN, 63, 63, .rw⟩, ⟨F.PH_LINK_DIR, 62, 62, .rw⟩, ⟨F.PH_LINK_CHIP, 61, 58, .rw⟩, ⟨F.PH_LINK_LOCAL, 57, 37, .rw⟩, ⟨F.PH_LINK_REMOTE, 36, 16, .rw⟩]⟩]

/-- The registers of block SCH. -/
def regsSCH : List RegRow := [
  ⟨.SCH_CAP, 0x30000, 8, 1, 1, [⟨F.SCH_CAP_NWIN, 47, 32, .ro⟩, ⟨F.SCH_CAP_NEGRP, 31, 24, .ro⟩, ⟨F.SCH_CAP_NSGRP, 23, 16, .ro⟩]⟩,
  ⟨.SCH_TTCTL, 0x30008, 8, 1, 1, [⟨F.SCH_TTCTL_PEND, 63, 63, .ro⟩, ⟨F.SCH_TTCTL_ACTNWIN, 58, 48, .ro⟩, ⟨F.SCH_TTCTL_SHDNWIN, 42, 32, .rw⟩, ⟨F.SCH_TTCTL_CMD, 3, 0, .wo⟩]⟩,
  ⟨.SCH_TTSTAT, 0x30010, 8, 1, 1, [⟨F.SCH_TTSTAT_PHASE, 63, 62, .ro⟩, ⟨F.SCH_TTSTAT_WIN, 41, 32, .ro⟩, ⟨F.SCH_TTSTAT_CYCLES, 31, 0, .ro⟩]⟩,
  ⟨.SCH_CYCLE_T, 0x30018, 8, 1, 1, [⟨F.SCH_CYCLE_T_T0, 63, 0, .ro⟩]⟩,
  ⟨.SCH_DRR, 0x30020, 8, 1, 1, [⟨F.SCH_DRR_UNDECL, 47, 32, .rw⟩, ⟨F.SCH_DRR_QUANTUM, 31, 0, .rw⟩]⟩,
  ⟨.SCH_WD, 0x30028, 8, 1, 1, [⟨F.SCH_WD_FIRED, 63, 32, .ro⟩, ⟨F.SCH_WD_RLIMIT, 31, 0, .rw⟩]⟩,
  ⟨.SCH_STAT, 0x30030, 8, 1, 1, [⟨F.SCH_STAT_LATE, 63, 32, .ro⟩, ⟨F.SCH_STAT_STRETCH, 31, 0, .ro⟩]⟩,
  ⟨.SCH_ERR, 0x30038, 8, 1, 1, [⟨F.SCH_ERR_CAUSE, 63, 60, .ro⟩, ⟨F.SCH_ERR_WHERE, 9, 0, .ro⟩]⟩,
  ⟨.SCH_EGRP_ACT, 0x30100, 8, 16, 1, [⟨F.SCH_EGRP_ACT_PORTS, 31, 0, .ro⟩]⟩,
  ⟨.SCH_EGRP, 0x30180, 8, 16, 1, [⟨F.SCH_EGRP_PORTS, 31, 0, .rw⟩]⟩,
  ⟨.SCH_SGRP_ACT, 0x30200, 8, 16, 1, [⟨F.SCH_SGRP_ACT_STATIONS, 63, 0, .ro⟩]⟩,
  ⟨.SCH_SGRP, 0x30280, 8, 16, 1, [⟨F.SCH_SGRP_STATIONS, 63, 0, .rw⟩]⟩,
  ⟨.SCH_PRT, 0x31000, 16, 64, 1, [⟨F.SCH_PRT_SHAREEN, 63, 63, .rw⟩, ⟨F.SCH_PRT_WEIGHT, 47, 32, .rw⟩, ⟨F.SCH_PRT_DEFDUR, 31, 0, .rw⟩]⟩,
  ⟨.SCH_BAL, 0x31008, 16, 64, 1, [⟨F.SCH_BAL_BALANCE, 63, 0, .ro⟩]⟩,
  ⟨.SCH_ACC, 0x32000, 8, 256, 1, [⟨F.SCH_ACC_COUNT, 63, 0, .rw⟩]⟩]

/-- The registers of block GAL. -/
def regsGAL : List RegRow := [
  ⟨.GAL_CAP, 0x40000, 8, 1, 1, [⟨F.GAL_CAP_HALLS, 55, 48, .ro⟩, ⟨F.GAL_CAP_SLOTS, 47, 40, .ro⟩, ⟨F.GAL_CAP_NSEAL, 39, 32, .ro⟩, ⟨F.GAL_CAP_NFRANK, 31, 16, .ro⟩, ⟨F.GAL_CAP_NDROP, 15, 0, .ro⟩]⟩,
  ⟨.GAL_SEAL_TIMEOUT, 0x40008, 8, 1, 1, [⟨F.GAL_SEAL_TIMEOUT_TIMEOUT, 15, 0, .rw⟩]⟩,
  ⟨.GAL_STAT, 0x40010, 8, 1, 1, [⟨F.GAL_STAT_SEALTO, 63, 32, .ro⟩, ⟨F.GAL_STAT_REFUSED, 31, 0, .ro⟩]⟩,
  ⟨.GAL_ERR, 0x40018, 8, 1, 1, [⟨F.GAL_ERR_CAUSE, 63, 60, .ro⟩, ⟨F.GAL_ERR_REQ, 19, 13, .ro⟩, ⟨F.GAL_ERR_WHERE, 12, 0, .ro⟩]⟩,
  ⟨.GAL_SCRUB, 0x40020, 8, 1, 1, [⟨F.GAL_SCRUB_PENDING, 47, 32, .ro⟩, ⟨F.GAL_SCRUB_PATROL, 15, 0, .rw⟩]⟩,
  ⟨.GAL_HOST_ADDR, 0x40028, 8, 1, 1, [⟨F.GAL_HOST_ADDR_ERR, 63, 63, .w1c⟩, ⟨F.GAL_HOST_ADDR_AUTOINC, 62, 62, .rw⟩, ⟨F.GAL_HOST_ADDR_ADDR, 28, 3, .rw⟩]⟩,
  ⟨.GAL_HOST_DATA, 0x40030, 8, 1, 1, [⟨F.GAL_HOST_DATA_DATA, 63, 0, .rw⟩]⟩,
  ⟨.GAL_FRANK_SEL, 0x40038, 8, 1, 1, [⟨F.GAL_FRANK_SEL_COUNTER, 11, 0, .rw⟩]⟩,
  ⟨.GAL_FRANK_VAL, 0x40040, 8, 1, 1, [⟨F.GAL_FRANK_VAL_VALUE, 63, 0, .ro⟩]⟩,
  ⟨.GAL_WHEEL_MODE, 0x40400, 8, 64, 1, [⟨F.GAL_WHEEL_MODE_PEND, 63, 63, .ro⟩, ⟨F.GAL_WHEEL_MODE_MODE, 62, 62, .ro⟩, ⟨F.GAL_WHEEL_MODE_MODESHD, 2, 2, .rw⟩, ⟨F.GAL_WHEEL_MODE_CMD, 1, 0, .wo⟩]⟩,
  ⟨.GAL_LENIENT_OPT, 0x40600, 8, 2, 1, [⟨F.GAL_LENIENT_OPT_OPT, 63, 0, .rw⟩]⟩,
  ⟨.GAL_WHEEL, 0x41000, 8, 256, 1, [⟨F.GAL_WHEEL_ENTRIES, 63, 0, .rw⟩]⟩,
  ⟨.GAL_WHEEL_ACT, 0x41800, 8, 256, 1, [⟨F.GAL_WHEEL_ACT_ENTRIES, 63, 0, .ro⟩]⟩,
  ⟨.GAL_CPWR_REQ, 0x42000, 16, 64, 1, [⟨F.GAL_CPWR_REQ_TARGETS, 31, 0, .rw⟩]⟩,
  ⟨.GAL_CPWR_STAT, 0x42008, 16, 64, 1, [⟨F.GAL_CPWR_STAT_HELD, 63, 63, .ro⟩, ⟨F.GAL_CPWR_STAT_STATES, 47, 0, .ro⟩]⟩,
  ⟨.GAL_SEAL_BASE, 0x42800, 32, 64, 1, [⟨F.GAL_SEAL_BASE_BASE, 28, 0, .ro⟩]⟩,
  ⟨.GAL_SEAL_SIZE, 0x42808, 32, 64, 1, [⟨F.GAL_SEAL_SIZE_SIZE, 28, 0, .ro⟩]⟩,
  ⟨.GAL_SEAL_MODE, 0x42810, 32, 64, 1, [⟨F.GAL_SEAL_MODE_ALLOT, 63, 63, .rw⟩, ⟨F.GAL_SEAL_MODE_ARMED, 62, 62, .ro⟩, ⟨F.GAL_SEAL_MODE_PERM, 61, 61, .ro⟩, ⟨F.GAL_SEAL_MODE_PEEK, 60, 60, .ro⟩, ⟨F.GAL_SEAL_MODE_OWNER, 53, 48, .rw⟩, ⟨F.GAL_SEAL_MODE_DISARM, 0, 0, .wo⟩]⟩,
  ⟨.GAL_DROP, 0x44000, 16, 256, 1, [⟨F.GAL_DROP_ALLOT, 63, 63, .rw⟩, ⟨F.GAL_DROP_OPEN, 62, 62, .ro⟩, ⟨F.GAL_DROP_FORCECLOSE, 61, 61, .wo⟩, ⟨F.GAL_DROP_OWNER, 53, 48, .rw⟩]⟩,
  ⟨.GAL_DROP_RANGE, 0x44008, 16, 256, 1, [⟨F.GAL_DROP_RANGE_RANGE, 63, 0, .ro⟩]⟩,
  ⟨.GAL_FRANK_PART, 0x45000, 8, 64, 1, [⟨F.GAL_FRANK_PART_EN, 63, 63, .rw⟩, ⟨F.GAL_FRANK_PART_LAST, 27, 16, .rw⟩, ⟨F.GAL_FRANK_PART_BASE, 11, 0, .rw⟩]⟩,
  ⟨.GAL_OWN, 0x48000, 8, 4096, 1, [⟨F.GAL_OWN_VALID, 31, 31, .rw⟩, ⟨F.GAL_OWN_CTXEN, 30, 30, .rw⟩, ⟨F.GAL_OWN_CTX, 25, 16, .rw⟩, ⟨F.GAL_OWN_STATE, 15, 14, .ro⟩, ⟨F.GAL_OWN_PART, 5, 0, .rw⟩]⟩]

/-- The registers of block STN. -/
def regsSTN : List RegRow := [
  ⟨.STN_ID, 0x80000, 4096, 64, 1, [⟨F.STN_ID_ISLAND, 22, 16, .ro⟩, ⟨F.STN_ID_PRESENT, 15, 15, .ro⟩, ⟨F.STN_ID_HOME, 13, 8, .ro⟩, ⟨F.STN_ID_STATION, 5, 0, .ro⟩]⟩,
  ⟨.STN_FMT, 0x80008, 4096, 64, 1, [⟨F.STN_FMT_LONGBYTES, 31, 24, .ro⟩, ⟨F.STN_FMT_ACCBITS, 23, 16, .ro⟩, ⟨F.STN_FMT_MX, 15, 15, .ro⟩, ⟨F.STN_FMT_E2M1, 14, 14, .ro⟩, ⟨F.STN_FMT_E2M3, 13, 13, .ro⟩, ⟨F.STN_FMT_E3M2, 12, 12, .ro⟩, ⟨F.STN_FMT_E4M3, 11, 11, .ro⟩, ⟨F.STN_FMT_E5M2, 10, 10, .ro⟩, ⟨F.STN_FMT_BF16, 9, 9, .ro⟩, ⟨F.STN_FMT_FP16, 8, 8, .ro⟩, ⟨F.STN_FMT_FP32, 7, 7, .ro⟩, ⟨F.STN_FMT_INT32, 6, 6, .ro⟩, ⟨F.STN_FMT_INT16, 5, 5, .ro⟩, ⟨F.STN_FMT_INT8, 4, 4, .ro⟩, ⟨F.STN_FMT_INT4, 3, 3, .ro⟩, ⟨F.STN_FMT_SR, 2, 2, .ro⟩]⟩,
  ⟨.STN_AFLAGS, 0x80010, 4096, 64, 1, [⟨F.STN_AFLAGS_ALIGN, 5, 5, .w1c⟩, ⟨F.STN_AFLAGS_RANGE, 4, 4, .w1c⟩, ⟨F.STN_AFLAGS_SATURATE, 3, 3, .w1c⟩, ⟨F.STN_AFLAGS_UNDERFLOW, 2, 2, .w1c⟩, ⟨F.STN_AFLAGS_OVERFLOW, 1, 1, .w1c⟩, ⟨F.STN_AFLAGS_INVALID, 0, 0, .w1c⟩]⟩,
  ⟨.STN_PSTAT, 0x80100, 4096, 64, 1, [⟨F.STN_PSTAT_STATE, 63, 61, .ro⟩, ⟨F.STN_PSTAT_QUEUE, 59, 48, .ro⟩, ⟨F.STN_PSTAT_FIRST, 47, 42, .ro⟩, ⟨F.STN_PSTAT_POS, 41, 36, .ro⟩, ⟨F.STN_PSTAT_DEPTH, 35, 30, .ro⟩, ⟨F.STN_PSTAT_LEFT, 29, 10, .ro⟩, ⟨F.STN_PSTAT_PC, 9, 0, .ro⟩]⟩,
  ⟨.STN_PFLAGS, 0x80108, 4096, 64, 1, [⟨F.STN_PFLAGS_FLAGS, 5, 0, .ro⟩]⟩,
  ⟨.STN_PERR, 0x80110, 4096, 64, 1, [⟨F.STN_PERR_CAUSE, 63, 60, .ro⟩, ⟨F.STN_PERR_SDESC, 12, 10, .ro⟩, ⟨F.STN_PERR_INSTR, 9, 0, .ro⟩]⟩,
  ⟨.STN_FIFO, 0x80118, 4096, 64, 1, [⟨F.STN_FIFO_FWDCRED, 63, 56, .ro⟩, ⟨F.STN_FIFO_BACKCRED, 55, 48, .ro⟩, ⟨F.STN_FIFO_FWDIN, 47, 40, .ro⟩, ⟨F.STN_FIFO_BACKIN, 39, 32, .ro⟩, ⟨F.STN_FIFO_F0Q, 31, 24, .ro⟩, ⟨F.STN_FIFO_F1Q, 23, 16, .ro⟩, ⟨F.STN_FIFO_EQ, 15, 8, .ro⟩]⟩,
  ⟨.STN_RUNCYC, 0x80120, 4096, 64, 1, [⟨F.STN_RUNCYC_CYCLES, 63, 0, .ro⟩]⟩,
  ⟨.STN_STALLCYC, 0x80128, 4096, 64, 1, [⟨F.STN_STALLCYC_CYCLES, 63, 0, .ro⟩]⟩,
  ⟨.STN_X, 0x80200, 4096, 64, 16, [⟨F.STN_X_VALUE, 63, 0, .ro⟩]⟩]

/-- The registers of block XLT. -/
def regsXLT : List RegRow := [
  ⟨.XLT_CAP, 0xc0000, 8, 1, 1, [⟨F.XLT_CAP_VABITS, 63, 56, .ro⟩, ⟨F.XLT_CAP_PABITS, 55, 48, .ro⟩, ⟨F.XLT_CAP_NCTX, 47, 32, .ro⟩, ⟨F.XLT_CAP_NSEG, 31, 24, .ro⟩, ⟨F.XLT_CAP_ETB, 23, 16, .ro⟩, ⟨F.XLT_CAP_STCK, 15, 0, .ro⟩]⟩,
  ⟨.XLT_PFCFG, 0xc0008, 8, 1, 1, [⟨F.XLT_PFCFG_LIMIT, 31, 0, .rw⟩]⟩,
  ⟨.XLT_INVCFG, 0xc0010, 8, 1, 1, [⟨F.XLT_INVCFG_ELIMIT, 31, 0, .rw⟩]⟩,
  ⟨.XLT_STAT, 0xc0018, 8, 1, 1, [⟨F.XLT_STAT_PFAULTS, 63, 32, .ro⟩, ⟨F.XLT_STAT_INVACTIVE, 7, 0, .ro⟩]⟩,
  ⟨.XLT_ERR, 0xc0020, 8, 1, 1, [⟨F.XLT_ERR_CAUSE, 63, 60, .ro⟩, ⟨F.XLT_ERR_WHERE, 9, 0, .ro⟩]⟩,
  ⟨.XLT_ACNT_BASE, 0xc0028, 8, 1, 1, [⟨F.XLT_ACNT_BASE_BASE, 55, 21, .rw⟩]⟩,
  ⟨.XLT_ACNT_CFG, 0xc0030, 8, 1, 1, [⟨F.XLT_ACNT_CFG_EN, 63, 63, .rw⟩, ⟨F.XLT_ACNT_CFG_DECAY, 47, 32, .rw⟩, ⟨F.XLT_ACNT_CFG_THRESH, 31, 0, .rw⟩]⟩,
  ⟨.XLT_ACNT_SEL, 0xc0038, 8, 1, 1, [⟨F.XLT_ACNT_SEL_INDEX, 15, 0, .rw⟩]⟩,
  ⟨.XLT_ACNT_VAL, 0xc0040, 8, 1, 1, [⟨F.XLT_ACNT_VAL_COUNT, 31, 0, .rw⟩]⟩,
  ⟨.XLT_MIGR_NOTE, 0xc0048, 8, 1, 1, [⟨F.XLT_MIGR_NOTE_VALID, 63, 63, .ro⟩, ⟨F.XLT_MIGR_NOTE_LOST, 62, 48, .ro⟩, ⟨F.XLT_MIGR_NOTE_INDEX, 15, 0, .ro⟩]⟩,
  ⟨.XLT_MIGR_POP, 0xc0050, 8, 1, 1, [⟨F.XLT_MIGR_POP_POP, 0, 0, .wo⟩]⟩,
  ⟨.XLT_CTX_W0, 0xc8000, 32, 1024, 1, [⟨F.XLT_CTX_EN, 63, 63, .rw⟩, ⟨F.XLT_CTX_SEC, 62, 62, .rw⟩, ⟨F.XLT_CTX_PART, 53, 48, .rw⟩, ⟨F.XLT_CTX_MMEN, 47, 47, .rw⟩, ⟨F.XLT_CTX_SEGCNT, 46, 40, .rw⟩]⟩,
  ⟨.XLT_CTX_W1, 0xc8008, 32, 1024, 1, [⟨F.XLT_CTX_SEGBASE, 55, 12, .rw⟩]⟩,
  ⟨.XLT_CTX_W2, 0xc8010, 32, 1024, 1, [⟨F.XLT_CTX_MMROOT, 55, 12, .rw⟩]⟩,
  ⟨.XLT_CTX_W3, 0xc8018, 32, 1024, 1, [⟨F.XLT_CTX_DRAINING, 63, 63, .ro⟩, ⟨F.XLT_CTX_EPOCH, 31, 0, .ro⟩]⟩]

/-- The registers of block FAB. -/
def regsFAB : List RegRow := [
  ⟨.FAB_CAP, 0xd0000, 8, 1, 1, [⟨F.FAB_CAP_LINKS, 55, 52, .ro⟩, ⟨F.FAB_CAP_LPMIN, 51, 48, .ro⟩, ⟨F.FAB_CAP_LPMAX, 47, 44, .ro⟩, ⟨F.FAB_CAP_MAXCHIP, 39, 32, .ro⟩, ⟨F.FAB_CAP_NGROUP, 31, 16, .ro⟩, ⟨F.FAB_CAP_MAXRANK, 15, 8, .ro⟩]⟩,
  ⟨.FAB_ID, 0xd0008, 8, 1, 1, [⟨F.FAB_ID_LOCKED, 63, 63, .ro⟩, ⟨F.FAB_ID_CHIP, 3, 0, .rw⟩]⟩,
  ⟨.FAB_MEMBERS, 0xd0010, 8, 1, 1, [⟨F.FAB_MEMBERS_CHIPS, 15, 0, .ro⟩]⟩,
  ⟨.FAB_TIME, 0xd0018, 8, 1, 1, [⟨F.FAB_TIME_NS, 63, 0, .ro⟩]⟩,
  ⟨.FAB_TSYNC, 0xd0020, 8, 1, 1, [⟨F.FAB_TSYNC_SYNC, 63, 63, .ro⟩, ⟨F.FAB_TSYNC_SOURCE, 62, 62, .ro⟩, ⟨F.FAB_TSYNC_SRC, 59, 56, .ro⟩, ⟨F.FAB_TSYNC_HOPS, 55, 53, .ro⟩, ⟨F.FAB_TSYNC_STEPS, 47, 32, .ro⟩, ⟨F.FAB_TSYNC_OFFSET, 15, 0, .ro⟩]⟩,
  ⟨.FAB_TSRC, 0xd0028, 8, 1, 1, [⟨F.FAB_TSRC_AUTO, 63, 63, .rw⟩, ⟨F.FAB_TSRC_SRC, 3, 0, .rw⟩]⟩,
  ⟨.FAB_MEMIN, 0xd0030, 8, 1, 1, [⟨F.FAB_MEMIN_CHIPS, 15, 0, .rw⟩]⟩,
  ⟨.FAB_HOLD, 0xd0038, 8, 1, 1, [⟨F.FAB_HOLD_HOLD, 31, 0, .rw⟩]⟩,
  ⟨.FAB_FLOOR, 0xd0040, 8, 1, 1, [⟨F.FAB_FLOOR_SET, 19, 0, .ro⟩]⟩,
  ⟨.FAB_COLL, 0xd0048, 8, 1, 1, [⟨F.FAB_COLL_STEPLIM, 63, 32, .rw⟩, ⟨F.FAB_COLL_SMALL, 31, 0, .rw⟩]⟩,
  ⟨.FAB_ERR, 0xd0050, 8, 1, 1, [⟨F.FAB_ERR_CAUSE, 63, 60, .ro⟩, ⟨F.FAB_ERR_WHERE, 7, 0, .ro⟩]⟩,
  ⟨.FAB_ROUTE, 0xd0080, 8, 16, 1, [⟨F.FAB_ROUTE_EN, 63, 63, .rw⟩, ⟨F.FAB_ROUTE_LINK, 2, 0, .rw⟩]⟩,
  ⟨.FAB_LCTL, 0xd0200, 64, 6, 1, [⟨F.FAB_LCTL_CMD, 3, 0, .wo⟩]⟩,
  ⟨.FAB_LSTAT, 0xd0208, 64, 6, 1, [⟨F.FAB_LSTAT_STATE, 63, 61, .ro⟩, ⟨F.FAB_LSTAT_CAUSE, 60, 57, .ro⟩, ⟨F.FAB_LSTAT_WIDTH, 47, 40, .ro⟩, ⟨F.FAB_LSTAT_RATE, 39, 32, .ro⟩]⟩,
  ⟨.FAB_LREV, 0xd0210, 64, 6, 1, [⟨F.FAB_LREV_CHOSEN, 19, 0, .ro⟩]⟩,
  ⟨.FAB_LANN, 0xd0218, 64, 6, 1, [⟨F.FAB_LANN_MAX, 19, 0, .rw⟩]⟩,
  ⟨.FAB_LPEER, 0xd0220, 64, 6, 1, [⟨F.FAB_LPEER_CHIP, 63, 60, .ro⟩, ⟨F.FAB_LPEER_MAX, 39, 20, .ro⟩, ⟨F.FAB_LPEER_MIN, 19, 0, .ro⟩]⟩,
  ⟨.FAB_LCNT, 0xd0228, 64, 6, 1, [⟨F.FAB_LCNT_BADFLIT, 63, 48, .ro⟩, ⟨F.FAB_LCNT_TXFLITS, 47, 24, .ro⟩, ⟨F.FAB_LCNT_RXFLITS, 23, 0, .ro⟩]⟩,
  ⟨.FAB_GRP, 0xd1000, 8, 256, 1, [⟨F.FAB_GRP_EN, 63, 63, .rw⟩, ⟨F.FAB_GRP_NRANK, 54, 48, .rw⟩, ⟨F.FAB_GRP_DIGEST, 31, 0, .ro⟩]⟩,
  ⟨.FAB_GMEM, 0xd8000, 8, 4096, 1, []⟩]

/-- The registers of block ECH. -/
def regsECH : List RegRow := [
  ⟨.ECH_CAP, 0xe0000, 8, 1, 1, [⟨F.ECH_CAP_PRESENT, 63, 63, .ro⟩, ⟨F.ECH_CAP_MAXLINES, 31, 0, .ro⟩]⟩,
  ⟨.ECH_CTL, 0xe0008, 8, 1, 1, [⟨F.ECH_CTL_SECONDARY, 63, 63, .ro⟩, ⟨F.ECH_CTL_CMD, 3, 0, .wo⟩]⟩,
  ⟨.ECH_STAT, 0xe0010, 8, 1, 1, [⟨F.ECH_STAT_MODE, 63, 62, .ro⟩, ⟨F.ECH_STAT_ROLE, 61, 59, .ro⟩, ⟨F.ECH_STAT_PAIR, 58, 56, .ro⟩, ⟨F.ECH_STAT_TIEBREAK, 55, 55, .ro⟩, ⟨F.ECH_STAT_PEERTB, 54, 54, .ro⟩, ⟨F.ECH_STAT_UNRETIRED, 31, 0, .ro⟩]⟩,
  ⟨.ECH_HB, 0xe0018, 8, 1, 1, [⟨F.ECH_HB_LOSS, 47, 32, .rw⟩, ⟨F.ECH_HB_PERIOD, 15, 0, .rw⟩]⟩,
  ⟨.ECH_CMP, 0xe0020, 8, 1, 1, [⟨F.ECH_CMP_WAIT, 31, 0, .rw⟩]⟩,
  ⟨.ECH_PARTS, 0xe0028, 8, 1, 1, [⟨F.ECH_PARTS_PARTS, 63, 0, .rw⟩]⟩,
  ⟨.ECH_ERR, 0xe0030, 8, 1, 1, [⟨F.ECH_ERR_CAUSE, 63, 60, .ro⟩]⟩,
  ⟨.ECH_CNT, 0xe0038, 8, 1, 1, [⟨F.ECH_CNT_BAD, 63, 32, .ro⟩, ⟨F.ECH_CNT_RESENT, 31, 0, .ro⟩]⟩,
  ⟨.ECH_DIV_Q, 0xe0040, 8, 1, 1, [⟨F.ECH_DIV_Q_ID, 63, 0, .ro⟩]⟩,
  ⟨.ECH_DIV_LOCAL, 0xe0048, 8, 1, 1, [⟨F.ECH_DIV_LOCAL_DIGEST, 63, 0, .ro⟩]⟩,
  ⟨.ECH_DIV_PEER, 0xe0050, 8, 1, 1, [⟨F.ECH_DIV_PEER_DIGEST, 63, 0, .ro⟩]⟩,
  ⟨.ECH_CFGDIG, 0xe0058, 8, 1, 1, [⟨F.ECH_CFGDIG_DIGEST, 63, 0, .ro⟩]⟩,
  ⟨.ECH_GAL, 0xe0100, 16, 16, 1, [⟨F.ECH_GAL_EN, 63, 63, .rw⟩, ⟨F.ECH_GAL_SIZE, 44, 32, .rw⟩, ⟨F.ECH_GAL_BASE, 12, 0, .rw⟩]⟩]

/-- The registers of block FLT. -/
def regsFLT : List RegRow := [
  ⟨.FLT_CAP, 0xf0000, 8, 1, 1, [⟨F.FLT_CAP_NGROUP, 47, 40, .ro⟩, ⟨F.FLT_CAP_RECBYTES, 39, 32, .ro⟩, ⟨F.FLT_CAP_MINLOG2, 31, 24, .ro⟩, ⟨F.FLT_CAP_MAXLOG2, 23, 16, .ro⟩, ⟨F.FLT_CAP_LANTERNAON, 15, 0, .ro⟩]⟩,
  ⟨.FLT_CFG, 0xf0008, 8, 1, 1, [⟨F.FLT_CFG_AUTOACK, 63, 63, .rw⟩, ⟨F.FLT_CFG_PROGOUT, 62, 62, .rw⟩, ⟨F.FLT_CFG_ACKDELAY, 31, 0, .rw⟩]⟩,
  ⟨.FLT_STAT, 0xf0010, 8, 1, 1, [⟨F.FLT_STAT_FATALOUT, 63, 63, .ro⟩, ⟨F.FLT_STAT_CONTAINEDOUT, 62, 62, .ro⟩, ⟨F.FLT_STAT_LANTERN, 61, 61, .ro⟩, ⟨F.FLT_STAT_AWAKE, 60, 60, .ro⟩, ⟨F.FLT_STAT_SEQ, 31, 0, .ro⟩]⟩,
  ⟨.FLT_FATAL, 0xf0018, 8, 1, 1, [⟨F.FLT_FATAL_VALID, 63, 63, .ro⟩, ⟨F.FLT_FATAL_OVF, 62, 62, .ro⟩, ⟨F.FLT_FATAL_ESC, 61, 61, .ro⟩, ⟨F.FLT_FATAL_PV, 60, 60, .ro⟩, ⟨F.FLT_FATAL_GROUP, 59, 56, .ro⟩, ⟨F.FLT_FATAL_CAUSE, 55, 48, .ro⟩, ⟨F.FLT_FATAL_PART, 47, 42, .ro⟩, ⟨F.FLT_FATAL_SEQ, 31, 0, .ro⟩]⟩,
  ⟨.FLT_FATAL_TIME, 0xf0020, 8, 1, 1, [⟨F.FLT_FATAL_TIME_NS, 63, 0, .ro⟩]⟩,
  ⟨.FLT_GRING_BASE, 0xf0028, 8, 1, 1, [⟨F.FLT_GRING_BASE_BASE, 55, 12, .rw⟩]⟩,
  ⟨.FLT_GRING_CFG, 0xf0030, 8, 1, 1, [⟨F.FLT_GRING_CFG_EN, 63, 63, .rw⟩, ⟨F.FLT_GRING_CFG_IRQ, 62, 62, .rw⟩, ⟨F.FLT_GRING_CFG_LOG2, 4, 0, .rw⟩]⟩,
  ⟨.FLT_GRING_HEAD, 0xf0038, 8, 1, 1, [⟨F.FLT_GRING_HEAD_HEAD, 31, 0, .rw⟩]⟩,
  ⟨.FLT_GRING_POS, 0xf0040, 8, 1, 1, [⟨F.FLT_GRING_POS_POS, 31, 0, .ro⟩]⟩,
  ⟨.FLT_G_DEAD, 0xf0048, 8, 1, 1, [⟨F.FLT_G_DEAD_FIRST, 63, 32, .ro⟩, ⟨F.FLT_G_DEAD_DEAD, 31, 0, .rw⟩]⟩,
  ⟨.FLT_HOLD_BUDGET, 0xf0050, 8, 1, 1, [⟨F.FLT_HOLD_BUDGET_BUDGET, 15, 0, .rw⟩]⟩,
  ⟨.FLT_INJ, 0xf0058, 8, 1, 1, [⟨F.FLT_INJ_ARM, 63, 63, .w1s⟩, ⟨F.FLT_INJ_DONE, 62, 62, .w1c⟩, ⟨F.FLT_INJ_ERR, 61, 61, .w1c⟩, ⟨F.FLT_INJ_TARGET, 22, 21, .rw⟩, ⟨F.FLT_INJ_POS2, 20, 14, .rw⟩, ⟨F.FLT_INJ_POS1, 13, 7, .rw⟩, ⟨F.FLT_INJ_POS0, 6, 0, .rw⟩]⟩,
  ⟨.FLT_INJ_ADDR, 0xf0060, 8, 1, 1, [⟨F.FLT_INJ_ADDR_WORD, 63, 3, .rw⟩]⟩,
  ⟨.FLT_LATCH_C, 0xf0100, 16, 16, 1, [⟨F.FLT_LATCH_C_VALID, 63, 63, .w1c⟩, ⟨F.FLT_LATCH_C_OVF, 62, 62, .ro⟩, ⟨F.FLT_LATCH_C_ESCL, 61, 61, .ro⟩, ⟨F.FLT_LATCH_C_ESC, 60, 60, .ro⟩, ⟨F.FLT_LATCH_C_CAUSE, 59, 52, .ro⟩, ⟨F.FLT_LATCH_C_PART, 51, 46, .ro⟩, ⟨F.FLT_LATCH_C_PV, 45, 45, .ro⟩, ⟨F.FLT_LATCH_C_UNIT, 44, 32, .ro⟩, ⟨F.FLT_LATCH_C_SEQ, 31, 0, .ro⟩]⟩,
  ⟨.FLT_LATCH_K, 0xf0108, 16, 16, 1, [⟨F.FLT_LATCH_K_VALID, 63, 63, .w1c⟩, ⟨F.FLT_LATCH_K_OVF, 62, 62, .ro⟩, ⟨F.FLT_LATCH_K_ESCL, 61, 61, .ro⟩, ⟨F.FLT_LATCH_K_ESC, 60, 60, .ro⟩, ⟨F.FLT_LATCH_K_CAUSE, 59, 52, .ro⟩, ⟨F.FLT_LATCH_K_PART, 51, 46, .ro⟩, ⟨F.FLT_LATCH_K_PV, 45, 45, .ro⟩, ⟨F.FLT_LATCH_K_UNIT, 44, 32, .ro⟩, ⟨F.FLT_LATCH_K_SEQ, 31, 0, .ro⟩]⟩,
  ⟨.FLT_CNT, 0xf0200, 8, 16, 1, [⟨F.FLT_CNT_CONTAINED, 63, 32, .rw⟩, ⟨F.FLT_CNT_CORRECTED, 31, 0, .rw⟩]⟩,
  ⟨.FLT_PRING_BASE, 0xf0400, 16, 64, 1, [⟨F.FLT_PRING_BASE_BASE, 63, 12, .rw⟩]⟩,
  ⟨.FLT_PRING_CFG, 0xf0408, 16, 64, 1, [⟨F.FLT_PRING_CFG_EN, 63, 63, .rw⟩, ⟨F.FLT_PRING_CFG_IRQ, 62, 62, .rw⟩, ⟨F.FLT_PRING_CFG_CTX, 20, 11, .rw⟩, ⟨F.FLT_PRING_CFG_LOG2, 4, 0, .rw⟩]⟩,
  ⟨.FLT_PLATCH, 0xf0800, 8, 64, 1, [⟨F.FLT_PLATCH_VALID, 63, 63, .w1c⟩, ⟨F.FLT_PLATCH_OVF, 62, 62, .ro⟩, ⟨F.FLT_PLATCH_ESCL, 61, 61, .ro⟩, ⟨F.FLT_PLATCH_ESC, 60, 60, .ro⟩, ⟨F.FLT_PLATCH_CAUSE, 59, 52, .ro⟩, ⟨F.FLT_PLATCH_PART, 51, 46, .ro⟩, ⟨F.FLT_PLATCH_PV, 45, 45, .ro⟩, ⟨F.FLT_PLATCH_GROUP, 44, 41, .ro⟩, ⟨F.FLT_PLATCH_SEQ, 31, 0, .ro⟩]⟩]

/-- The registers of block PWR. -/
def regsPWR : List RegRow := [
  ⟨.PWR_CMD, 0x100000, 8, 1, 1, [⟨F.PWR_CMD_CMD, 3, 0, .wo⟩]⟩,
  ⟨.PWR_STATE, 0x100008, 8, 1, 1, [⟨F.PWR_STATE_STATE, 63, 61, .ro⟩, ⟨F.PWR_STATE_EMERG, 60, 60, .ro⟩, ⟨F.PWR_STATE_REFUSE, 59, 56, .ro⟩]⟩,
  ⟨.PWR_WAKE_TIME, 0x100010, 8, 1, 1, [⟨F.PWR_WAKE_TIME_TIME, 63, 0, .rw⟩]⟩,
  ⟨.PWR_WAKE_CAUSE, 0x100018, 8, 1, 1, [⟨F.PWR_WAKE_CAUSE_COUNT, 63, 32, .ro⟩, ⟨F.PWR_WAKE_CAUSE_TIMER, 9, 9, .w1c⟩, ⟨F.PWR_WAKE_CAUSE_PWAKE, 8, 8, .w1c⟩, ⟨F.PWR_WAKE_CAUSE_DOORBELL, 7, 7, .w1c⟩, ⟨F.PWR_WAKE_CAUSE_ECHO, 6, 6, .w1c⟩, ⟨F.PWR_WAKE_CAUSE_LINK, 5, 0, .w1c⟩]⟩,
  ⟨.PWR_SAFE, 0x100020, 8, 1, 1, [⟨F.PWR_SAFE_RAMP, 47, 32, .rw⟩, ⟨F.PWR_SAFE_CTL, 11, 8, .rw⟩, ⟨F.PWR_SAFE_HALL, 7, 4, .rw⟩, ⟨F.PWR_SAFE_STN, 3, 0, .rw⟩]⟩,
  ⟨.PWR_CLAMP, 0x100028, 8, 1, 1, [⟨F.PWR_CLAMP_SUPPLY, 63, 63, .ro⟩, ⟨F.PWR_CLAMP_CTL, 11, 8, .rw⟩, ⟨F.PWR_CLAMP_HALL, 7, 4, .rw⟩, ⟨F.PWR_CLAMP_STN, 3, 0, .rw⟩]⟩,
  ⟨.PWR_THR, 0x100030, 8, 1, 1, [⟨F.PWR_THR_HYST, 63, 60, .rw⟩, ⟨F.PWR_THR_TRIP, 59, 48, .rw⟩, ⟨F.PWR_THR_ALERT, 43, 32, .rw⟩, ⟨F.PWR_THR_HOT, 27, 16, .rw⟩, ⟨F.PWR_THR_WARM, 11, 0, .rw⟩]⟩,
  ⟨.PWR_CAP, 0x100040, 8, 1, 1, [⟨F.PWR_CAP_ZONES, 63, 56, .ro⟩, ⟨F.PWR_CAP_SENSORS, 55, 48, .ro⟩, ⟨F.PWR_CAP_EXT, 47, 40, .ro⟩, ⟨F.PWR_CAP_LEVELS, 39, 32, .ro⟩, ⟨F.PWR_CAP_NDOM, 31, 16, .ro⟩]⟩,
  ⟨.PWR_CFG, 0x100048, 8, 1, 1, [⟨F.PWR_CFG_DOWNSLEW, 63, 63, .rw⟩, ⟨F.PWR_CFG_PHRET, 62, 62, .rw⟩, ⟨F.PWR_CFG_GATE, 47, 32, .rw⟩, ⟨F.PWR_CFG_DOMTMO, 31, 16, .rw⟩, ⟨F.PWR_CFG_SLEW, 9, 0, .rw⟩]⟩,
  ⟨.PWR_CEIL, 0x100050, 8, 1, 1, [⟨F.PWR_CEIL_EFFECTIVE, 63, 48, .ro⟩, ⟨F.PWR_CEIL_PPORT, 47, 32, .ro⟩, ⟨F.PWR_CEIL_COMMITTED, 31, 16, .ro⟩, ⟨F.PWR_CEIL_LIMIT, 15, 0, .rw⟩]⟩,
  ⟨.PWR_STAT, 0x100058, 8, 1, 1, [⟨F.PWR_STAT_FASTDROP, 63, 48, .ro⟩, ⟨F.PWR_STAT_OVER, 47, 32, .ro⟩, ⟨F.PWR_STAT_FALLBACK, 31, 31, .ro⟩, ⟨F.PWR_STAT_FCSTVALID, 30, 30, .ro⟩, ⟨F.PWR_STAT_SHAREHOLD, 29, 29, .ro⟩, ⟨F.PWR_STAT_EFFSLEW, 9, 0, .ro⟩]⟩,
  ⟨.PWR_EST, 0x100060, 8, 1, 1, [⟨F.PWR_EST_ENVELOPE, 63, 48, .ro⟩, ⟨F.PWR_EST_P10US, 47, 32, .ro⟩, ⟨F.PWR_EST_P1MS, 31, 16, .ro⟩]⟩,
  ⟨.PWR_ENERGY, 0x100068, 8, 1, 1, [⟨F.PWR_ENERGY_UJ, 63, 0, .ro⟩]⟩,
  ⟨.PWR_UNATTR, 0x100070, 8, 1, 1, [⟨F.PWR_UNATTR_UJ, 63, 0, .ro⟩]⟩,
  ⟨.PWR_ISL, 0x100100, 8, 89, 1, [⟨F.PWR_ISL_REQ, 63, 60, .ro⟩, ⟨F.PWR_ISL_THERM, 59, 56, .ro⟩, ⟨F.PWR_ISL_GOV, 55, 52, .ro⟩, ⟨F.PWR_ISL_CLAMPED, 51, 51, .ro⟩, ⟨F.PWR_ISL_GATED, 50, 50, .ro⟩, ⟨F.PWR_ISL_FLOOR, 47, 44, .rw⟩, ⟨F.PWR_ISL_MAXL, 43, 40, .rw⟩]⟩,
  ⟨.PWR_CPOL, 0x100400, 8, 64, 1, [⟨F.PWR_CPOL_DRET, 1, 1, .rw⟩, ⟨F.PWR_CPOL_NRET, 0, 0, .rw⟩]⟩,
  ⟨.PWR_SENS, 0x100600, 8, 80, 1, [⟨F.PWR_SENS_VALID, 63, 63, .ro⟩, ⟨F.PWR_SENS_STATE, 62, 60, .ro⟩, ⟨F.PWR_SENS_ISLAND, 59, 53, .ro⟩, ⟨F.PWR_SENS_ZONE, 52, 48, .ro⟩, ⟨F.PWR_SENS_TEMP, 11, 0, .ro⟩]⟩,
  ⟨.PWR_EXTCFG, 0x100900, 8, 16, 1, [⟨F.PWR_EXTCFG_EN, 63, 63, .rw⟩, ⟨F.PWR_EXTCFG_STATES, 62, 62, .rw⟩, ⟨F.PWR_EXTCFG_PORTEN, 61, 61, .rw⟩, ⟨F.PWR_EXTCFG_PORT, 60, 56, .rw⟩, ⟨F.PWR_EXTCFG_ZONE, 55, 51, .rw⟩, ⟨F.PWR_EXTCFG_KIND, 50, 48, .rw⟩, ⟨F.PWR_EXTCFG_TRIP, 47, 36, .rw⟩, ⟨F.PWR_EXTCFG_ALERT, 35, 24, .rw⟩, ⟨F.PWR_EXTCFG_HOT, 23, 12, .rw⟩, ⟨F.PWR_EXTCFG_WARM, 11, 0, .rw⟩]⟩,
  ⟨.PWR_ZONE, 0x100a00, 8, 32, 1, [⟨F.PWR_ZONE_STATE, 63, 61, .ro⟩, ⟨F.PWR_ZONE_CLAMPED, 60, 60, .ro⟩, ⟨F.PWR_ZONE_NOSENSE, 59, 59, .ro⟩, ⟨F.PWR_ZONE_CAP, 58, 55, .ro⟩, ⟨F.PWR_ZONE_PRED, 11, 0, .ro⟩]⟩,
  ⟨.PWR_ZMODEL_W0, 0x100c00, 32, 32, 1, [⟨F.PWR_ZMODEL_RJPRPKRKCRCOOL, 63, 0, .rw⟩]⟩,
  ⟨.PWR_ZMODEL_W1, 0x100c08, 32, 32, 1, [⟨F.PWR_ZMODEL_CJCPCKCC, 63, 0, .rw⟩]⟩,
  ⟨.PWR_ZMODEL_W2, 0x100c10, 32, 32, 1, [⟨F.PWR_ZMODEL_HORIZON, 31, 16, .rw⟩, ⟨F.PWR_ZMODEL_GAIN, 7, 0, .rw⟩]⟩,
  ⟨.PWR_ZMODEL_W3, 0x100c18, 32, 32, 1, []⟩,
  ⟨.PWR_FCST, 0x101000, 8, 16, 1, [⟨F.PWR_FCST_SEQ, 63, 48, .ro⟩, ⟨F.PWR_FCST_UPPER, 31, 16, .ro⟩, ⟨F.PWR_FCST_EXPECT, 15, 0, .ro⟩]⟩,
  ⟨.PWR_DOM, 0x102000, 8, 2048, 1, [⟨F.PWR_DOM_REQ, 63, 62, .ro⟩, ⟨F.PWR_DOM_STATE, 61, 60, .ro⟩, ⟨F.PWR_DOM_FAILED, 59, 59, .w1c⟩]⟩]

/-- The registers of block FW. -/
def regsFW : List RegRow := [
  ⟨.FW_CAP, 0x110000, 8, 1, 1, [⟨F.FW_CAP_ABI, 63, 60, .ro⟩, ⟨F.FW_CAP_NCORES, 59, 56, .ro⟩, ⟨F.FW_CAP_VAULTKIB, 55, 40, .ro⟩, ⟨F.FW_CAP_SLOTKIB, 39, 24, .ro⟩, ⟨F.FW_CAP_COREKIB, 23, 8, .ro⟩]⟩,
  ⟨.FW_BOOT, 0x110008, 8, 1, 1, [⟨F.FW_BOOT_SLOT, 1, 1, .rw⟩, ⟨F.FW_BOOT_GO, 0, 0, .w1s⟩]⟩,
  ⟨.FW_STAT, 0x110010, 8, 1, 1, [⟨F.FW_STAT_STATE, 63, 61, .ro⟩, ⟨F.FW_STAT_VAULTREADY, 60, 60, .ro⟩, ⟨F.FW_STAT_ACTIVESLOT, 59, 59, .ro⟩, ⟨F.FW_STAT_REJECT, 58, 55, .ro⟩, ⟨F.FW_STAT_FLOOR, 54, 48, .ro⟩, ⟨F.FW_STAT_IMAGERB, 47, 40, .ro⟩, ⟨F.FW_STAT_EDITION, 31, 0, .ro⟩]⟩,
  ⟨.FW_VAULT_ADDR, 0x110018, 8, 1, 1, [⟨F.FW_VAULT_ADDR_ERR, 63, 63, .w1c⟩, ⟨F.FW_VAULT_ADDR_AUTOINC, 62, 62, .rw⟩, ⟨F.FW_VAULT_ADDR_ADDR, 21, 3, .rw⟩]⟩,
  ⟨.FW_VAULT_DATA, 0x110020, 8, 1, 1, [⟨F.FW_VAULT_DATA_DATA, 63, 0, .rw⟩]⟩,
  ⟨.FW_UPDATE, 0x110028, 8, 1, 1, [⟨F.FW_UPDATE_STATE, 63, 61, .ro⟩, ⟨F.FW_UPDATE_DEFER, 60, 58, .ro⟩, ⟨F.FW_UPDATE_REJECT, 57, 54, .ro⟩, ⟨F.FW_UPDATE_CMD, 3, 0, .wo⟩]⟩,
  ⟨.FW_STAGED, 0x110030, 8, 1, 1, [⟨F.FW_STAGED_EDITION, 31, 0, .ro⟩]⟩,
  ⟨.FW_WDT, 0x110038, 8, 1, 1, [⟨F.FW_WDT_PERIOD, 31, 0, .rw⟩]⟩,
  ⟨.FW_DIGEST, 0x110040, 8, 6, 1, [⟨F.FW_DIGEST_DIGEST, 63, 0, .ro⟩]⟩,
  ⟨.FW_LOG_BASE, 0x110070, 8, 1, 1, [⟨F.FW_LOG_BASE_BASE, 55, 12, .rw⟩]⟩,
  ⟨.FW_LOG_CFG, 0x110078, 8, 1, 1, [⟨F.FW_LOG_CFG_EN, 63, 63, .rw⟩, ⟨F.FW_LOG_CFG_IRQ, 62, 62, .rw⟩, ⟨F.FW_LOG_CFG_CORES, 61, 56, .rw⟩, ⟨F.FW_LOG_CFG_LEVEL, 55, 54, .rw⟩, ⟨F.FW_LOG_CFG_LOG2, 4, 0, .rw⟩]⟩,
  ⟨.FW_LOG_POS, 0x110080, 8, 1, 1, [⟨F.FW_LOG_POS_POS, 31, 0, .ro⟩]⟩,
  ⟨.FW_LOG_HEAD, 0x110088, 8, 1, 1, [⟨F.FW_LOG_HEAD_HEAD, 31, 0, .rw⟩]⟩,
  ⟨.FW_LOG_DROP, 0x110090, 8, 1, 1, [⟨F.FW_LOG_DROP_DROPPED, 31, 0, .rw⟩]⟩,
  ⟨.FW_CORE, 0x110100, 8, 6, 1, [⟨F.FW_CORE_STATE, 63, 61, .ro⟩, ⟨F.FW_CORE_CAUSE, 60, 58, .ro⟩, ⟨F.FW_CORE_RESTARTS, 47, 32, .ro⟩]⟩]

/-- The registers of block PRT. -/
def regsPRT : List RegRow := [
  ⟨.PRT_CTL, 0x120000, 1024, 64, 1, [⟨F.PRT_CTL_CMD, 3, 0, .wo⟩]⟩,
  ⟨.PRT_STAT, 0x120008, 1024, 64, 1, [⟨F.PRT_STAT_STATE, 63, 62, .ro⟩, ⟨F.PRT_STAT_ABORT, 61, 61, .ro⟩, ⟨F.PRT_STAT_STEP, 60, 58, .ro⟩, ⟨F.PRT_STAT_REFUSE, 57, 54, .ro⟩, ⟨F.PRT_STAT_NQ, 44, 32, .ro⟩, ⟨F.PRT_STAT_DISABLES, 31, 0, .ro⟩]⟩,
  ⟨.PRT_CFG, 0x120010, 1024, 64, 1, [⟨F.PRT_CFG_DRAINLIM, 31, 0, .rw⟩]⟩,
  ⟨.PRT_MBOX_CTL, 0x120018, 1024, 64, 1, [⟨F.PRT_MBOX_CTL_STATE, 63, 61, .ro⟩, ⟨F.PRT_MBOX_CTL_CMD, 3, 0, .wo⟩]⟩,
  ⟨.PRT_MBOX_REQ, 0x120040, 1024, 64, 8, [⟨F.PRT_MBOX_REQ_WORD, 63, 0, .ro⟩]⟩,
  ⟨.PRT_MBOX_RSP, 0x120080, 1024, 64, 8, [⟨F.PRT_MBOX_RSP_WORD, 63, 0, .rw⟩]⟩,
  ⟨.PRT_DONE, 0x1203f0, 1024, 64, 1, [⟨F.PRT_DONE_DONE, 63, 0, .w1c⟩]⟩,
  ⟨.PRT_PEND, 0x1203f8, 1024, 64, 1, [⟨F.PRT_PEND_PEND, 63, 0, .ro⟩]⟩]

/-- The registers of block OBS. -/
def regsOBS : List RegRow := [
  ⟨.OBS_CAP, 0x130000, 8, 1, 1, [⟨F.OBS_CAP_LBFMT, 63, 56, .ro⟩, ⟨F.OBS_CAP_STAGEK, 55, 40, .ro⟩, ⟨F.OBS_CAP_MINLOG2, 39, 32, .ro⟩, ⟨F.OBS_CAP_MAXLOG2, 31, 24, .ro⟩, ⟨F.OBS_CAP_TRCFIFO, 23, 8, .ro⟩]⟩,
  ⟨.OBS_CFG, 0x130008, 8, 1, 1, [⟨F.OBS_CFG_OPENLAB, 63, 63, .ro⟩]⟩,
  ⟨.OBS_PLC_SEL, 0x130010, 8, 1, 1, [⟨F.OBS_PLC_SEL_KIND, 10, 8, .rw⟩, ⟨F.OBS_PLC_SEL_INDEX, 7, 0, .rw⟩]⟩,
  ⟨.OBS_PLC_TIME, 0x130018, 8, 1, 1, [⟨F.OBS_PLC_TIME_NS, 63, 0, .ro⟩]⟩,
  ⟨.OBS_PLC_BYTES, 0x130020, 8, 1, 1, [⟨F.OBS_PLC_BYTES_BYTES, 63, 0, .ro⟩]⟩,
  ⟨.OBS_PLC_ENERGY, 0x130028, 8, 1, 1, [⟨F.OBS_PLC_ENERGY_UJ, 63, 0, .ro⟩]⟩,
  ⟨.OBS_ENG_BUSY, 0x130100, 8, 32, 1, [⟨F.OBS_ENG_BUSY_NS, 63, 0, .ro⟩]⟩,
  ⟨.OBS_STN_BUSY, 0x130200, 8, 64, 1, [⟨F.OBS_STN_BUSY_NS, 63, 0, .ro⟩]⟩,
  ⟨.OBS_HALL_SLOTS, 0x130400, 8, 64, 1, [⟨F.OBS_HALL_SLOTS_SLOTS, 63, 0, .ro⟩]⟩,
  ⟨.OBS_LB_BASE, 0x130800, 8, 1, 1, [⟨F.OBS_LB_BASE_BASE, 55, 12, .rw⟩]⟩,
  ⟨.OBS_LB_CFG, 0x130808, 8, 1, 1, [⟨F.OBS_LB_CFG_EN, 63, 63, .rw⟩, ⟨F.OBS_LB_CFG_IRQ, 62, 62, .rw⟩, ⟨F.OBS_LB_CFG_HOLD, 61, 61, .rw⟩, ⟨F.OBS_LB_CFG_GMODE, 60, 59, .rw⟩, ⟨F.OBS_LB_CFG_LOG2, 4, 0, .rw⟩]⟩,
  ⟨.OBS_LB_POS, 0x130810, 8, 1, 1, [⟨F.OBS_LB_POS_POS, 31, 0, .ro⟩]⟩,
  ⟨.OBS_LB_HEAD, 0x130818, 8, 1, 1, [⟨F.OBS_LB_HEAD_HEAD, 31, 0, .rw⟩]⟩,
  ⟨.OBS_LB_STAT, 0x130820, 8, 1, 1, [⟨F.OBS_LB_STAT_DROPPED, 63, 32, .rw⟩, ⟨F.OBS_LB_STAT_CORR, 31, 17, .ro⟩, ⟨F.OBS_LB_STAT_STAGED, 16, 0, .ro⟩]⟩,
  ⟨.OBS_LB_SEQ, 0x130828, 8, 1, 1, [⟨F.OBS_LB_SEQ_SEQ, 31, 0, .ro⟩]⟩,
  ⟨.OBS_LB_MODE, 0x130830, 8, 2, 1, [⟨F.OBS_LB_MODE_MODES, 63, 0, .rw⟩]⟩,
  ⟨.OBS_RP_BASE, 0x130900, 8, 1, 1, [⟨F.OBS_RP_BASE_BASE, 55, 12, .rw⟩]⟩,
  ⟨.OBS_RP_LEN, 0x130908, 8, 1, 1, [⟨F.OBS_RP_LEN_RECORDS, 31, 0, .rw⟩]⟩,
  ⟨.OBS_RP_PARTS, 0x130910, 8, 1, 1, [⟨F.OBS_RP_PARTS_PARTS, 63, 0, .rw⟩]⟩,
  ⟨.OBS_RP_CFG, 0x130918, 8, 1, 1, [⟨F.OBS_RP_CFG_INPUTS, 63, 63, .rw⟩, ⟨F.OBS_RP_CFG_WAIT, 31, 0, .rw⟩]⟩,
  ⟨.OBS_RP_CTL, 0x130920, 8, 1, 1, [⟨F.OBS_RP_CTL_CMD, 3, 0, .wo⟩]⟩,
  ⟨.OBS_RP_STAT, 0x130928, 8, 1, 1, [⟨F.OBS_RP_STAT_STATE, 63, 61, .ro⟩, ⟨F.OBS_RP_STAT_CAUSE, 60, 57, .ro⟩, ⟨F.OBS_RP_STAT_USED, 31, 0, .ro⟩]⟩,
  ⟨.OBS_RP_DIV0, 0x130930, 8, 1, 1, [⟨F.OBS_RP_DIV0_SEQ, 63, 32, .ro⟩, ⟨F.OBS_RP_DIV0_QUEUE, 31, 20, .ro⟩, ⟨F.OBS_RP_DIV0_KIND, 19, 13, .ro⟩]⟩,
  ⟨.OBS_RP_DIV1, 0x130938, 8, 1, 1, [⟨F.OBS_RP_DIV1_SQCOUNT, 63, 32, .ro⟩, ⟨F.OBS_RP_DIV1_ORDINAL, 31, 12, .ro⟩]⟩,
  ⟨.OBS_TRC_CFG, 0x130a00, 8, 1, 1, [⟨F.OBS_TRC_CFG_EN, 63, 63, .rw⟩, ⟨F.OBS_TRC_CFG_LB, 62, 62, .rw⟩, ⟨F.OBS_TRC_CFG_PM, 61, 61, .rw⟩, ⟨F.OBS_TRC_CFG_CNT, 60, 60, .rw⟩, ⟨F.OBS_TRC_CFG_SET, 59, 52, .rw⟩, ⟨F.OBS_TRC_CFG_PERIOD, 31, 0, .rw⟩]⟩,
  ⟨.OBS_TRC_PMASK, 0x130a08, 8, 1, 1, [⟨F.OBS_TRC_PMASK_PARTS, 63, 0, .rw⟩]⟩,
  ⟨.OBS_TRC_STAT, 0x130a10, 8, 1, 1, [⟨F.OBS_TRC_STAT_DROPPED, 63, 32, .rw⟩, ⟨F.OBS_TRC_STAT_ITEMS, 31, 0, .ro⟩]⟩]

/-- The registers of block CMT. -/
def regsCMT : List RegRow := [
  ⟨.CMT_CAP, 0x140000, 8, 1, 1, [⟨F.CMT_CAP_OTPBYTES, 63, 32, .ro⟩, ⟨F.CMT_CAP_SLOTS, 31, 16, .ro⟩, ⟨F.CMT_CAP_USED, 15, 0, .ro⟩]⟩,
  ⟨.CMT_ARM, 0x140008, 8, 1, 1, [⟨F.CMT_ARM_SETTING, 63, 60, .rw⟩, ⟨F.CMT_ARM_LINK, 59, 57, .rw⟩, ⟨F.CMT_ARM_FORV, 56, 56, .rw⟩, ⟨F.CMT_ARM_FOR, 55, 50, .rw⟩, ⟨F.CMT_ARM_VALUE, 23, 0, .rw⟩]⟩,
  ⟨.CMT_COMMIT, 0x140010, 8, 1, 1, [⟨F.CMT_COMMIT_SETTING, 63, 60, .wo⟩, ⟨F.CMT_COMMIT_LINK, 59, 57, .wo⟩, ⟨F.CMT_COMMIT_FORV, 56, 56, .wo⟩, ⟨F.CMT_COMMIT_FOR, 55, 50, .wo⟩, ⟨F.CMT_COMMIT_VALUE, 23, 0, .wo⟩]⟩,
  ⟨.CMT_STAT, 0x140018, 8, 1, 1, [⟨F.CMT_STAT_STATE, 63, 62, .ro⟩, ⟨F.CMT_STAT_DONE, 61, 61, .w1c⟩, ⟨F.CMT_STAT_CAUSE, 60, 57, .ro⟩]⟩,
  ⟨.CMT_UID, 0x140020, 8, 1, 1, [⟨F.CMT_UID_UID, 63, 0, .ro⟩]⟩,
  ⟨.CMT_VAL, 0x140040, 8, 8, 1, [⟨F.CMT_VAL_COUNT, 63, 56, .ro⟩, ⟨F.CMT_VAL_VALUE, 23, 0, .ro⟩]⟩,
  ⟨.CMT_LINK, 0x140100, 8, 6, 1, [⟨F.CMT_LINK_REPAIRS, 63, 60, .ro⟩, ⟨F.CMT_LINK_LOCK, 23, 0, .ro⟩]⟩,
  ⟨.CMT_LREP, 0x140140, 8, 6, 1, []⟩,
  ⟨.CMT_LOGSEL, 0x140180, 8, 1, 1, [⟨F.CMT_LOGSEL_SLOT, 15, 0, .rw⟩]⟩,
  ⟨.CMT_LOG, 0x140188, 8, 2, 1, [⟨F.CMT_LOG_WORD, 63, 0, .ro⟩]⟩,
  ⟨.CMT_CHAL, 0x140200, 8, 4, 1, [⟨F.CMT_CHAL_WORD, 63, 0, .ro⟩]⟩,
  ⟨.CMT_TOKEN, 0x140300, 8, 32, 1, [⟨F.CMT_TOKEN_WORD, 63, 0, .rw⟩]⟩]

/-- The registers of block PW. -/
def regsPW : List RegRow := [
  ⟨.PH_PW_SEL, 0x100f000, 65536, 64, 1, [⟨F.PH_PW_SEL_PH, 20, 0, .rw⟩]⟩,
  ⟨.PH_PW_VALUE, 0x100f008, 65536, 64, 1, [⟨F.PH_PW_VALUE_VALUE, 63, 0, .ro⟩]⟩,
  ⟨.PH_PW_POLL, 0x100f010, 65536, 64, 1, [⟨F.PH_PW_POLL_INTERVAL, 9, 0, .rw⟩]⟩,
  ⟨.PH_PW_CYCLE, 0x100f018, 65536, 64, 1, [⟨F.PH_PW_CYCLE_COUNT, 63, 48, .ro⟩, ⟨F.PH_PW_CYCLE_LEN, 44, 32, .ro⟩]⟩,
  ⟨.PH_PW_USE, 0x100f020, 65536, 64, 1, [⟨F.PH_PW_USE_WUSED, 49, 32, .ro⟩, ⟨F.PH_PW_USE_WQUOTA, 17, 0, .ro⟩]⟩,
  ⟨.SCH_PW_ENG_NS, 0x100f100, 65536, 64, 1, [⟨F.SCH_PW_ENG_NS_COUNT, 63, 0, .ro⟩]⟩,
  ⟨.SCH_PW_STN_NS, 0x100f108, 65536, 64, 1, [⟨F.SCH_PW_STN_NS_COUNT, 63, 0, .ro⟩]⟩,
  ⟨.SCH_PW_BYTES, 0x100f110, 65536, 64, 1, [⟨F.SCH_PW_BYTES_COUNT, 63, 0, .ro⟩]⟩,
  ⟨.SCH_PW_ENERGY_UJ, 0x100f118, 65536, 64, 1, [⟨F.SCH_PW_ENERGY_UJ_COUNT, 63, 0, .ro⟩]⟩,
  ⟨.SCH_PW_BAL, 0x100f120, 65536, 64, 1, [⟨F.SCH_PW_BAL_BALANCE, 63, 0, .ro⟩]⟩,
  ⟨.GAL_PW_ADDR, 0x100f200, 65536, 64, 1, [⟨F.GAL_PW_ADDR_ERR, 63, 63, .w1c⟩, ⟨F.GAL_PW_ADDR_AUTOINC, 62, 62, .rw⟩, ⟨F.GAL_PW_ADDR_ADDR, 28, 3, .rw⟩]⟩,
  ⟨.GAL_PW_DATA, 0x100f208, 65536, 64, 1, [⟨F.GAL_PW_DATA_DATA, 63, 0, .rw⟩]⟩,
  ⟨.GAL_PW_DROP_SEL, 0x100f210, 65536, 64, 1, [⟨F.GAL_PW_DROP_SEL_WIN, 7, 0, .rw⟩]⟩,
  ⟨.GAL_PW_DROP_RANGE, 0x100f218, 65536, 64, 1, [⟨F.GAL_PW_DROP_RANGE_LINES, 63, 44, .rw⟩, ⟨F.GAL_PW_DROP_RANGE_BASE, 28, 9, .rw⟩]⟩,
  ⟨.GAL_PW_DROP_CTL, 0x100f220, 65536, 64, 1, [⟨F.GAL_PW_DROP_CTL_OPEN, 63, 63, .rw⟩, ⟨F.GAL_PW_DROP_CTL_UNIT, 62, 62, .rw⟩, ⟨F.GAL_PW_DROP_CTL_COURIER, 61, 61, .rw⟩, ⟨F.GAL_PW_DROP_CTL_SETTLED, 60, 60, .ro⟩, ⟨F.GAL_PW_DROP_CTL_ERRC, 59, 56, .ro⟩, ⟨F.GAL_PW_DROP_CTL_SRCCHIPS, 47, 32, .rw⟩, ⟨F.GAL_PW_DROP_CTL_COUNTER, 11, 0, .rw⟩]⟩,
  ⟨.GAL_PW_FRANK_SEL, 0x100f228, 65536, 64, 1, [⟨F.GAL_PW_FRANK_SEL_COUNTER, 11, 0, .rw⟩]⟩,
  ⟨.GAL_PW_FRANK_VAL, 0x100f230, 65536, 64, 1, [⟨F.GAL_PW_FRANK_VAL_VALUE, 63, 0, .ro⟩]⟩,
  ⟨.XLT_PW_RESUME, 0x100f300, 65536, 64, 1, [⟨F.XLT_PW_RESUME_ACTION, 63, 62, .wo⟩, ⟨F.XLT_PW_RESUME_QUEUE, 11, 0, .wo⟩]⟩,
  ⟨.XLT_PW_INV_CTL, 0x100f308, 65536, 64, 1, [⟨F.XLT_PW_INV_CTL_GO, 63, 63, .w1s⟩, ⟨F.XLT_PW_INV_CTL_BUSY, 62, 62, .ro⟩, ⟨F.XLT_PW_INV_CTL_ERR, 61, 61, .w1c⟩, ⟨F.XLT_PW_INV_CTL_SCOPE, 17, 16, .rw⟩, ⟨F.XLT_PW_INV_CTL_SEG, 15, 10, .rw⟩, ⟨F.XLT_PW_INV_CTL_CTX, 9, 0, .rw⟩]⟩,
  ⟨.XLT_PW_INV_START, 0x100f310, 65536, 64, 1, [⟨F.XLT_PW_INV_START_START, 63, 0, .rw⟩]⟩,
  ⟨.XLT_PW_INV_LEN, 0x100f318, 65536, 64, 1, [⟨F.XLT_PW_INV_LEN_LENGTH, 63, 0, .rw⟩]⟩,
  ⟨.XLT_PW_INV_DONE, 0x100f320, 65536, 64, 1, [⟨F.XLT_PW_INV_DONE_COUNT, 31, 0, .ro⟩]⟩,
  ⟨.XLT_PW_PFCOUNT, 0x100f328, 65536, 64, 1, [⟨F.XLT_PW_PFCOUNT_SETASIDE, 12, 0, .ro⟩]⟩,
  ⟨.FLT_PW_POS, 0x100f500, 65536, 64, 1, [⟨F.FLT_PW_POS_POS, 31, 0, .ro⟩]⟩,
  ⟨.FLT_PW_HEAD, 0x100f508, 65536, 64, 1, [⟨F.FLT_PW_HEAD_HEAD, 31, 0, .rw⟩]⟩,
  ⟨.FLT_PW_DEAD, 0x100f510, 65536, 64, 1, [⟨F.FLT_PW_DEAD_DEAD, 31, 0, .rw⟩]⟩,
  ⟨.FLT_PW_LATCH, 0x100f518, 65536, 64, 1, []⟩,
  ⟨.FLT_PW_OVF, 0x100f540, 65536, 64, 8, [⟨F.FLT_PW_OVF_RECORD, 63, 0, .ro⟩]⟩,
  ⟨.OBS_PW_CTL, 0x100f600, 65536, 64, 1, [⟨F.OBS_PW_CTL_VIEW, 6, 0, .rw⟩]⟩,
  ⟨.OBS_PW_STAT, 0x100f608, 65536, 64, 1, [⟨F.OBS_PW_STAT_OPENLAB, 63, 63, .ro⟩, ⟨F.OBS_PW_STAT_LBMODE, 62, 61, .ro⟩, ⟨F.OBS_PW_STAT_RPSTATE, 60, 58, .ro⟩]⟩,
  ⟨.OBS_PW_ERR, 0x100f610, 65536, 64, 1, [⟨F.OBS_PW_ERR_CONTAINED, 63, 32, .ro⟩, ⟨F.OBS_PW_ERR_CORRECTED, 31, 0, .ro⟩]⟩,
  ⟨.OBS_PW_PLC_SEL, 0x100f618, 65536, 64, 1, [⟨F.OBS_PW_PLC_SEL_KIND, 10, 8, .rw⟩, ⟨F.OBS_PW_PLC_SEL_INDEX, 7, 0, .rw⟩]⟩,
  ⟨.OBS_PW_PLC_TIME, 0x100f620, 65536, 64, 1, [⟨F.OBS_PW_PLC_TIME_NS, 63, 0, .ro⟩]⟩,
  ⟨.OBS_PW_PLC_BYTES, 0x100f628, 65536, 64, 1, [⟨F.OBS_PW_PLC_BYTES_BYTES, 63, 0, .ro⟩]⟩,
  ⟨.OBS_PW_PLC_ENERGY, 0x100f630, 65536, 64, 1, [⟨F.OBS_PW_PLC_ENERGY_UJ, 63, 0, .ro⟩]⟩,
  ⟨.OBS_PW_TRC, 0x100f638, 65536, 64, 1, [⟨F.OBS_PW_TRC_CFG, 63, 0, .rw⟩]⟩,
  ⟨.OBS_PW_ENG, 0x100f700, 65536, 64, 32, [⟨F.OBS_PW_ENG_NS, 63, 0, .ro⟩]⟩,
  ⟨.OBS_PW_STN, 0x100f800, 65536, 64, 64, [⟨F.OBS_PW_STN_NS, 63, 0, .ro⟩]⟩,
  ⟨.OBS_PW_HALL, 0x100fa00, 65536, 64, 64, [⟨F.OBS_PW_HALL_SLOTS, 63, 0, .ro⟩]⟩,
  ⟨.PRT_PW_STAT, 0x100fc00, 65536, 64, 1, [⟨F.PRT_PW_STAT_STATE, 63, 62, .ro⟩, ⟨F.PRT_PW_STAT_ABORT, 61, 61, .ro⟩, ⟨F.PRT_PW_STAT_STEP, 60, 58, .ro⟩, ⟨F.PRT_PW_STAT_PART, 57, 52, .ro⟩, ⟨F.PRT_PW_STAT_MBOX, 51, 49, .ro⟩]⟩,
  ⟨.PRT_PW_MBOX_CTL, 0x100fc08, 65536, 64, 1, [⟨F.PRT_PW_MBOX_CTL_STATE, 63, 61, .ro⟩, ⟨F.PRT_PW_MBOX_CTL_CMD, 3, 0, .wo⟩]⟩,
  ⟨.PRT_PW_MBOX_REQ, 0x100fc40, 65536, 64, 8, [⟨F.PRT_MBOX_REQ_WORD, 63, 0, .rw⟩]⟩,
  ⟨.PRT_PW_MBOX_RSP, 0x100fc80, 65536, 64, 8, [⟨F.PRT_MBOX_RSP_WORD, 63, 0, .ro⟩]⟩,
  ⟨.ECH_PW_STAT, 0x100f400, 65536, 64, 1, [⟨F.ECH_PW_STAT_MODE, 63, 62, .ro⟩, ⟨F.ECH_PW_STAT_ROLE, 61, 59, .ro⟩, ⟨F.ECH_PW_STAT_MIRRORED, 58, 58, .ro⟩]⟩]

/-- Every row of the register map. -/
def regRows : List RegRow :=
  regsINT ++ regsQE ++ regsPH ++ regsSCH ++ regsGAL ++ regsSTN ++ regsXLT ++ regsFAB ++ regsECH ++ regsFLT ++ regsPWR ++ regsFW ++ regsPRT ++ regsOBS ++ regsCMT ++ regsPW

end Sys2Proof.Machine
end

