-- ==== Sys2Proof/Machine/EchoOps.lean ====
section
/-! DEFINITION. Echo pairs (spec/12): the echo port, pairing, mirroring, checkpoints, takeover, comparison. -/

namespace Sys2Proof.Machine

def setEch (s : State) (e : Echo) : State := { s with ech := e }

/-- Records a pair's cause (ECH_ERR). -/
def echErr (s : State) (c : Nat) : State := s.setF F.ECH_ERR_CAUSE 0 c

/-- Changes PAIR or ROLE, each with its interrupt (spec/18 R479). -/
def setPair (s : State) (v : Nat) : State := if s.f F.ECH_STAT_PAIR = v then s else (s.setF F.ECH_STAT_PAIR 0 v).irqG 7
def setRole (s : State) (v : Nat) : State := if s.f F.ECH_STAT_ROLE = v then s else (s.setF F.ECH_STAT_ROLE 0 v).irqG 7

/-- The TIEBREAK input. -/
def tieb (s : State) : Bool := s.fb F.ECH_STAT_TIEBREAK

/-- The mirrored queues. -/
def mirQueues (s : State) : List Nat := (s.setIdx F.QE_QCFG_MIRRORED)

/-- The mirrored partitions. -/
def mirParts (s : State) : List Nat := (List.range 64).filter (s.mirPart ·)

/-! ### The port (spec/12 R330) -/

/-- Bytes of a record (spec/12 R337). -/
def ERec.bytes : ERec → Nat
  | .qstate .. => 528 | .line .. => 528 | .heartbeat .. => 16 | .retire .. => 16 | .decision .. => 48 | _ => 32

/-- The two words that name an edition in a record. -/
def edWords (k : Option EdKey) (pc : Nat) : List Nat :=
  match k with
  | some k => [2 ^ 63 + k.part * 2 ^ 50 + k.parcel * 2 ^ 32 + pc, k.gen * 2 ^ 32 + k.ed]
  | none => [pc, 0]

/-- The words of a record: its kind in the top byte of the first. R337 gives the contents and the length, not the places of the bits (log 31). -/
def ERec.words : ERec → List Nat
  | .ident i e c tb sec => [1 * 2 ^ 56 + tb.toNat * 2 ^ 55 + sec.toNat * 2 ^ 54 + e, i, c]
  | .heartbeat m r tb ok => [2 * 2 ^ 56 + m * 2 ^ 54 + r * 2 ^ 51 + tb.toNat * 2 ^ 50 + ok.toNat * 2 ^ 49]
  | .qstate q st pe sq cq hd p pc ep g loc stk =>
    [3 * 2 ^ 56 + q * 2 ^ 44 + st * 2 ^ 41 + pe.toNat * 2 ^ 40 + p * 2 ^ 32 + ep, sq * 2 ^ 32 + cq, hd] ++ (List.range 32).map (fun i => (mget 0 g i).toNat)
      ++ edWords loc pc ++ stk.flatMap fun x => edWords x.loc x.pc
  | .phval n v => [4 * 2 ^ 56 + n, v.toNat]
  | .fkval n v => [5 * 2 ^ 56 + n, v.toNat]
  | .line a _ full => [6 * 2 ^ 56 + full.toNat * 2 ^ 55 + a, 0]
  | .parcel p n gen ed dram a len fr => [7 * 2 ^ 56 + dram.toNat * 2 ^ 55 + fr.toNat * 2 ^ 54 + p * 2 ^ 44 + n * 2 ^ 32 + ed, gen, a, len]
  | .sealreg r b sz m => [8 * 2 ^ 56 + r, b, sz, m]
  | .hinge q sq ord st res pc =>
    [9 * 2 ^ 56 + st * 2 ^ 48 + q * 2 ^ 36 + ord, sq + pc.isSome.toNat * 2 ^ 63 + (pc.getD (0, 0)).1 * 2 ^ 32, res.toNat, (pc.getD (0, 0)).2]
  | .decision _ => [10 * 2 ^ 56, 0]
  | .hostwr q h => [11 * 2 ^ 56 + h.isSome.toNat * 2 ^ 55 + q, h.getD 0]
  | .retire q sq ord => [12 * 2 ^ 56 + q * 2 ^ 44 + ord, sq]
  | .digest q sq ord d => [13 * 2 ^ 56 + q * 2 ^ 44 + ord, sq, d.toNat]

/-- The bytes of a record, as many as R337 gives it. -/
def ERec.enc (r : ERec) : List Byte :=
  padTo r.bytes (bytesOf (r.words.map (BitVec.ofNat 64)) ++ match r with
    | .line _ d _ => d
    | .decision ws => bytesOf ws
    | _ => [])

/-- An echo flit: its kind, SEQ, ACK, CHECK and units (spec/12 R330). -/
def echoBytes (kind seq ack : Nat) (units : List Byte) : List Byte :=
  let w := toBytes 8 (kind * 2 ^ 56 + seq % 2 ^ 24 * 2 ^ 32 + ack % 2 ^ 24 * 2 ^ 8)
  let u := padTo 240 units
  w ++ toBytes 8 (crc64 (w ++ u)) ++ u

/-- Records made: in flits acknowledged, unacknowledged or not yet sent, and those no flit holds yet. -/
def madeNo (s : State) : Nat :=
  s.ech.ackNo + (s.ech.unacked.map (·.recs)).sum + (s.ech.tx.map Prod.snd).sum + s.ech.lines.length + s.ech.made.length

/-- A PARCEL record waits until the lines of its edition have been sent (spec/12 R342). -/
def recWaits (s : State) : ERec → Bool
  | .parcel _ _ _ _ false a len false => s.ech.dirty.any fun i => overlaps (512 * i) 512 a (8 * len)
  | _ => false

/-- Cuts a stream of records into flits of 240 bytes, each with the number of records that end in it (log 31). -/
def cutRecs : Nat → List Byte → List Nat → List (List Byte × Nat)
  | 0, _, _ => []
  | n + 1, d, ends => if d = [] then [] else
      (d.take 240, (ends.filter (· ≤ 240)).length) :: cutRecs n (d.drop 240) ((ends.filter (240 < ·)).map (· - 240))

/-- The places at which records end in their stream. -/
def recEnds : Nat → List ERec → List Nat
  | _, [] => []
  | a, r :: l => (a + r.bytes) :: recEnds (a + r.bytes) l

/-- Puts the records made into flits: lines first, then the others in order, up to one that waits. -/
def packRecs (s : State) : State :=
  let now := s.ech.made.takeWhile fun r => !recWaits s r
  let l := s.ech.lines ++ now
  let d := l.flatMap ERec.enc
  setEch s { s.ech with lines := [], made := s.ech.made.drop now.length, tx := s.ech.tx ++ cutRecs (d.length / 240 + 1) d (recEnds 0 l) }

/-- Sends flits while fewer than 256 are unacknowledged (spec/12 R330). -/
def echoPump : Nat → State → State
  | 0, s => s
  | n + 1, s =>
    let e := s.ech
    match e.tx with
    | [] => s
    | x :: rest =>
      if e.portUp = false ∨ 256 ≤ e.unacked.length then s
      else
        echoPump n ((setEch s { e with tx := rest, unacked := e.unacked ++ [⟨e.txSeq, x.1, x.2, 1⟩], txSeq := (e.txSeq + 1) % 2 ^ 24, ackDue := false,
                                       lastAdv := if e.unacked = [] then s.time else e.lastAdv }).emit (.eflit (echoBytes 3 e.txSeq e.rxSeq x.1)))

/-- A flit that only acknowledges: a control flit with the next SEQ, which it does not use up (spec/12 R330; log 114). -/
def echoAck (s : State) : State :=
  let e := s.ech
  if e.ackDue ∧ e.portUp then (setEch s { e with ackDue := false }).emit (.eflit (echoBytes 2 e.txSeq e.rxSeq [])) else s

/-- A tile line can be read: its hall runs and its chambers are LIT. -/
def lineLit (s : State) (i : Nat) : Bool :=
  let h := s.hallOf (512 * i)
  s.domOn (s.b.domLogic h) && (List.range 16).all fun c => s.chamber h c == 0

/-- The mirror engine asks for the dirty lines, in requester 122's slots (spec/12 R337). -/
def flushDirty (s : State) : State :=
  if s.sends = false ∨ s.ech.portUp = false then s
  else (s.ech.dirty.filter fun i => lineLit s i && !(s.ops.any fun o => o.pur == .echo i)).foldl (init := s) fun s i =>
    s.startOp (mkOp (.echo i) ⟨0, none, true⟩ 122 .gal (512 * i) 512 false [])

/-- A dirty line has been read: it is sent with its seal bit and is dirty no more; one whose chamber has left LIT meanwhile stays dirty, one that cannot be corrected is not sent (spec/12 R337; log 116). -/
def lineRead (s : State) (i : Nat) (o : Op) : State :=
  if o.status = .chamberDark ∨ s.sends = false then s
  else
    let e := s.ech
    let s := setEch s { e with dirty := e.dirty.erase i, syncLines := e.syncLines.erase i,
                               lines := if o.status = .done then e.lines ++ [.line (512 * i) o.data (sealBit s i)] else e.lines }
    { s with qs := s.qs.map fun x => (x.1, { x.2 with doneCmds := x.2.doneCmds.map fun d => (d.1, d.2.1, d.2.2.1, d.2.2.2.erase i) }) }

/-- The echo port parks: nothing more is sent or received. -/
def parkEcho (s : State) : State := setEch s { s.ech with portUp := false }

/-- ACK has advanced past flits of ours. -/
def takeAck (s : State) (ack : Nat) : State :=
  let e := s.ech
  let base := (e.unacked.head?.map (·.seq)).getD e.txSeq
  let n := (ack + 2 ^ 24 - base) % 2 ^ 24
  if n = 0 ∨ e.unacked.length < n then s
  else
    let gone := e.unacked.take n
    setEch s { e with unacked := e.unacked.drop n, lastAdv := s.time, ackNo := e.ackNo + (gone.map (·.recs)).sum }

/-- An echo flit arrives: a control flit uses up no SEQ (spec/12 R330; log 114). -/
def echoFlit (s : State) (flit : List Byte) : State :=
  if s.ech.portUp = false ∨ flit.length ≠ 256 ∨ s.rst ≠ 0 then s
  else
    let w := (wordsOf 2 flit).getD 0 0
    let chk := (wordsOf 2 flit).getD 1 0
    let kind := fieldOf w 63 56
    if chk.toNat ≠ crc64 (flit.take 8 ++ flit.drop 16) ∨ fieldOf w 55 32 ≠ s.ech.rxSeq ∨ (kind ≠ 2 ∧ kind ≠ 3) then s.satF F.ECH_CNT_BAD 0
    else takeAck (if kind = 3 then setEch s { s.ech with rxSeq := (s.ech.rxSeq + 1) % 2 ^ 24, ackDue := true } else s) (fieldOf w 31 8)

/-- ACK has not advanced for 8 µs (spec/12 R330). -/
def echoResend (s : State) : State :=
  let e := s.ech
  if e.portUp = false ∨ e.unacked = [] ∨ s.time < e.lastAdv + 8000 then s
  else if e.unacked.any fun x => decide (16 ≤ x.sends) then
    let s := parkEcho s
    if s.f F.ECH_STAT_PAIR = 1 ∨ s.f F.ECH_STAT_PAIR = 2 then setPair s 0 else s
  else
    let s := State.satF (setEch s { e with unacked := e.unacked.map fun (x : EFlit) => { x with sends := x.sends + 1 }, lastAdv := s.time }) F.ECH_CNT_RESENT 0 e.unacked.length
    e.unacked.foldl (fun s x => s.emit (.eflit (echoBytes 3 x.seq e.rxSeq x.units))) s

/-! ### Pairing (spec/12 R334, R335) -/

/-- The fields of a register that the table names, element `i`, as one word. -/
def regWord (s : State) (name : RegName) (l : List RegRow) (i : Nat) : W64 :=
  match l.find? (·.name == name) with
  | some r => BitVec.ofNat 64 ((r.fields.map fun x => s.f x.fld i % 2 ^ (x.hi + 1 - x.lo) * 2 ^ x.lo).sum)
  | none => 0

/-- The words of the configuration digest (spec/12 R334). -/
def cfgWords (s : State) : List W64 :=
  let ps := mirParts s
  let blocks := (s.setIdx F.GAL_OWN_VALID)
  [BitVec.ofNat 64 (s.f F.ECH_PARTS_PARTS)] ++ (List.range 16).map (fun r => regWord s .ECH_GAL regsECH r)
    ++ ps.flatMap (fun p => [regWord s .PH_PART_BASE regsPH p, regWord s .PH_PART_LIMIT regsPH p, regWord s .GAL_FRANK_PART regsGAL p,
        regWord s .QE_PCL_GAL regsQE p, regWord s .QE_PCL_MEM regsQE p])
    ++ ps.flatMap (fun p => (blocks.filter fun n => s.f F.GAL_OWN_PART n == p).map fun n =>
        BitVec.ofNat 64 (n % 65536 + p * 2 ^ 16 + s.f F.GAL_OWN_CTXEN n * 2 ^ 22 + s.f F.GAL_OWN_CTX n * 2 ^ 32))
    ++ (mirQueues s).flatMap fun q => [BitVec.ofNat 64 q, regWord s .QE_QCFG regsQE q]

/-- ECH_CTL PAIR_MIRROR or PAIR_COMPARE (spec/12 R334, R335 step 1). -/
def startPair (s : State) (mode : Nat) : State :=
  if s.b.echo = false ∨ hostOk s = false ∨ (s.f F.ECH_STAT_PAIR ≠ 0 ∧ s.f F.ECH_STAT_PAIR ≠ 4) then s
  else
    let s := setPair (s.setF F.ECH_STAT_MODE 0 mode) 1
    let s := s.setF F.ECH_CFGDIG_DIGEST 0 (crc64 (bytesOf (cfgWords s)))
    setEch s { s.ech with made := [], lines := [], tx := [], unacked := [], ackDue := false, txSeq := 0, rxSeq := 0, ackNo := 0, syncNeed := none, syncLines := [],
                          syncing := false, waits := false, dirty := [], identOk := false, portUp := false, mine := [], peers := [], ckpts := [], ckPos := [], decisions := [] }

/-- Pairing stops (spec/12 R334). -/
def pairFails (s : State) : State :=
  (setPair (parkEcho (echErr s 1)) 0 |>.setF F.ECH_STAT_MODE 0 0).raise (hwFault 7 1 0 false none 0)

/-- The mirrored regions lie in blocks of ownership of mirrored partitions, hold at most 131,072 lines, and hold the gallery parcel memory of the mirrored partitions (spec/12 R336; log 115). -/
def regionsOk (s : State) : Bool :=
  let rs := (List.range 16).filter (s.fb F.ECH_GAL_EN ·)
  let inRegion (n : Nat) : Bool := rs.any fun r => decide (s.f F.ECH_GAL_BASE r ≤ n) && decide (n < s.f F.ECH_GAL_BASE r + s.f F.ECH_GAL_SIZE r)
  rs.all (fun r => (List.range (s.f F.ECH_GAL_SIZE r)).all fun i =>
      (ownerOf s (s.f F.ECH_GAL_BASE r + i)).valid && s.mirPart (ownerOf s (s.f F.ECH_GAL_BASE r + i)).part)
    && decide ((rs.map fun r => 128 * s.f F.ECH_GAL_SIZE r).sum ≤ 131072)
    && (mirParts s).all fun p => (List.range (s.f F.QE_PCL_GAL_GSIZE p)).all fun i => inRegion (s.f F.QE_PCL_GAL_GBASE p + i)

/-- The lines of the mirrored regions (spec/12 R336). -/
def regionLines (s : State) : List Nat :=
  (List.range 16).flatMap fun r => if s.fb F.ECH_GAL_EN r then (List.range (128 * s.f F.ECH_GAL_SIZE r)).map (128 * s.f F.ECH_GAL_BASE r + ·) else []

/-- The records of a mirrored partition's parcels: their editions, the older first, and that a parcel is freed; the queues' positions, which name what they have pinned, stand before them (spec/12 R336, R337, spec/04 R125, R126). -/
def parcelRecs (s : State) : List ERec :=
  (s.eds.filter fun e => e.published && s.mirPart e.key.part).flatMap fun e =>
    let gone := s.pcls.any fun p => p.part == e.key.part && p.num == e.key.parcel && p.newest.isNone
    let r (f : Bool) : ERec := .parcel e.key.part e.key.parcel e.key.gen e.key.ed e.dram e.addr e.len f
    if gone then [r false, r true] else [r false]

/-- The records of the mirrored state but its lines (spec/12 R335 step 3, R336). -/
def wholeState (s : State) : List ERec :=
  let ps := mirParts s
  let phs := ps.flatMap fun p => if s.fb F.PH_PART_BASE_EN p then
      (List.range (s.f F.PH_PART_LIMIT_LAST p + 1 - s.f F.PH_PART_BASE_BASE p)).map (s.f F.PH_PART_BASE_BASE p + ·) else []
  let fks := ps.flatMap fun p => if s.fb F.GAL_FRANK_PART_EN p then
      (List.range (s.f F.GAL_FRANK_PART_LAST p + 1 - s.f F.GAL_FRANK_PART_BASE p)).map (s.f F.GAL_FRANK_PART_BASE p + ·) else []
  phs.map (fun n => ERec.phval n (s.row n).value) ++ fks.map (fun n => ERec.fkval n (s.frank n))
    ++ (mirQueues s).map (fun q => qsnap s q (((curDesc s q).map (·.count)).getD (((s.q q).descs.find? (·.st == 0)).map (·.count) |>.getD (s.q q).sq.toNat)))
    ++ parcelRecs s
    ++ ((List.range 64).filter fun r => s.fb F.GAL_SEAL_MODE_ALLOT r && s.mirPart (s.f F.GAL_SEAL_MODE_OWNER r)).map
        (fun r => ERec.sealreg r (s.f F.GAL_SEAL_BASE_BASE r) (s.f F.GAL_SEAL_SIZE_SIZE r) (sealMode s r))

/-- This twin leads: it becomes ACTIVE or LEADER and sends the mirrored state; every line of the mirrored regions is dirty (spec/12 R335 step 3). -/
def lead (s : State) : State :=
  let s := setPair (setRole s (if s.f F.ECH_STAT_MODE = 1 then 1 else 3)) 2
  let s := setEch s { s.ech with made := s.ech.made ++ wholeState s, dirty := regionLines s, syncLines := regionLines s, syncing := true, waits := false }
  { s with qs := s.qs.map fun e => (e.1, { e.2 with snaps := [], doneCmds := [] }) }

/-- This twin follows. -/
def follow (s : State) : State :=
  let s := setPair (setRole s (if s.f F.ECH_STAT_MODE = 1 then 2 else 4)) 2
  setEch s { s.ech with waits := false }

/-- A twin that waits at step 3 and does not see TIEBREAK follows the one whose records reach it (spec/12 R335). -/
def heard (s : State) : State := if s.ech.waits ∧ s.ech.portUp ∧ tieb s = false ∧ s.ctlOn then follow s else s

/-- Both twins see TIEBREAK = 1 (spec/12 R333). -/
def tieConflict (s : State) : State :=
  let s := (echErr s 2).raise (hwFault 7 2 0 true none 0)
  if s.fb F.ECH_CTL_SECONDARY ∨ s.ech.peerSec = false then setRole s 5 else s

/-- The PHY reports the link up: the identities are exchanged and compared (spec/12 R334, R335 step 2). -/
def echoUp (s : State) (ident edition cfg : Nat) (tb sec : Bool) : State :=
  if s.f F.ECH_STAT_PAIR ≠ 1 ∨ s.ech.portUp ∨ s.domOn s.b.domEcho = false ∨ s.ctlOn = false then s
  else
    let s := setEch s { s.ech with portUp := true, lastAdv := s.time, lastHb := s.time, hbSent := s.time, peerSec := sec,
                                   made := [.ident s.identWord (s.f F.FW_STAT_EDITION) (s.f F.ECH_CFGDIG_DIGEST) (tieb s) (s.fb F.ECH_CTL_SECONDARY)] }
    let s := s.setF F.ECH_STAT_PEERTB 0 tb.toNat
    if ident ≠ s.identWord ∨ edition ≠ s.f F.FW_STAT_EDITION ∨ cfg ≠ s.f F.ECH_CFGDIG_DIGEST ∨ (mirParts s).any (fun p => s.lbMode p == 0) ∨ regionsOk s = false then pairFails s
    else
      let s := setPair (setEch s { s.ech with identOk := true }) 2
      if tieb s ∧ tb then
        let s := tieConflict s
        if s.f F.ECH_STAT_ROLE = 5 then s else lead s
      else if tieb s then lead s else if tb then follow s else setEch s { s.ech with waits := true }

/-! ### Records that arrive (spec/12 R337) -/

/-- Records of the mirrored state are taken: by a twin that follows. -/
def takesState (s : State) : Bool :=
  s.ech.portUp && (s.f F.ECH_STAT_ROLE == 2 || s.f F.ECH_STAT_ROLE == 4) && (s.f F.ECH_STAT_PAIR == 2 || s.f F.ECH_STAT_PAIR == 3) && s.ctlOn

/-- The state of a queue from its code. -/
def QState.ofCode : Nat → QState
  | 0 => .disabled | 1 => .idle | 2 => .active | 3 => .draining | 4 => .stoppedError | _ => .frozen

/-- A queue takes the state of a QSTATE record; pending bits set here stay (spec/12 R335 step 5, R338, R344 step 2). -/
def takeQstate (s : State) (r : ERec) (pos : Nat × Nat) : State :=
  match r with
  | .qstate q st pend sq cq head p pc epoch g loc stack =>
    let Q := s.q q
    let s := s.setQ q { Q with st := QState.ofCode st, pend := pend || Q.pend, sq := BitVec.ofNat 32 sq, cq := BitVec.ofNat 32 cq, head := BitVec.ofNat 32 head,
                               p, pepoch := BitVec.ofNat 16 epoch, g, descs := [], recs := [], resv := 0, scanning := false, batchOut := false, scanWords := [],
                               scanXl := false, pc := 0, loc := none, stack := [], blk := .idle, ord := 0, win := [],
                               resumeAt := if pos.2 = 0 ∧ pc = 0 then none else some (sq, pos.2, pc, loc, stack) }
    s.setF F.QE_CQ_HEAD_HEAD q head
  | _ => s

/-- Takes the checkpoints of every mirrored queue. -/
def takeCkpts (s : State) : State := s.ech.ckpts.foldl (fun s e => takeQstate s e.2 (mget (0, 0) s.ech.ckPos e.1)) s

/-- QSTATE. -/
def recvQstate (s : State) (r : ERec) (q : Nat) : State :=
  let s := heard s
  if takesState s = false ∨ s.mirrored q = false then s
  else
    let s := reclaim (setEch s { s.ech with ckpts := mset s.ech.ckpts q r })
    if s.f F.ECH_STAT_PAIR = 3 ∧ s.f F.ECH_STAT_ROLE = 2 then takeQstate s r (mget (0, 0) s.ech.ckPos q) else s

/-- A decision record is older than a position of its queue. -/
def olderThan (r : List W64) (sq ord : Nat) : Bool :=
  let c := lbBits r 2 63 32
  let o := if lbKind r = 1 then 0 else lbBits r 2 31 12
  let d := (BitVec.ofNat 32 sq - BitVec.ofNat 32 c).toNat
  if d = 0 then lbKind r != 1 && decide (o < ord) else decide (d < 2 ^ 31)

/-- RETIRE: the checkpoint passes the done marks and the decisions before it (spec/12 R339, R342). -/
def recvRetire (s : State) (q sq ord : Nat) : State :=
  let s := heard s
  if takesState s = false ∨ s.mirrored q = false then s
  else
    let s := setEch s { s.ech with ckPos := mset s.ech.ckPos q (sq, ord), decisions := s.ech.decisions.filter fun r => !(lbBits r 0 47 36 == q && olderThan r sq ord) }
    s.setQ q { s.q q with marks := (s.q q).marks.filter fun m => !(decide (m.1 = sq ∧ m.2.1 < ord) || (decide (m.1 ≠ sq) && decide ((BitVec.ofNat 32 sq - BitVec.ofNat 32 m.1).toNat < 2 ^ 31))) }

/-- PHVAL and FKVAL: applied as that value. -/
def recvPhval (s : State) (n : Nat) (v : W64) : State :=
  let s := heard s
  if takesState s = false then s
  else
    let r := s.row n
    wakeMet (s.setRow n { r with value := v, st := .normal }) (.ph n) v

def recvFkval (s : State) (n : Nat) (v : W64) : State :=
  let s := heard s
  if takesState s = false then s else wakeMet (setFrank s n v) (.counter n) v

/-- LINE: written by requester 122 with its seal bit; a line in a chamber that is not LIT is not written (spec/07 R508). -/
def recvLine (s : State) (addr : Nat) (data : List Byte) (full : Bool) : State :=
  let s := heard s
  if takesState s = false ∨ addr % 512 ≠ 0 ∨ data.length ≠ 512 ∨ s.b.galleryBytes ≤ addr then s
  else
    let h := s.hallOf addr
    if s.domOn (s.b.domLogic h) = false ∨ (chambersOf s.b.halls (0, addr, 512)).any (fun c => s.chamber h c != 0) then s
    else setSeal (galPut (countSlot s h none) (none, none) h 122 (addrBytes addr data)).1 (addr / 512) full

/-- PARCEL: an edition published or a parcel freed. -/
def recvParcel (s : State) (p n gen ed : Nat) (dram : Bool) (addr len : Nat) (freed : Bool) : State :=
  let s := heard s
  if takesState s = false then s
  else
    let x := getParcel s p n
    if freed then reclaim (setParcel s { x with newest := none })
    else
      let k : EdKey := ⟨p, n, gen, ed⟩
      let s := if (edition? s k).isSome then s else { s with eds := s.eds ++ [⟨k, dram, addr, len, 0, true⟩] }
      reclaim (setParcel s { x with newest := some ed, gen })

/-- SEALREG. -/
def recvSealreg (s : State) (rg base size mode : Nat) : State :=
  let s := heard s
  if takesState s = false then s
  else
    let s := failWaiting s rg
    ((((((s.setF F.GAL_SEAL_BASE_BASE rg base).setF F.GAL_SEAL_SIZE_SIZE rg size).setF F.GAL_SEAL_MODE_ALLOT rg (mode / 2 ^ 63)).setF
      F.GAL_SEAL_MODE_ARMED rg (mode / 2 ^ 62)).setF F.GAL_SEAL_MODE_PERM rg (mode / 2 ^ 61)).setF F.GAL_SEAL_MODE_PEEK rg (mode / 2 ^ 60)).setF
      F.GAL_SEAL_MODE_OWNER rg (mode / 2 ^ 48)

/-- HINGE: a done mark, kept by a STANDBY twin (spec/12 R342). -/
def recvHinge (s : State) (q sq ord st : Nat) (res : W64) (pc : Option (Nat × Nat)) : State :=
  let s := heard s
  if takesState s = false then s
  else
    let s := match pc with
      | some (t, n) => s.setF F.QE_ENQ_PCOUNT t n
      | none => s
    if s.f F.ECH_STAT_ROLE = 2 then s.setQ q { s.q q with marks := (s.q q).marks ++ [(sq, ord, st, res)] } else s

/-- DECISION (spec/12 R344, R346). -/
def recvDecision (s : State) (ws : List W64) : State :=
  let s := heard s
  if takesState s = false ∨ s.mirrored (lbBits ws 0 47 36) = false then s else setEch s { s.ech with decisions := s.ech.decisions ++ [ws] }

/-- HOSTWR: a doorbell or a QE_CQ_HEAD write made at the partner. -/
def recvHostwr (s : State) (q : Nat) (head : Option Nat) : State :=
  let s := heard s
  if takesState s = false ∨ s.mirrored q = false then s
  else match head with
    | none => queueSettle (s.setQ q { s.q q with pend := true }) q
    | some h => scanGo 8 ((s.setQ q { s.q q with head := BitVec.ofNat 32 h }).setF F.QE_CQ_HEAD_HEAD q h) q

/-- HEARTBEAT (spec/12 R333, R335 step 5). -/
def recvHeartbeat (s : State) (tb : Bool) : State :=
  if s.ech.portUp = false ∨ s.ctlOn = false then s
  else
    let s := setEch (s.setF F.ECH_STAT_PEERTB 0 tb.toNat) { s.ech with lastHb := s.time }
    let s := if tb then heard s else s
    let s := if s.f F.ECH_STAT_PAIR = 2 ∧ (s.f F.ECH_STAT_ROLE = 2 ∨ s.f F.ECH_STAT_ROLE = 4) then takeCkpts (setPair s 3) else s
    if tb ∧ tieb s ∧ s.f F.ECH_STAT_ROLE ≠ 5 then tieConflict s else s

/-- A heartbeat is sent (spec/12 R337). -/
def sendHeartbeat (s : State) : State :=
  if s.ech.portUp = false ∨ s.f F.ECH_STAT_PAIR ≠ 3 ∨ s.time < s.ech.hbSent + s.f F.ECH_HB_PERIOD * 1000 ∨ s.ctlOn = false then s
  else setEch s { s.ech with hbSent := s.time, made := s.ech.made ++ [.heartbeat (s.f F.ECH_STAT_MODE) (s.f F.ECH_STAT_ROLE) (tieb s) (s.flt.echoOk && s.flt.halt == 0)] }

/-! ### Retirement (spec/12 R339, R340) -/

/-- Where a queue's next command that has not started stands. -/
def livePos (s : State) (q : Nat) : Nat × Nat :=
  match curDesc s q with
  | some d => (d.count, (s.q q).ord)
  | none => ((((s.q q).descs.find? (·.st == 0)).map (·.count)).getD (s.q q).sq.toNat, 0)

/-- Completion actions whose command has retired take place. -/
def releaseRecs (s : State) (q : Nat) : State :=
  let Q := s.q q
  let keep (r : Rec) : Bool := if r.isEnd then Q.snaps.any (·.1 == r.sq) else Q.snaps.any fun x => x.1 == r.sq && x.2.1 == r.ord
  let go := Q.echoHeld.filter fun r => !keep r
  if go = [] then s
  else
    let s := s.setQ q { Q with echoHeld := Q.echoHeld.filter keep, recs := Q.recs ++ go }
    queueSettle (writeRecs (s.q q).recs.length s q) q

/-- Retires the first command that can retire, and those after it. -/
def retireN : Nat → State → Nat → State
  | 0, s, _ => s
  | n + 1, s, q =>
    let Q := s.q q
    match Q.snaps with
    | [] => s
    | x :: rest =>
      match Q.doneCmds.find? fun d => d.1 == x.1 && d.2.1 == x.2.1 with
      | some d =>
        if d.2.2.1 = 0 ∨ s.ech.ackNo < d.2.2.1 then s
        else retireN n ((s.setQ q { Q with snaps := rest, doneCmds := Q.doneCmds.erase d }).setF F.ECH_STAT_UNRETIRED 0 (s.f F.ECH_STAT_UNRETIRED - 1)) q
      | none => s

/-- Retirement of a queue: QSTATE and RETIRE are sent when its checkpoint advances. -/
def retireQueue (s : State) (q : Nat) : State :=
  if retires s q = false then s
  else
    let n := (s.q q).snaps.length
    let need := madeNo s
    -- the records of a command are counted once its lines have been read and nothing made before waits
    let s := if s.ech.made = [] then s.setQ q { s.q q with doneCmds := (s.q q).doneCmds.map fun d => if d.2.2.1 = 0 ∧ d.2.2.2 = [] then (d.1, d.2.1, need, []) else d } else s
    let s := retireN n s q
    let moved := decide ((s.q q).snaps.length < n)
    let s := releaseRecs s q
    if moved = false then s
    else
      let Q := s.q q
      let cq := (Q.cq.toNat + Q.recs.length) % 2 ^ 32
      let (pos, r) := match Q.snaps with
        | x :: _ => ((x.1, x.2.1), x.2.2)
        | [] => (livePos s q, qsnap s q (livePos s q).1)
      let r := match r with
        | .qstate a st pe sq _ _ p pc ep g loc stk => ERec.qstate a st pe sq cq Q.head.toNat p pc ep g loc stk
        | r => r
      (s.mirror (.retire q pos.1 pos.2)).mirror r

/-- The pair has transferred the mirrored state (spec/12 R335 steps 4 and 5). -/
def syncSettle (s : State) : State :=
  let s := if s.ech.syncing ∧ s.ech.syncLines = [] ∧ s.ech.made = [] then setEch s { s.ech with syncing := false, syncNeed := some (madeNo s) } else s
  match s.ech.syncNeed with
  | some n => if s.f F.ECH_STAT_PAIR = 2 ∧ n ≤ s.ech.ackNo then
      setPair (setEch s { s.ech with syncNeed := none, lastHb := s.time, hbSent := s.time }) 3 else s
  | none => s

/-! ### Comparison (spec/12 R347, R348) -/

/-- The command whose completion waits for the partner's digest. -/
def comparing (s : State) (q sq ord : Nat) : Option Cmd := s.cmds.find? fun c => c.q == q && c.sq == sq && c.ord == ord && c.st == .compare

/-- Both digests of a command are present. -/
def compareOne (s : State) (m : Nat × Nat × Nat × W64) : State :=
  match s.ech.peers.find? (fun x => x.1 == m.1 && x.2.1 == m.2.1 && x.2.2.1 == m.2.2.1), comparing s m.1 m.2.1 m.2.2.1 with
  | some x, some c =>
    let s := setEch s { s.ech with mine := s.ech.mine.erase m, peers := s.ech.peers.erase x }
    if x.2.2.2 = m.2.2.2 then completeNow s c.id c.status
    else
      let s := ((s.setF F.ECH_DIV_Q_ID 0 (c.q % 4096 * 2 ^ 52 + c.sq % 2 ^ 32 * 2 ^ 20 + c.ord % 2 ^ 20)).setF F.ECH_DIV_LOCAL_DIGEST 0 m.2.2.2.toNat).setF
        F.ECH_DIV_PEER_DIGEST 0 x.2.2.2.toNat
      let s := (echErr s 5).raise ⟨7, 5, 2, false, false, c.q, some (s.qPart c.q), Status.diverged.code, commonDetail 0 (some c.at) c.q 0 0 0 0, none, none⟩
      completeNow s c.id .diverged
  | _, _ => s

def compareSettle (s : State) : State := s.ech.mine.foldl compareOne s

/-- DIGEST. -/
def recvDigest (s : State) (q sq ord : Nat) (d : W64) : State :=
  if s.ech.portUp = false ∨ s.f F.ECH_STAT_MODE ≠ 2 ∨ s.f F.ECH_STAT_PAIR ≠ 3 then s
  else compareSettle (setEch s { s.ech with peers := s.ech.peers ++ [(q, sq, ord, d)] })

/-- Completes every command that waits for a digest without comparison. -/
def completeWaiting (s : State) : State :=
  let l := s.cmds.filter (·.st == .compare)
  l.foldl (fun s c => completeNow s c.id c.status) (setEch s { s.ech with mine := [], peers := [] })

/-- Releases everything that waited for the partner. -/
def releaseAll (s : State) : State :=
  let s := s.qs.foldl (fun s e => releaseRecs (s.setQ e.1 { s.q e.1 with snaps := [], doneCmds := [] }) e.1) s
  completeWaiting (s.setF F.ECH_STAT_UNRETIRED 0 0)

/-! ### Loss of the partner, takeover, leaving (spec/12 R343 to R350) -/

/-- Restores a queue at a takeover: its rings translate again, its calls are pinned (spec/12 R344, R345). -/
def restoreQueue (s : State) (q : Nat) : State :=
  match s.ech.ckpts.find? (·.1 == q) with
  | none => s
  | some e =>
    let s := takeQstate s e.2 (mget (0, 0) s.ech.ckPos q)
    let s := match (s.q q).resumeAt with
      | some (_, _, _, loc, stk) => (loc.toList ++ stk.filterMap (·.loc)).foldl (fun s k => pin s k true) s
      | none => s
    if (s.q q).st == QState.disabled then s else ringsXl s q 1

/-- The takeover of a STANDBY twin (spec/12 R344). -/
def takeover (s : State) : State :=
  let s := setPair (setRole (parkEcho s) 1) 4
  let qs := (mirQueues s).filter fun q => s.ech.ckpts.any (·.1 == q)
  let s := qs.foldl restoreQueue s
  let s := reclaim (setEch s { s.ech with ckpts := [] })
  let s := (echErr s 4).raise (hwFault 7 4 qs.length false none 0)
  s.noteFw 4

/-- TIEBREAK rises (spec/12 R335, R343). -/
def tieRise (s : State) : State :=
  let s := s.setF F.ECH_STAT_TIEBREAK 0 1
  if s.f F.ECH_STAT_ROLE = 2 ∧ 2 ≤ s.f F.ECH_STAT_PAIR then takeover s
  else if s.ech.waits ∧ s.ech.portUp then lead s
  else s

/-- TIEBREAK falls (spec/12 R332). -/
def tieFall (s : State) : State :=
  let s := s.setF F.ECH_STAT_TIEBREAK 0 0
  if s.f F.ECH_STAT_ROLE = 1 ∨ s.f F.ECH_STAT_ROLE = 3 then setRole s 5 else s

/-- PARTNER_LOST. -/
def partnerLost (s : State) : State := (echErr (setPair s 4) 3).raise (hwFault 7 3 0 false none 0)

/-- A COMPARE twin treats its partner as lost (spec/12 R349). -/
def compareLost (s : State) : State :=
  if tieb s then releaseAll (setRole (partnerLost s) 3) else setPair (setRole s 5) 4

/-- No heartbeat for ECH_HB.LOSS (spec/12 R343, R349); an ACTIVE twin goes on alone (log 31). -/
def hbLoss (s : State) : State :=
  if s.f F.ECH_STAT_PAIR ≠ 3 ∨ s.time < s.ech.lastHb + s.f F.ECH_HB_LOSS * 1000 ∨ s.ctlOn = false then s
  else if s.f F.ECH_STAT_MODE = 2 then (if s.f F.ECH_STAT_ROLE = 5 then setPair s 4 else compareLost s)
  else if s.f F.ECH_STAT_ROLE = 2 then (if tieb s then takeover s else partnerLost s)
  else if s.f F.ECH_STAT_ROLE = 1 then releaseAll (partnerLost s)
  else setPair s 4

/-- The partner's digest has not arrived (spec/12 R349). -/
def digestExpiry (s : State) (q sq ord : Nat) : State :=
  match comparing s q sq ord with
  | none => s
  | some c => if s.time < c.aux + max 1 (s.f F.ECH_CMP_WAIT) * 1000 ∨ s.f F.ECH_STAT_PAIR ≠ 3 ∨ s.ctlOn = false then s else compareLost s

/-- ECH_CTL SOLO (spec/12 R350). -/
def goSolo (s : State) : State :=
  if s.b.echo = false ∨ hostOk s = false then s
  else
    let led := s.f F.ECH_STAT_ROLE = 1 ∨ s.f F.ECH_STAT_ROLE = 3
    let none_ := s.f F.ECH_STAT_ROLE = 0
    let s := setRole (setPair (parkEcho (s.setF F.ECH_STAT_MODE 0 0)) 0) 0
    if led ∨ none_ then releaseAll s
    else
      let s := { s with qs := s.qs.map fun e => if s.mirrored e.1 ∧ e.2.st ≠ .disabled then (e.1, { e.2 with locked := true }) else e }
      completeWaiting s

/-- What the pair does after every step: lines and records are sent, commands retire, the transfer ends. -/
def echoSettle (s : State) : State :=
  if s.b.echo = false then s
  else
    let s := packRecs (flushDirty s)
    let s := packRecs ((mirQueues s).foldl retireQueue s)
    echoAck (echoPump 512 (syncSettle s))

end Sys2Proof.Machine
end

