-- ==== Sys2Proof/Machine/ObsOps.lean ====
section
/-! DEFINITION. Observation (spec/17): placement samples, trace, letterbook staging and ring, replay runs. -/

namespace Sys2Proof.Machine

def setObs (s : State) (o : Obs) : State := { s with obs := o }

/-! ### Placement counters (spec/17 R452, spec/04 R115) -/

/-- The present counters of a placement number: partition, TIME, BYTES, ENERGY. -/
def placeNow (s : State) (n : Nat) : Nat × Nat × Nat × Nat :=
  match s.units.find? fun u => (placeNums s.b.stations u.place).contains n with
  | some u => (u.part, s.time - u.start, u.bytes, u.energy)
  | none => mget (64, 0, 0, 0) s.sch.plc n

/-- The partition whose counters a window presents (spec/17 R451); 64 the global ones. -/
def viewOf (s : State) (p : Nat) : Nat :=
  if s.fb F.INT_FEAT_OPENLAB = false ∨ 65 ≤ s.f F.OBS_PW_CTL_VIEW p then p else s.f F.OBS_PW_CTL_VIEW p

/-- A read of a TIME register samples the selected placement: window `k`, or the privileged registers for 64. -/
def plcSample (s : State) (k : Nat) : State :=
  let kind := if k = 64 then s.f F.OBS_PLC_SEL_KIND else s.f F.OBS_PW_PLC_SEL_KIND k
  let ix := if k = 64 then s.f F.OBS_PLC_SEL_INDEX else s.f F.OBS_PW_PLC_SEL_INDEX k
  let (p, t, b, e) := placeNow s (kind * 256 + ix)
  let shown := k == 64 || viewOf s k == 64 || p == viewOf s k
  let (t, b, e) := if shown && decide (kind < 5) then (t, b, e) else (0, 0, 0)
  if k = 64 then ((s.setF F.OBS_PLC_TIME_NS 0 t).setF F.OBS_PLC_BYTES_BYTES 0 b).setF F.OBS_PLC_ENERGY_UJ 0 e
  else ((s.setF F.OBS_PW_PLC_TIME_NS k t).setF F.OBS_PW_PLC_BYTES_BYTES k b).setF F.OBS_PW_PLC_ENERGY_UJ k e

/-- OBS_PW_CTL: VIEW is written while OPEN_LAB is on (spec/17 R451). -/
def viewWrite (s : State) (p v : Nat) : State :=
  if s.fb F.INT_FEAT_OPENLAB then s.setF F.OBS_PW_CTL_VIEW p (if 65 ≤ v % 128 then p else v % 128) else s

/-! ### Trace (spec/17 R453, R454) -/

/-- Words in the trace FIFO. -/
def traceWords (s : State) : Nat := (s.obs.trace.map List.length).sum - s.obs.trcOut

def traceHdr (s : State) (kind n seq : Nat) : W64 := BitVec.ofNat 64 (kind * 2 ^ 60 + n % 4096 * 2 ^ 48 + s.chip * 2 ^ 44 + seq % 2 ^ 32)

/-- Places an item in the FIFO, behind a LOST item when items were dropped; an item that does not fit is dropped. -/
def traceItem (s : State) (kind : Nat) (payload : List W64) : State :=
  if s.fb F.OBS_TRC_CFG_EN = false then s
  else
    let o := s.obs
    let need := payload.length + 1 + (if o.trcLost = 0 then 0 else 2)
    if 512 < traceWords s + need then (setObs s { o with trcLost := o.trcLost + 1 }).satF F.OBS_TRC_STAT_DROPPED 0
    else
      let lost := if o.trcLost = 0 then [] else [[traceHdr s 4 1 o.trcSeq, BitVec.ofNat 64 o.trcLost]]
      let q := o.trcSeq + lost.length
      setObs s { o with trace := o.trace ++ lost ++ [traceHdr s kind payload.length q :: payload], trcSeq := q + 1, trcLost := 0 }

/-- One word leaves on the trace output; ITEMS counts an item whose last word has left. -/
def traceDrain (s : State) : State :=
  match s.obs.trace with
  | [] => s
  | i :: r =>
    let s := s.emit (.trace (i.getD s.obs.trcOut 0))
    if s.obs.trcOut + 1 < i.length then setObs s { s.obs with trcOut := s.obs.trcOut + 1 }
    else (setObs s { s.obs with trcOut := 0, trace := r }).incF F.OBS_TRC_STAT_ITEMS 0

/-- A partition's bit of OBS_TRC_PMASK; all ones while OPEN_LAB is on (spec/17 R451). -/
def traced (s : State) (part : Option Nat) : Bool :=
  match part with
  | some p => s.fb F.INT_FEAT_OPENLAB || (s.f F.OBS_TRC_PMASK_PARTS).testBit p
  | none => true

/-- TRACE_SAMPLE: a counter set every PERIOD µs. For a per-partition set the spec names no partition (log 3). -/
def traceSample (s : State) : State :=
  let set := s.f F.OBS_TRC_CFG_SET
  if s.fb F.OBS_TRC_CFG_EN = false ∨ s.fb F.OBS_TRC_CFG_CNT = false ∨ s.f F.OBS_TRC_CFG_PERIOD = 0 ∨ s.ctlOn = false
      ∨ s.time < s.obs.trcAt + s.f F.OBS_TRC_CFG_PERIOD * 1000 then s
  else
    let s := setObs s { s.obs with trcAt := s.time }
    if [0, 1, 2, 3, 0x10, 0x11, 0x12, 0x13, 0x14].contains set = false then s
    else
      let (w, s) := s.freeW
      traceItem s 3 (snapWords s (if set < 0x10 then w.toNat % 64 else 0) set)

/-! ### Letterbook staging and ring (spec/17 R457 to R459) -/

def lbN (s : State) : Nat := s.f F.OBS_LB_CFG_LOG2

/-- Records in the letterbook ring: POS − HEAD. -/
def lbUsed (s : State) : Nat := (BitVec.ofNat 32 (s.f F.OBS_LB_POS_POS) - BitVec.ofNat 32 (s.f F.OBS_LB_HEAD_HEAD)).toNat

/-- Writes staged records to the ring while it has space. -/
def lbPump : Nat → State → State
  | 0, s => s
  | n + 1, s =>
    match s.obs.staging with
    | [] => s
    | r :: rest =>
      if s.fb F.OBS_LB_CFG_EN = false ∨ 2 ^ lbN s ≤ lbUsed s ∨ s.flt.halt ≥ 6 ∨ s.ctlOn = false then s
      else
        let c := s.f F.OBS_LB_POS_POS
        let w := withPhase (lbN s) (BitVec.ofNat 32 c) r
        let s := (setObs s { s.obs with staging := rest }).setF F.OBS_LB_POS_POS 0 (c + 1)
        let s := s.startOp (mkOp (.letterbook c) ⟨0, none, true⟩ 120
          (.spans [⟨0, 32, s.f F.OBS_LB_BASE_BASE * 4096 + 32 * (c % 2 ^ lbN s), .mem false 0⟩]) 0 32 true (bytesOf w))
        let s := if s.fb F.OBS_LB_CFG_IRQ ∧ lbUsed s = 2 ^ (lbN s - 1) then s.irqG 6 else s
        lbPump n s

/-- A record is dropped: counted, and the next one carries GAP. -/
def lbDrop (s : State) : State := (setObs s { s.obs with gap := true }).satF F.OBS_LB_STAT_DROPPED 0

/-- LETTERBOOK_RECORD: the next record made enters staging, or is dropped, or waits (spec/17 R455, R458); it is traced. -/
def letterbookRecord (s : State) : State :=
  match s.obs.made with
  | [] => s
  | r :: rest =>
    if s.ctlOn = false then s
    else
      let part := if lbBits r 0 54 54 = 1 then some (lbBits r 0 53 48) else none
      let trace (s : State) (r : List W64) : State := if s.fb F.OBS_TRC_CFG_LB ∧ traced s part then traceItem s 1 r else s
      if s.obs.staging.length < 65536 then
        let r := if s.obs.gap then match r with
            | w :: t => (w ||| 0x0080000000000000#64) :: t
            | [] => []
          else r
        lbPump 4 (trace (setObs s { s.obs with made := rest, staging := s.obs.staging ++ [r], gap := false }) r)
      else if s.lbRoom = false then s
      else trace (lbDrop (setObs s { s.obs with made := rest })) r

/-- A write of the ring has been answered with an error: EN clears, staged records are dropped (spec/17 R459). -/
def lbWritten (s : State) (o : Op) : State :=
  if o.status = .done then s
  else
    let n := s.obs.staging.length
    let s := (setObs s { s.obs with staging := [], gap := s.obs.gap || n != 0 }).setF F.OBS_LB_CFG_EN 0 0
    s.satF F.OBS_LB_STAT_DROPPED 0 n

def lbHeadWrite (s : State) (h : Nat) : State := lbPump 65536 (s.setF F.OBS_LB_HEAD_HEAD 0 h)

/-- At entry to NAP or DORMANT the staging is written; what finds the ring full, or the ring off, is dropped (spec/17 R465). -/
def lbFlush (s : State) : State :=
  let s := s.obs.made.foldl (fun s _ => letterbookRecord s) s
  let s := lbPump 65536 s
  let n := s.obs.staging.length + s.obs.made.length
  if n = 0 then s else (setObs s { s.obs with staging := [], made := [], gap := true }).satF F.OBS_LB_STAT_DROPPED 0 n

/-- OBS_LB_CFG: EN written as 1 restarts the ring, makes a HEADER due and writes what is staged (spec/17 R456, R457, R466). -/
def lbCfgWrite (s : State) (v : Nat) : State :=
  let was := s.fb F.OBS_LB_CFG_EN
  let en := v / 2 ^ 63 % 2
  let s := ((s.setF F.OBS_LB_CFG_IRQ 0 (v / 2 ^ 62)).setF F.OBS_LB_CFG_HOLD 0 (v / 2 ^ 61)).setF F.OBS_LB_CFG_GMODE 0 (v / 2 ^ 59)
  let s := if was then s else s.setF F.OBS_LB_CFG_LOG2 0 (max 10 (min 20 (v % 32)))
  if en = 1 then lbPump 65536 (setObs (((s.setF F.OBS_LB_CFG_EN 0 1).setF F.OBS_LB_POS_POS 0 0).setF F.OBS_LB_HEAD_HEAD 0 0) { s.obs with hdrDue := true })
  else s.setF F.OBS_LB_CFG_EN 0 0

/-- OBS_LB_MODE, word `i`: a mode OFF for a partition of the pair is ignored (spec/17 R460). -/
def lbModeWrite (s : State) (i v : Nat) : State :=
  let old := s.f F.OBS_LB_MODE_MODES i
  let keep (j : Nat) : Bool := v / 4 ^ j % 4 == 0 && s.mirPart (32 * i + j) && s.f F.ECH_STAT_PAIR != 0
  s.setF F.OBS_LB_MODE_MODES i ((List.range 32).map fun j => (if keep j then old / 4 ^ j % 4 else v / 4 ^ j % 4) * 4 ^ j).sum

/-! ### Replay runs (spec/17 R461 to R464) -/

/-- Records that a replay run does not file; those that supply inputs only with INPUTS = 1 (spec/17 R462; log 33). -/
def rpSkips (s : State) (r : List W64) : Bool :=
  lbBits r 0 54 54 == 0 || !(s.f F.OBS_RP_PARTS_PARTS).testBit (lbBits r 0 53 48) || [0, 3, 0xA, 0xB, 0xC, 0xD, 0xE, 0x12, 0x13, 0x14].contains (lbKind r)
    || (!s.fb F.OBS_RP_CFG_INPUTS && [0x10, 0x11, 0x15].contains (lbKind r))

/-- A read of record `n` of the source. -/
def rpRead (s : State) : State :=
  (setObs s { s.obs with rpOut := true }).startOp (mkOp .replay ⟨0, none, true⟩ 120
    (.spans [⟨0, 32, s.f F.OBS_RP_BASE_BASE * 4096 + 32 * s.f F.OBS_RP_STAT_USED, .mem false 0⟩]) 0 32 false [])

/-- The next record is read while the run goes on. -/
def rpPump (s : State) : State :=
  if s.f F.OBS_RP_STAT_STATE = 1 ∧ s.obs.rpOut = false ∧ s.f F.OBS_RP_STAT_USED < s.f F.OBS_RP_LEN_RECORDS ∧ s.ctlOn ∧ s.flt.halt = 0 then rpRead s else s

/-- Every record has been read and applied (spec/17 R464). -/
def rpDone (s : State) : State :=
  if s.f F.OBS_RP_STAT_STATE = 1 ∧ s.obs.rpOut = false ∧ s.obs.filed = [] ∧ s.f F.OBS_RP_LEN_RECORDS ≤ s.f F.OBS_RP_STAT_USED ∧ s.flt.halt = 0 then
    (s.setF F.OBS_RP_STAT_STATE 0 2).irqG 5 else s

/-- Queues of the replayed partitions that are not DISABLED. -/
def rpQueues (s : State) : List Nat :=
  (s.qs.filter fun e => e.2.st != .disabled && (s.f F.OBS_RP_PARTS_PARTS).testBit (s.qPart e.1)).map (·.1)

def rpRefuse (s : State) (c : Nat) : State :=
  ((setObs s { s.obs with filed := [] }).setF F.OBS_RP_STAT_STATE 0 4).setF F.OBS_RP_STAT_CAUSE 0 c

/-- OBS_RP_CTL GO: QUEUES is checked, the first record is read (spec/17 R461). -/
def rpGo (s : State) : State :=
  if s.ctlOn = false ∨ s.flt.halt ≠ 0 then s
  else if s.f F.OBS_RP_STAT_STATE = 1 then rpRefuse s 11
  else if s.obs.rpOut then s
  else rpRead ((setObs s { s.obs with filed := [], rpStale := false }).setF F.OBS_RP_STAT_USED 0 0)

/-- The check of the first record. -/
def rpFirst (s : State) (r : List W64) : State :=
  if lbKind r ≠ 0 then rpRefuse s 8
  else if (r.getD 3 0).toNat ≠ s.identWord then rpRefuse s 9
  else if lbBits r 2 63 32 ≠ s.f F.FW_STAT_EDITION then rpRefuse s 10
  else if rpQueues s ≠ [] then rpRefuse s 11
  else ((s.setF F.OBS_RP_STAT_STATE 0 1).setF F.OBS_RP_STAT_CAUSE 0 0).setF F.OBS_RP_STAT_USED 0 1

/-- A record of the source has been read (spec/17 R462, R463). -/
def rpReadDone (s : State) (o : Op) : State :=
  let s := setObs s { s.obs with rpOut := false }
  let r := wordsOf 4 o.data
  if s.f F.OBS_RP_STAT_STATE ≠ 1 then
    (if s.f F.OBS_RP_STAT_STATE = 3 ∨ s.f F.OBS_RP_STAT_USED ≠ 0 then s
     else if o.status ≠ .done then rpRefuse s 8 else rpFirst s r)
  else
    let s := s.incF F.OBS_RP_STAT_USED 0
    if o.status ≠ .done then s.diverge 5 r 0 0 0
    else if lbBits r 0 55 55 = 1 then s.diverge 4 r (lbBits r 0 47 36) 0 0
    else if rpSkips s r then s
    else setObs s { s.obs with filed := s.obs.filed ++ [r] }

/-- OBS_RP_CTL STOP (spec/17 R464). -/
def rpStop (s : State) : State :=
  if s.f F.OBS_RP_STAT_STATE = 1 ∧ hostOk s then setObs (s.setF F.OBS_RP_STAT_STATE 0 5) { s.obs with filed := [] } else s

/-- The first record filed under the key of a queue. -/
def rpNext (s : State) (q : Nat) : Option (List W64) := s.obs.filed.find? fun r => lbKey r == some (.queue q)

/-- With INPUTS the fabric makes the rings and writes of replayed queues (spec/17 R462): a queue's front DOORBELL or HOSTWR record is applied. -/
def rpInput (s : State) (q : Nat) : State :=
  match rpNext s q with
  | none => s
  | some r =>
    if lbKind r = 0x10 then ringQueue (s.applied r) q (lbBits r 2 63 62)
    else if lbKind r = 0x15 then
      let off := (r.getD 2 0).toNat
      let v := (r.getD 3 0).toNat
      let s := s.applied r
      let o := if off < 0x1000000 then off % 64 else (off - 0x1000000) % 65536 % 64
      if o = 0x18 then request (hostWr s (some q) off v) q (v % 16)
      else if o = 0x30 then cqHeadWrite (hostWr s (some q) off v) q (v % 2 ^ 32)
      else s
    else s

/-- A HOSTWR record under no key is applied by the fabric when it is the first that is filed: XLT_PW_RESUME, PH_PW_POLL and GAL_PW_DROP_CTL (spec/17 R456, R462; log 33). -/
def rpWindow (s : State) : State :=
  match s.obs.filed with
  | [] => s
  | r :: _ =>
    if lbKind r ≠ 0x15 ∨ (lbKey r).isSome then s
    else
      let off := (r.getD 2 0).toNat
      let v := (r.getD 3 0).toNat
      let p := (off - 0x1000000) / 65536 % 64
      let s := s.applied r
      if off % 65536 = 0xF300 then resumeWrite s p v
      else if off % 65536 = 0xF010 then (hostWr s none off v).setF F.PH_PW_POLL_INTERVAL p v
      else if off % 65536 = 0xF220 then dropCtl s p v
      else s

/-- The command of a queue that stands at a decision point and waits for its record: one to be admitted, a CALLP at its pin, an ENQUEUE at its count, a COLLECT (spec/17 R462). -/
def rpCmd (s : State) (q : Nat) : Option Cmd :=
  match s.cmds.find? (fun c => c.q == q && (match c.body with
      | .callp _ => c.aux == 1 && c.st == .running
      | .enqueue _ _ => c.aux == 1 && c.st == .running
      | _ => false)) with
  | some c => some c
  | none => frontCmd s q

/-- A queue of a replayed partition waits at a decision point. -/
def rpWaits (s : State) (q : Nat) : Bool :=
  s.rpState (s.qPart q) == 1 && ((rpCmd s q).isSome || ((s.q q).scanning && !(s.q q).batchOut && !(s.q q).scanXl && (scanLimit s q).isNone))

/-- Since when each queue waits (spec/17 R463). -/
def rpSinceSettle (s : State) : State :=
  if s.f F.OBS_RP_STAT_STATE = 1 then
    { s with qs := s.qs.map fun e => (e.1, { e.2 with rpSince := if rpWaits s e.1 then some (e.2.rpSince.getD s.time) else none }) }
  else s

/-- The record a queue's decision point waits for: the first under the queue, or an admission of its command. -/
def rpRecord (s : State) (q : Nat) : List W64 :=
  ((rpNext s q).orElse fun _ => (rpCmd s q).bind fun c => s.obs.filed.find? fun r =>
    lbKind r == 2 && lbBits r 2 63 32 == c.sq % 2 ^ 32 && lbBits r 2 31 12 == c.ord % 2 ^ 20 && lbBits r 0 47 36 == q).getD []

/-- A run diverges at the decision point of a queue (spec/17 R463). -/
def divergeAt (s : State) (q cause : Nat) : State :=
  match rpCmd s q with
  | some c => divergeCmd s cause (rpRecord s q) c
  | none => s.diverge cause (rpRecord s q) q (s.q q).sq.toNat 0

/-- A decision point has waited for WAIT ms: the run diverges with KIND when the next record under its key is of another kind, with WAIT otherwise; its command completes with REPLAY_DIVERGED (spec/17 R463; log 33). -/
def replayExpiry (s : State) (q : Nat) : State :=
  match (s.q q).rpSince with
  | none => s
  | some t =>
    if s.f F.OBS_RP_STAT_STATE ≠ 1 ∨ s.time < t + max 1 (s.f F.OBS_RP_CFG_WAIT) * 1000000 ∨ s.ctlOn = false ∨ s.flt.halt ≠ 0 then s
    else
      let r := rpRecord s q
      let kinds := match rpCmd s q with
        | none => [1]
        | some c => (match c.body with
          | .callp _ => [5]
          | .enqueue _ _ => []
          | _ => [])
      divergeAt s q (if r ≠ [] ∧ kinds ≠ [] ∧ kinds.contains (lbKind r) = false then 1 else 3)

/-- What a replay run does after every step; after a firmware activation it diverges at the next decision (spec/17 R465). -/
def replaySettle (s : State) : State :=
  if s.f F.OBS_RP_STAT_STATE ≠ 1 then s
  else
    let s := if s.fb F.OBS_RP_CFG_INPUTS then (s.obs.filed.filterMap fun r => match lbKey r with
        | some (.queue q) => some q
        | _ => none).eraseDups.foldl rpInput (rpWindow s) else s
    let s := if s.obs.rpStale then match s.qs.find? fun e => rpWaits s e.1 with
        | some e => divergeAt s e.1 2
        | none => s
      else s
    rpSinceSettle (rpDone (rpPump s))

end Sys2Proof.Machine
end

