-- ==== Sys2Proof/Machine/PowerOps.lean ====
section
/-! DEFINITION. The fatal halt (spec/13 R366), power domains, chambers, power states, levels, governor, forecast, heat (spec/14, spec/07 R204 to R206). -/

namespace Sys2Proof.Machine

/-! ### The fatal halt (spec/13 R366) -/

/-- FLT_FATAL and FLT_FATAL_TIME latch; LANTERN falls (step 2). -/
def latchFatal (s : State) (x : Flt) (seq : Nat) : State :=
  ((((((((s.setF F.FLT_FATAL_VALID 0 1).setF F.FLT_FATAL_ESC 0 x.escl.toNat).setF F.FLT_FATAL_PV 0 x.part.isSome.toNat).setF F.FLT_FATAL_GROUP 0 x.grp).setF
    F.FLT_FATAL_CAUSE 0 x.cause).setF F.FLT_FATAL_PART 0 (x.part.getD 0)).setF F.FLT_FATAL_SEQ 0 seq).setF F.FLT_FATAL_TIME_NS 0 s.time).setF F.FLT_STAT_LANTERN 0 0

/-- Step 6: the FATAL record is written when the global ring has space; every record whose write has not been issued is dropped. CONTROL_SILENT leaves no record. -/
def fatalRecord (s : State) (x : Flt) (seq : Nat) : State :=
  let s := (s.flt.recs.filter fun r => !r.issued).foldl deadRec s
  if x.grp = 13 ∧ x.cause = 2 then s
  else if ringSpace s 64 then
    let r : RingRec := ⟨s.nid, 64, faultWords s x seq, none, none, false, none, false, none⟩
    reserveRec (State.bump { s with flt := { s.flt with recs := s.flt.recs ++ [r] } }) r
  else s

/-- The steps of the fatal halt, taken at once when the indication has crossed (log 35). -/
def fatalHalt (s : State) : State :=
  match s.flt.haltFlt with
  | none => s
  | some x =>
    if s.flt.halt ≠ 1 then s
    else
      let s := latchFatal { s with flt := { s.flt with halt := 3 } } x s.flt.haltSeq
      let s := (List.range s.b.stations).foldl (fun s n => if s.f F.STN_PSTAT_STATE n = 0 then s else haltStn s n) s
      let s := (List.range s.b.links).foldl (fun s l => parkLink s l 8) s
      let s := parkEcho s
      let s := (List.range s.b.eports).foldl (fun s k => s.emit (.eCtl k (BitVec.ofNat 64 (0x82 * 2 ^ 56)))) s
      let s := fatalRecord { s with flt := { s.flt with halt := 5 } } x s.flt.haltSeq
      { s with flt := { s.flt with halt := 7 } }

/-! ### Domains (spec/14 R372, R373) -/

def setPwr (s : State) (p : Pwr) : State := { s with pwr := p }

/-- Kind of a domain: 0 chamber, 1 hall logic, 2 station, 3 link, 4 echo, 5 pigeonhole bank, 6 firmware core, 7 miscellaneous. -/
def domKind (b : Build) (d : Nat) : Nat :=
  if d < b.domLogic 0 then 0 else if d < b.domStation 0 then 1 else if d < b.domLink 0 then 2 else if d < b.domEcho then 3
  else if d < b.domBank 0 then 4 else if d < b.domCore 0 then 5 else if d < b.domMisc 0 then 6 else 7

/-- A domain's request awaits its acknowledgement. -/
def domWaits (s : State) (d : Nat) : Bool := s.pwr.domAt.any fun e => e.1 == d

/-- The request of a domain goes out. -/
def sendDom (s : State) (d code : Nat) : State :=
  (setPwr s { s.pwr with domAt := mset s.pwr.domAt d (s.time, false) }).setF F.PWR_DOM_REQ d code |>.setF F.PWR_DOM_STATE d 2

/-- Requests a domain: at once, or when the previous request has been acknowledged. -/
def reqDom (s : State) (d code : Nat) : State :=
  if s.b.domains ≤ d then s
  else if domWaits s d then setPwr s { s.pwr with domNext := mset s.pwr.domNext d code }
  else if s.f F.PWR_DOM_REQ d = code then s
  else sendDom s d code

/-! ### Chambers (spec/07 R204, R205) -/

/-- The state a chamber is asked for: GAL_CPWR_REQ, or the policy of a low-power state (spec/14 R383). -/
def effTarget (s : State) (h c : Nat) : Nat :=
  match s.pwr.ovr.find? (·.1 == h) with
  | some e => e.2 / 4 ^ c % 4
  | none => s.target h c

def addTo (l : List Nat) (x : Nat) : List Nat := if l.contains x then l else l ++ [x]

/-- Opens a chamber: its hall logic is ON first. -/
def openChamber (s : State) (h c : Nat) : State :=
  if s.domOn (s.b.domLogic h) = false then s
  else
    let d := 16 * h + c
    let s := if s.chamber h c = 2 then setPwr s { s.pwr with fromDark := addTo s.pwr.fromDark d } else s
    reqDom (s.setChamber h c 4) d 3

/-- Moves a settled chamber toward the state it is asked for. -/
def chamberGo (s : State) (h c : Nat) : State :=
  let t := effTarget s h c
  let d := 16 * h + c
  match s.chamber h c with
  | 0 => if t = 0 ∨ t = 3 then s else if holdsParcels s h then s.setF F.GAL_CPWR_STAT_HELD h 1 else reqDom (s.setChamber h c 3) d (if t = 1 then 1 else 0)
  | 1 => if t = 0 then openChamber s h c else if t = 2 then (if holdsParcels s h then s.setF F.GAL_CPWR_STAT_HELD h 1 else reqDom (s.setChamber h c 3) d 0) else s
  | 2 => if t = 0 then openChamber s h c else if t = 1 then (if holdsParcels s h then s.setF F.GAL_CPWR_STAT_HELD h 1 else openChamber s h c) else s
  | _ => s

def chambersGo (s : State) (h : Nat) : State := (List.range 16).foldl (fun s c => chamberGo s h c) (s.setF F.GAL_CPWR_STAT_HELD h 0)

/-- Requests that were held go on when the parcels are gone. -/
def heldSettle (s : State) : State :=
  (s.setIdx F.GAL_CPWR_STAT_HELD).foldl (fun s h => if holdsParcels s h then s else chambersGo s h) s

/-- A write of GAL_CPWR_REQ: 3 leaves a chamber's field. -/
def cpwrWrite (s : State) (h v : Nat) : State :=
  if s.b.halls ≤ h ∨ hostOk s = false then s
  else
    let m := ((List.range 16).map fun c => (if v / 4 ^ c % 4 = 3 then s.target h c else v / 4 ^ c % 4) * 4 ^ c).sum
    chambersGo (s.setF F.GAL_CPWR_REQ_TARGETS h m) h

/-- The lines' blocks in a chamber become zero with fresh check bits. -/
def zeroChamber (s : State) (h c : Nat) : State :=
  let here (a : Nat) : Bool := a / 512 % s.b.halls == h && (a / 512 / s.b.halls + a % 512 / 32) % 16 == c
  let s := { s with gal := { s.gal with cells := s.gal.cells.filter (fun e => !here e.1), err := s.gal.err.filter fun e => !here (8 * e.1) } }
  s.setHall h { s.hall h with backs := (s.hall h).backs.filter fun w => !here (8 * w) }

/-- What a chamber does when its domain has been acknowledged with a code. -/
def chamberAck (s : State) (h c code : Nat) : State :=
  let d := 16 * h + c
  match s.chamber h c with
  | 3 => if code = 1 then chamberGo (s.setChamber h c 1) h c else if code = 0 then chamberGo (s.setChamber h c 2) h c else s
  | 4 => if code = 3 then setPwr s { s.pwr with chAt := mset s.pwr.chAt d (s.time + if s.pwr.fromDark.contains d then 8000 else 2000) } else s
  | _ => s

/-- CHAMBER_OPENING_END. -/
def openingEnd (s : State) (h c : Nat) : State :=
  let d := 16 * h + c
  match s.pwr.chAt.find? (·.1 == d) with
  | none => s
  | some e =>
    if s.chamber h c ≠ 4 ∨ s.time < e.2 then s
    else if s.pwr.fromDark.contains d then
      (setPwr s { s.pwr with chAt := mset s.pwr.chAt d (s.time + 16000), fromDark := s.pwr.fromDark.filter (· != d) }).setChamber h c 5
    else chamberGo ((setPwr s { s.pwr with chAt := mdel s.pwr.chAt d }).setChamber h c 0) h c

/-- CHAMBER_ZEROING_END. -/
def zeroingEnd (s : State) (h c : Nat) : State :=
  let d := 16 * h + c
  match s.pwr.chAt.find? (·.1 == d) with
  | none => s
  | some e =>
    if s.chamber h c ≠ 5 ∨ s.time < e.2 then s
    else
      let s := zeroChamber (setPwr s { s.pwr with chAt := mdel s.pwr.chAt d }) h c
      if effTarget s h c = 1 ∧ holdsParcels s h = false then reqDom (s.setChamber h c 3) d 1 else chamberGo (s.setChamber h c 0) h c

/-! ### Islands, zones, levels (spec/14 R375, R392) -/

/-- The island of hall 0, of station 0, and the number of islands that receive a level. -/
def leveled (b : Build) : Nat := 1 + b.halls + b.stations / 4

/-- Class of an island: 0 control, 1 hall, 2 station. -/
def islClass (b : Build) (i : Nat) : Nat := if i ≤ 1 then 0 else if i < 2 + b.halls then 1 else 2

def zoneCount (b : Build) : Nat := 2 + b.halls / 8 + b.stations / 8

/-- Zone of an island. -/
def zoneOf (b : Build) (i : Nat) : Nat :=
  if i ≤ 1 then 0 else if i < 2 + b.halls then 1 + (i - 2) / 8 else if i < 2 + b.halls + b.stations / 4 then 1 + b.halls / 8 + (i - 2 - b.halls) / 2
  else zoneCount b - 1

/-- Class of a zone; the zone of links and echo takes the control class (log 36). -/
def zoneClass (b : Build) (z : Nat) : Nat := if z = 0 then 0 else if z ≤ b.halls / 8 then 1 else if z + 1 < zoneCount b then 2 else 0

def safeLevel (s : State) (cls : Nat) : Nat := if cls = 0 then s.f F.PWR_SAFE_CTL else if cls = 1 then s.f F.PWR_SAFE_HALL else s.f F.PWR_SAFE_STN
def clampLevel (s : State) (cls : Nat) : Nat := if cls = 0 then s.f F.PWR_CLAMP_CTL else if cls = 1 then s.f F.PWR_CLAMP_HALL else s.f F.PWR_CLAMP_STN

def thermCap (s : State) (i : Nat) : Nat := s.f F.PWR_ZONE_CAP (zoneOf s.b i)
def islClamped (s : State) (i : Nat) : Bool := s.fb F.PWR_ZONE_CLAMPED (zoneOf s.b i)

/-- The level requested for an island (spec/14 R375, R376, R381). -/
def levelOf (s : State) (i : Nat) : Nat :=
  if i = 0 ∨ leveled s.b < i then 0
  else
    let cls := islClass s.b i
    let base := if s.f F.PWR_STATE_STATE = 5 ∧ i = 1 then min (s.f F.PWR_ISL_MAXL i) (safeLevel s 0)
      else min (s.f F.PWR_ISL_MAXL i) (min (thermCap s i) (s.f F.PWR_ISL_GOV i))
    if islClamped s i then min base (clampLevel s cls)
    else if s.fb F.PWR_ISL_GATED i then 0
    else if s.f F.PWR_STATE_STATE = 2 ∨ s.f F.PWR_STATE_STATE = 3 then base
    else max base (s.f F.PWR_ISL_FLOOR i)

/-! ### Emergency and the clamp (spec/14 R394, R395) -/

def blockState (s : State) : Nat := (List.range (zoneCount s.b)).foldl (fun m z => max m (s.f F.PWR_ZONE_STATE z)) 0

/-- The clamp and the emergency follow the zones and SUPPLY_LOW. -/
def emergSettle (s : State) : State :=
  let top := blockState s
  let sup := s.fb F.PWR_CLAMP_SUPPLY
  let s := (List.range (zoneCount s.b)).foldl (fun s z => s.setF F.PWR_ZONE_CLAMPED z (sup || decide (3 ≤ s.f F.PWR_ZONE_STATE z) || decide (top = 4)).toNat) s
  let e := sup || decide (3 ≤ top)
  if e = s.fb F.PWR_STATE_EMERG then s
  else
    let s := (s.setF F.PWR_STATE_EMERG 0 e.toNat).irqG 2
    if e then s else setPwr s { s.pwr with emergEnd := some s.time }

/-- A FATAL fault raised while the control island sleeps: latched without a record (spec/14 R398). -/
def raiseTrip (s : State) (isl : Nat) : State :=
  let x : Flt := ⟨9, 2, 2, false, false, isl, none, 0, commonDetail 0 none isl 0 0 0 0, none, none⟩
  if s.ctlOn then s.raise x
  else if s.flt.halt = 0 then latchFatal { s with flt := { s.flt with halt := 7 } } x 0
  else s.setF F.FLT_FATAL_OVF 0 1

/-! ### Sensors (spec/14 R391 to R393) -/

/-- A temperature of 12 bits, in 1/8 °C. -/
def tempOf (v : Nat) : Int := toSigned 12 v

def sensIsl (s : State) (n : Nat) : Nat := if n < 64 then Config.sensIsland n % s.b.islands else 0
def sensZone (s : State) (n : Nat) : Nat := if n < 64 then zoneOf s.b (sensIsl s n) else s.f F.PWR_EXTCFG_ZONE (n - 64)

/-- The threshold of a state for a sensor. -/
def threshold (s : State) (n k : Nat) : Int :=
  tempOf (if n < 64 then (if k = 1 then s.f F.PWR_THR_WARM else if k = 2 then s.f F.PWR_THR_HOT else if k = 3 then s.f F.PWR_THR_ALERT else s.f F.PWR_THR_TRIP)
    else (let e := n - 64; if k = 1 then s.f F.PWR_EXTCFG_WARM e else if k = 2 then s.f F.PWR_EXTCFG_HOT e else if k = 3 then s.f F.PWR_EXTCFG_ALERT e
      else s.f F.PWR_EXTCFG_TRIP e))

/-- The next state of a sensor from a reading: rises at once, falls one state past the hysteresis. -/
def sensNext (s : State) (n cur : Nat) (t : Int) : Nat :=
  let r := (List.range 4).foldl (fun m k => if threshold s n (k + 1) ≤ t then k + 1 else m) 0
  if cur ≤ r then r else if t < threshold s n cur - 8 * (s.f F.PWR_THR_HYST : Int) then cur - 1 else cur

/-- A sensor takes part in its zone's state. -/
def takesPart (s : State) (n : Nat) : Bool :=
  s.fb F.PWR_SENS_VALID n && (decide (n < 64) || (s.fb F.PWR_EXTCFG_EN (n - 64) && s.fb F.PWR_EXTCFG_STATES (n - 64)))

/-- The state of a zone from its sensors; HOT when none takes part. -/
def zoneSettle (s : State) (z isl : Nat) : State :=
  let l := (List.range 80).filter fun n => takesPart s n && sensZone s n == z
  let old := s.f F.PWR_ZONE_STATE z
  let top := blockState s
  let v := if l = [] then 2 else l.foldl (fun m n => max m (s.f F.PWR_SENS_STATE n)) 0
  let s := (s.setF F.PWR_ZONE_STATE z v).setF F.PWR_ZONE_NOSENSE z (l == []).toNat
  let s := if old < 4 ∧ v = 4 then raiseTrip s isl
    else if old < 3 ∧ v = 3 then s.raise (hwFault 9 1 isl false none 0) else s
  let s := if blockState s ≠ top then s.irqG 2 else s
  emergSettle s

/-- A sensor has failed. -/
def sensFail (s : State) (n : Nat) : State :=
  let s := (s.setF F.PWR_SENS_VALID n 0).setF F.PWR_SENS_STATE n 0
  let s := if s.pwr.sfail.contains n then s
    else (setPwr s { s.pwr with sfail := s.pwr.sfail ++ [n] }).raise (hwFault 9 4 n true none 0)
  zoneSettle s (sensZone s n) (sensIsl s n)

/-- A sample of a sensor; 0x800 reports a failure. -/
def sample (s : State) (n temp : Nat) : State :=
  let t := temp % 4096
  let s := s.setF F.PWR_SENS_TEMP n t
  if t = 0x800 then sensFail s n
  else
    let s := setPwr s { s.pwr with sfail := s.pwr.sfail.filter (· != n) }
    let s := (s.setF F.PWR_SENS_STATE n (sensNext s n (s.f F.PWR_SENS_STATE n) (tempOf t))).setF F.PWR_SENS_VALID n 1
    zoneSettle s (sensZone s n) (sensIsl s n)

/-- The always-on island is powered and out of PORESET_N. -/
def aonOn (s : State) : Bool := s.rst != 1 && s.rst != 4

def sensorSample (s : State) (n temp : Nat) : State := if aonOn s ∧ n < 64 then sample s n temp else s

def externalSample (s : State) (e temp : Nat) : State :=
  if aonOn s ∧ e < 16 then sample (setPwr s { s.pwr with extAt := mset s.pwr.extAt e s.time }) (64 + e) temp else s

def externalTimeout (s : State) (e : Nat) : State :=
  if aonOn s ∧ e < 16 ∧ s.fb F.PWR_EXTCFG_EN e ∧ mget 0 s.pwr.extAt e + 10000000 ≤ s.time then sensFail s (64 + e) else s

def supplyRise (s : State) : State :=
  if aonOn s = false ∨ s.fb F.PWR_CLAMP_SUPPLY then s else emergSettle ((s.setF F.PWR_CLAMP_SUPPLY 0 1).raise (hwFault 9 3 0 false none 0))

def supplyFall (s : State) : State := if aonOn s then emergSettle (s.setF F.PWR_CLAMP_SUPPLY 0 0) else s

/-! ### Ceiling and slew (spec/14 R384) -/

/-- The effective ceiling and slew from their sources. -/
def ceilSettle (s : State) : State :=
  let add (m v : Nat) : Nat := if v = 0 then m else min m v
  let c := add (add (s.f F.PWR_CEIL_LIMIT) (s.f F.PWR_CEIL_PPORT)) (s.f F.PWR_CEIL_COMMITTED)
  let w := match s.pwr.pslew with
    | some v => min (s.f F.PWR_CFG_SLEW) v
    | none => s.f F.PWR_CFG_SLEW
  (s.setF F.PWR_CEIL_EFFECTIVE 0 c).setF F.PWR_STAT_EFFSLEW 0 (max 5 (min 500 w))

/-- PCEIL and PSLEW change; 0 stands for an input that is not valid. They are levels: a change while the control island sleeps holds when it wakes. -/
def pceilChange (s : State) (ceil slew : Nat) : State :=
  if aonOn s = false then s
  else ceilSettle ((setPwr s { s.pwr with pslew := if slew = 0 then none else some (slew % 1024) }).setF F.PWR_CEIL_PPORT 0 ceil)

/-! ### The governor (spec/14 R385 to R387) -/

/-- The island of a list with the highest level above its FLOOR. -/
def highest (s : State) (l : List Nat) : Option Nat :=
  l.foldl (fun o i => if levelOf s i ≤ s.f F.PWR_ISL_FLOOR i then o else match o with
    | none => some i
    | some j => if levelOf s j < levelOf s i then some i else some j) none

def stnIslands (b : Build) : List Nat := (List.range (b.stations / 4)).map (2 + b.halls + ·)
def hallIslands (b : Build) : List Nat := (List.range b.halls).map (2 + ·)

/-- The island that is lowered next. -/
def lowerNext (s : State) : Option Nat :=
  match highest s (stnIslands s.b), highest s (hallIslands s.b), highest s [1] with
  | some i, _, _ => some i
  | none, some i, _ => some i
  | none, none, o => o

/-- U of the envelope: the UPPER of the bin that covers now. -/
def upperNow (s : State) : Option Nat :=
  if s.fb F.PWR_STAT_FCSTVALID then some (s.f F.PWR_FCST_UPPER (min 15 ((s.time - s.pwr.fcstAt) / 125000000))) else none

/-- The envelope, in mW. -/
def envelope (s : State) (prev : Nat) : Nat :=
  let e := min (s.f F.PWR_CEIL_EFFECTIVE * 10) (prev * 10 + s.f F.PWR_STAT_EFFSLEW)
  match upperNow s with
  | some u => min e (u * 10)
  | none => e

/-- A 10 µs interval: the power is a free value (log 37). -/
def governorInterval (s : State) : State :=
  let k := s.time / 10000
  if s.ctlOn = false ∨ k < s.pwr.interval then s
  else
    let prev := s.f F.PWR_EST_P10US
    let (w, s) := s.freeW
    let (w2, s) := s.freeW
    let p := w.toNat % 65536
    let e := envelope s prev
    let l := (p :: s.pwr.p100).take 100
    let tenths := s.pwr.enFrac + p
    let s := setPwr s { s.pwr with interval := k + 1, p100 := l, enFrac := tenths % 10 }
    let s := ((s.setF F.PWR_EST_ENVELOPE 0 (e / 10)).setF F.PWR_EST_P10US 0 p).setF F.PWR_EST_P1MS 0 (l.sum / l.length)
    let s := (s.incF F.PWR_ENERGY_UJ 0 (tenths / 10)).incF F.PWR_UNATTR_UJ 0 (w2.toNat % (tenths / 10 + 1))
    let s := if s.fb F.PWR_CFG_DOWNSLEW ∧ p * 10 + s.f F.PWR_STAT_EFFSLEW < prev * 10 then s.satF F.PWR_STAT_FASTDROP 0 else s
    if e < p * 10 then
      match lowerNext s with
      | some i => s.setF F.PWR_ISL_GOV i (levelOf s i - 1)
      | none =>
        let s := s.setF F.PWR_STAT_SHAREHOLD 0 1
        if s.units.any (·.share) then s else s.satF F.PWR_STAT_OVER 0
    else if p * 10 < e ∧ w2.toNat.testBit 63 then
      if s.fb F.PWR_STAT_SHAREHOLD then s.setF F.PWR_STAT_SHAREHOLD 0 0
      else match (1 :: hallIslands s.b ++ stnIslands s.b).find? fun i => decide (s.f F.PWR_ISL_GOV i < 15) with
        | some i => s.setF F.PWR_ISL_GOV i (s.f F.PWR_ISL_GOV i + 1)
        | none => s
    else s

/-! ### Forecast, caps and the model (spec/14 R388, R396, R397) -/

/-- The postmaster runs. -/
def postRuns (s : State) : Bool := s.coreUp 4 && s.coreUp 5 && s.ctlOn

/-- A publication; EXPECT and UPPER are free values within their bounds (log 37). -/
def forecast (s : State) : State :=
  let n := s.time / 1000000
  if postRuns s = false ∨ n < s.pwr.pubs then s
  else
    let seq := (s.f F.PWR_FCST_SEQ 0 + 1) % 65536
    let s := (setPwr s { s.pwr with pubs := n + 1, fcstAt := s.time }).setF F.PWR_STAT_FCSTVALID 0 1
    (List.range 16).foldl (fun s b =>
      let (u, s) := s.freeW
      let (x, s) := s.freeW
      let up := u.toNat % (s.f F.PWR_CEIL_EFFECTIVE + 1)
      let ex := x.toNat % (up + 1)
      (((s.setF F.PWR_FCST_SEQ b seq).setF F.PWR_FCST_UPPER b up).setF F.PWR_FCST_EXPECT b ex).emit (.fcst b seq up ex)) s

/-- The fallback governor takes the thermal caps (spec/14 R396). -/
def startFallback (s : State) : State :=
  let caps := (List.range (zoneCount s.b)).map fun z => (z, s.f F.PWR_ZONE_CAP z)
  ((setPwr s { s.pwr with rampAt := s.time, rampFrom := caps }).setF F.PWR_STAT_FALLBACK 0 1).setF F.PWR_STAT_FCSTVALID 0 0

/-- A step of the fallback ramp: each cap falls in proportion to the time passed of RAMP. -/
def fallbackStep (s : State) : State :=
  if s.fb F.PWR_STAT_FALLBACK = false ∨ aonOn s = false then s
  else
    let ramp := max 1 (s.f F.PWR_SAFE_RAMP)
    let us := min ramp ((s.time - s.pwr.rampAt) / 1000)
    (List.range (zoneCount s.b)).foldl (fun s z =>
      let cap := s.f F.PWR_ZONE_CAP z
      let c0 := mget cap s.pwr.rampFrom z
      let safe := safeLevel s (zoneClass s.b z)
      s.setF F.PWR_ZONE_CAP z (min cap (c0 - (c0 - safe) * us / ramp))) s

/-- The sum, difference, product and quotient of fractions, in lowest terms; division by zero does not occur. -/
def Frac.mk' (n d : Int) : Frac :=
  let g := Nat.gcd n.natAbs d.natAbs
  let k := if d < 0 then -1 else 1
  if g = 0 then {} else ⟨k * n / g, d.natAbs / g⟩

def Frac.add (a b : Frac) : Frac := Frac.mk' (a.num * b.den + b.num * a.den) (a.den * b.den)
def Frac.sub (a b : Frac) : Frac := Frac.mk' (a.num * b.den - b.num * a.den) (a.den * b.den)
def Frac.mulDiv (a : Frac) (n d : Int) : Frac := Frac.mk' (a.num * n) (a.den * d)

/-- The hottest sensor of a zone, in 1/8 °C. -/
def hottest (s : State) (z : Nat) : Option Int :=
  ((List.range 80).filter fun n => takesPart s n && sensZone s n == z).foldl (fun o n =>
    let t := tempOf (s.f F.PWR_SENS_TEMP n)
    some (match o with
      | none => t
      | some u => max t u)) none

/-- A valid external input of a kind in a zone. -/
def extOf (s : State) (z kind : Nat) : Option Int :=
  (((List.range 16).find? fun e => s.fb F.PWR_EXTCFG_EN e && s.fb F.PWR_SENS_VALID (64 + e) && s.f F.PWR_EXTCFG_ZONE e == z && s.f F.PWR_EXTCFG_KIND e == kind).map
    fun e => tempOf (s.f F.PWR_SENS_TEMP (64 + e)))

/-- One step of the model of a zone with power `p` in 10 mW (spec/14 R397). -/
def modelStep (s : State) (z p : Nat) : State :=
  let r := BitVec.ofNat 64 (s.f F.PWR_ZMODEL_RJPRPKRKCRCOOL z)
  let c := BitVec.ofNat 64 (s.f F.PWR_ZMODEL_CJCPCKCC z)
  let R (i : Nat) : Int := fieldOf r (16 * i + 15) (16 * i)
  let C (i : Nat) : Int := fieldOf c (16 * i + 15) (16 * i)
  if [0, 1, 2, 3].any fun i => R i == 0 || C i == 0 then s
  else
    let n := mget {} s.pwr.zones z
    let tin := (extOf s z 1).elim n.c fun t => Frac.mk' t 8
    let flow (a b : Frac) (rk : Int) : Frac := (a.sub b).mulDiv 1024 rk
    let qjp := flow n.j n.p (R 3)
    let qpk := flow n.p n.k (R 2)
    let qkc := flow n.k n.c (R 1)
    let step (t q : Frac) (ck : Int) : Frac := t.add (q.mulDiv 64 (1000 * ck))
    let j := step n.j ((Frac.mk' p 100).sub qjp) (C 3)
    let pk := step n.p (qjp.sub qpk) (C 2)
    let k := step n.k (qpk.sub qkc) (C 1)
    let co := step n.c (qkc.sub (flow n.c tin (R 0))) (C 0)
    let g : Int := s.f F.PWR_ZMODEL_GAIN z
    let j := (hottest s z).elim j fun t => j.add (((Frac.mk' t 8).sub j).mulDiv g 256)
    let pk := (extOf s z 0).elim pk fun t => pk.add (((Frac.mk' t 8).sub pk).mulDiv g 256)
    let pred := j.num * 8 / j.den
    (setPwr s { s.pwr with zones := mset s.pwr.zones z ⟨j, pk, k, co⟩ }).setF F.PWR_ZONE_PRED z (max (-2047) (min 2047 pred) % 4096).toNat

/-- The cap the postmaster sets: none in NORMAL, a limited rise in WARM, a fall from HOT on; the amounts are free values (log 37). -/
def capNext (st cap : Nat) (w : W64) : Nat :=
  if st = 0 then 15 else if st = 1 then cap + w.toNat % (16 - cap) else if cap = 0 then 0 else w.toNat % cap

def thermalStep (s : State) : State :=
  let n := s.time / 1000000
  if postRuns s = false ∨ n < s.pwr.steps then s
  else (List.range (zoneCount s.b)).foldl (fun s z =>
    let (p, s) := s.freeW
    let (w, s) := s.freeW
    let s := modelStep s z (p.toNat % 65536)
    s.setF F.PWR_ZONE_CAP z (capNext (s.f F.PWR_ZONE_STATE z) (s.f F.PWR_ZONE_CAP z) w)) (setPwr s { s.pwr with steps := n + 1 })

/-! ### Gating (spec/14 R376) -/

/-- Islands with work: halls whose requests or gather entries wait or in which requester 121 has work, stations of running units. -/
def busyIslands (s : State) : List Nat :=
  ((s.gal.halls.filter fun e => e.2.queue != [] || hallEntries s e.1 != [] || work121 s e.1 || e.2.newChange != []).map (2 + ·.1)) ++
    s.units.flatMap fun u => match u.place with
      | .stations f n => (List.range n).map fun i => 2 + s.b.halls + (f + i) % s.b.stations / 4
      | _ => []

def busySettle (s : State) : State :=
  (busyIslands s).foldl (fun s i => (setPwr s { s.pwr with busyAt := mset s.pwr.busyAt i s.time }).setF F.PWR_ISL_GATED i 0) s

def islandGate (s : State) (i : Nat) : State :=
  if s.f F.PWR_STATE_STATE ≠ 1 ∨ i < 2 ∨ leveled s.b < i ∨ (busyIslands s).contains i
      ∨ s.time < mget 0 s.pwr.busyAt i + max 1 (s.f F.PWR_CFG_GATE) * 1000 then s
  else s.setF F.PWR_ISL_GATED i 1

def ungate (s : State) : State := (s.setIdx F.PWR_ISL_GATED).foldl (fun s i => s.setF F.PWR_ISL_GATED i 0) s

/-! ### Power states (spec/14 R376 to R382) -/

/-- The first condition of a low-power state that fails; 0 when none does (spec/14 R377). -/
def lowRefuse (s : State) (dormant : Bool) : Nat :=
  if (s.qs.any fun e => e.2.st != .disabled && e.2.st != .idle && e.2.st != .stoppedError) || s.cmds.any (fun c => match c.body with
      | .enqueue .. => true
      | _ => false) then 1
  else if s.units != [] || s.colls != [] || s.cmds.any (·.placed) then 2
  else if s.f F.ECH_STAT_PAIR ≠ 0 then 3
  else if dormant && (List.range 64).any (fun p => s.f F.PRT_STAT_STATE p == 1 && s.f F.QE_PCL_GAL_GSIZE p != 0) then 4
  else if (List.range 6).any (fun k => s.f F.FW_CORE_STATE k == 2) || s.f F.FW_UPDATE_STATE = 4 then 5
  else if s.xlt.invs != [] then 6
  else if s.setIdx F.GAL_OWN_STATE != [] || (List.range s.b.halls).any (fun h => (List.range 16).any fun c => decide (3 ≤ s.chamber h c)) then 7
  else if s.fb F.FLT_FATAL_VALID then 8
  else 0

/-- The override of a hall's chambers at entry (spec/14 R383). -/
def policyOf (s : State) (h : Nat) : Nat :=
  let keep := if s.pwr.sleepTo = 2 then s.fb F.PWR_CPOL_NRET h else s.fb F.PWR_CPOL_DRET h
  let hold := s.pwr.sleepTo = 2 ∧ holdsParcels s h
  ((List.range 16).map fun c => (if s.chamber h c = 0 then (if hold then 0 else if keep then 1 else 2) else s.chamber h c) * 4 ^ c).sum

/-- Requests of a sequence step that are neither acknowledged nor timed out, of domains in a range. -/
def stepWaits (s : State) (lo hi : Nat) : Bool := s.pwr.domAt.any fun e => decide (lo ≤ e.1 ∧ e.1 < hi) && !e.2.2

def reqAll (s : State) (lo n code : Nat) : State := (List.range n).foldl (fun s i => reqDom s (lo + i) code) s

/-- A chamber still moves, its domain not timed out. -/
def chambersMove (s : State) : Bool := s.pwr.chAt != [] || stepWaits s 0 (s.b.domLogic 0)

/-- The interrupt lines read 0 in NAP and DORMANT: a pulse ends, a raise that waits for one stands for the wake (spec/18 R472; log 125). -/
def linesLow (s : State) : State :=
  let s := if s.xlt.notes = [] then s else s.emit (.gintLevel false)
  { s with irq := (s.irq.filter fun e => e.2.2).map fun e => (e.1, (1, true)) }

/-- GINT[1] shows its level again at the end of a wake. -/
def linesBack (s : State) : State := if s.xlt.notes = [] then s else s.emit (.gintLevel true)

/-- The entry sequence from its present step; one step at a time (spec/14 R378). -/
def entryStep (s : State) : State :=
  let b := s.b
  match s.pwr.step with
  | 1 =>
    let s := lbFlush s
    let up := (List.range b.links).filter fun l => s.f F.FAB_LSTAT_STATE l == 2 || s.f F.FAB_LSTAT_STATE l == 3
    let s := parkEcho (up.foldl (fun s l => parkLink s l 7) s)
    setPwr s { s.pwr with links := up, step := 2 }
  | 2 =>
    let targets := (List.range b.halls).map fun h => (h, policyOf s h)
    (List.range b.halls).foldl chambersGo (setPwr s { s.pwr with ovr := targets, step := 3 })
  | 3 =>
    if chambersMove s then s
    else
      let s := if s.pwr.sleepTo = 3 then { s with fw := { s.fw with saved := true } } else s
      reqAll (setPwr s { s.pwr with step := 5 }) (b.domStation 0) (b.stations + b.links + b.echo.toNat) 0
  | 5 =>
    if stepWaits s (b.domStation 0) (b.domBank 0) then s
    else
      let off := (List.range b.halls).filter fun h => (List.range 16).all fun c => s.chamber h c == 1 || s.chamber h c == 2
      off.foldl (fun s h => reqDom s (b.domLogic h) 0) (setPwr s { s.pwr with step := 6 })
  | 6 =>
    if stepWaits s (b.domLogic 0) (b.domStation 0) then s
    else
      let dorm := s.pwr.sleepTo = 3
      let s := setPwr s { s.pwr with step := 7 }
      let s := reqAll s (b.domBank 0) 16 (if dorm ∧ s.fb F.PWR_CFG_PHRET = false then 0 else 1)
      reqAll s (b.domCore 0) 14 (if dorm then 0 else 1)
  | 7 =>
    if stepWaits s (b.domBank 0) b.domains then s
    else linesLow (((setPwr s { s.pwr with step := 0 }).setF F.PWR_STATE_STATE 0 s.pwr.sleepTo).setF F.FLT_STAT_LANTERN 0 0)
  | _ => s

/-- A wake begins: its domains are requested ON (spec/14 R381 step 1). -/
def startWake (s : State) : State :=
  let b := s.b
  let dorm := s.f F.PWR_STATE_STATE = 3 ∨ (s.f F.PWR_STATE_STATE = 4 ∧ s.pwr.sleepTo = 3 ∧ s.pwr.step = 7)
  let s := (setPwr s { s.pwr with step := 1, wakeDue := false, fromDormant := dorm, granted := mdel s.pwr.granted 1 }).setF F.PWR_STATE_STATE 0 5
  reqAll (s.incF F.PWR_WAKE_CAUSE_COUNT 0) (b.domBank 0) 30 3

/-- PWR_CMD NAP or DORMANT. -/
def enterLow (s : State) (to_ : Nat) : State :=
  if s.ctlOn = false ∨ s.f F.PWR_STATE_STATE > 1 then s
  else match lowRefuse s (to_ == 3) with
    | 0 => ttStop ((setPwr (ungate s) { s.pwr with sleepTo := to_, step := 1, sleepAt := s.time }).setF F.PWR_STATE_STATE 0 4)
    | c => s.setF F.PWR_STATE_REFUSE 0 c

def powerActive (s : State) : State := if s.ctlOn ∧ s.f F.PWR_STATE_STATE = 1 then ungate (s.setF F.PWR_STATE_STATE 0 0) else s
def powerIdle (s : State) : State := if s.ctlOn ∧ s.f F.PWR_STATE_STATE = 0 then s.setF F.PWR_STATE_STATE 0 1 else s

/-- A write of PWR_CMD (spec/14 R376, spec/17 R456). -/
def powerCmd (s : State) (cmd : Nat) : State :=
  if hostOk s = false then s
  else
    let s := hostWr s none 0x100000 cmd
    match cmd with
    | 1 => powerActive s
    | 2 => powerIdle s
    | 3 => enterLow s 2
    | 4 => enterLow s 3
    | _ => s

/-- A wake event: 0 to 5 a link, 6 echo, 7 a doorbell, 8 PWAKE, 9 the timer (spec/14 R380). -/
def wakeEvent (s : State) (src : Nat) : State :=
  let st := s.f F.PWR_STATE_STATE
  if aonOn s = false ∨ s.rst ≠ 0 ∨ 10 ≤ src ∨ (st ≠ 2 ∧ st ≠ 3 ∧ st ≠ 4) then s
  else
    let s := if src < 6 then s.setF F.PWR_WAKE_CAUSE_LINK 0 (s.f F.PWR_WAKE_CAUSE_LINK ||| 2 ^ src)
      else if src = 6 then s.setF F.PWR_WAKE_CAUSE_ECHO 0 1 else if src = 7 then s.setF F.PWR_WAKE_CAUSE_DOORBELL 0 1
      else if src = 8 then s.setF F.PWR_WAKE_CAUSE_PWAKE 0 1 else s.setF F.PWR_WAKE_CAUSE_TIMER 0 1
    if st = 4 then setPwr s { s.pwr with wakeDue := true } else startWake s

/-- Fabric time has reached PWR_WAKE_TIME: a wake event asleep, and during the entry unless it had been reached at the entry's begin; then the entry completes first (spec/14 R380, R398). -/
def wakeTimer (s : State) : State :=
  let t := s.f F.PWR_WAKE_TIME_TIME
  let st := s.f F.PWR_STATE_STATE
  if t ≠ 0 ∧ t ≤ s.time ∧ (st = 2 ∨ st = 3 ∨ (st = 4 ∧ s.pwr.sleepAt < t)) then wakeEvent s 9 else s

/-- A link's ENABLE requests its domain ON (spec/11 R301, spec/14 R373). -/
def linkOn (s : State) (l : Nat) : State := if l < s.b.links then reqDom (enableLink s l) (s.b.domLink l) 3 else s

end Sys2Proof.Machine
end

