-- ==== Sys2Proof/Machine/CmtOps.lean ====
section
/-! DEFINITION. Committed settings (spec/16 R437 to R443): the commit log, ARM and COMMIT, the K-port, lane repairs. -/

namespace Sys2Proof.Machine

def setCmt (s : State) (c : Cmt) : State := { s with cmt := c }

/-- An OTP_ERROR (spec/13 R354). -/
def otpError (s : State) (unit : Nat) : State := s.raise (hwFault 12 3 unit true none 0)

/-! ### The log (spec/16 R438, R439) -/

/-- Valid entries of a setting over every link. -/
def commitCount (s : State) (code : Nat) : Nat := (s.cmt.log.filter fun e => entryValid e.2 && fieldOf e.2.1 15 12 == code).length

/-- The present value of a setting (spec/16 R437, R439). -/
def settingOf (s : State) (code link : Nat) : Nat :=
  if code = 6 then commitCount s 6
  else match (entriesOf s code link).getLast? with
    | some e => fieldOf e.2 39 16
    | none => if code = 7 then 64 else 0

/-- Slots that are not empty. -/
def slotsUsed (s : State) : Nat := s.cmt.log.length + (s.cmt.bad.filter fun n => !(s.cmt.log.any fun e => e.1 == n)).length

/-- The lowest empty slot. -/
def emptySlot (s : State) : Option Nat :=
  (List.range s.cmt.kbytes).find? fun n => !(s.cmt.log.any fun e => e.1 == n) && !s.cmt.bad.contains n

/-- Every committed value takes effect (spec/16 R437). -/
def applySettings (s : State) : State :=
  let s := ((s.setF F.INT_FEAT_OPENLAB 0 (settingOf s 1 0)).setF F.INT_FEAT_SECUREDEBUG 0 (settingOf s 5 0)).setF F.ECH_CTL_SECONDARY 0 (settingOf s 4 0)
  let s := ((s.setF F.PWR_CEIL_COMMITTED 0 (settingOf s 2 0)).setF F.FW_STAT_FLOOR 0 (settingOf s 6 0)).setF F.CMT_CAP_USED 0 (slotsUsed s)
  let s := (List.range 6).foldl (fun s l => (s.setF F.CMT_LINK_LOCK l (settingOf s 3 l)).setF F.CMT_LINK_REPAIRS l (entriesOf s 8 l).length) s
  let s := (List.range 8).foldl (fun s k => if k = 0 then s else
    (s.setF F.CMT_VAL_COUNT k (commitCount s k)).setF F.CMT_VAL_VALUE k (if k = 3 then 0 else settingOf s k 0)) s
  ceilSettle s

/-- The lane repairs of a link, as CMT_LREP presents them. -/
def laneRepairs (s : State) (l : Nat) : Nat := ofBytes ((repairsOf s l).map (BitVec.ofNat 8))

/-! ### Refusals (spec/16 R440) -/

def commitLimit (code : Nat) : Nat := if code = 1 then 4 else if code = 2 then 16 else if code = 3 then 16 else if code = 4 then 8 else if code = 5 then 1
  else if code = 6 then 64 else 8

/-- The value lies in the range of *Committed settings*. -/
def valueOk (s : State) (code v : Nat) : Bool :=
  match code with
  | 1 => decide (v ≤ 1)
  | 2 => decide (v ≤ 3600)
  | 3 => true
  | 4 => decide (v ≤ 1)
  | 5 => v == 1
  | 6 => v == settingOf s 6 0 + 1 && decide (v ≤ s.f F.FW_STAT_IMAGERB)
  | 7 => decide (1 ≤ v ∧ v ≤ 64) && decide (((List.range 64).filter fun p => s.f F.PRT_STAT_STATE p != 0).length ≤ v)
  | _ => false

/-- The first of causes 1 to 5 that refuses a request; 0 none. -/
def commitCause (s : State) (code link v : Nat) : Nat :=
  if s.f F.CMT_STAT_STATE = 2 ∨ s.cmt.job.isSome ∨ postRuns s = false then 1
  else if code = 0 ∨ 8 ≤ code ∨ (code = 3 ∧ s.b.links ≤ link) then 2
  else if valueOk s code v = false ∨ v = settingOf s code link then 3
  else if commitLimit code ≤ commitCount s code then 4
  else if emptySlot s = none then 5
  else 0

/-- The challenge of SECURE_DEBUG (spec/16 R442). -/
def challenge (s : State) (k : Nat) : W64 :=
  if k = 0 then s.cmt.uid else if k = 1 then BitVec.ofNat 64 (slotsUsed s) else if k = 2 then BitVec.ofNat 64 s.identWord else 0x53444247#64

/-- The token passes (spec/16 R442). -/
def tokenOk (s : State) : Bool :=
  let t := bytesOf ((List.range 32).map fun k => BitVec.ofNat 64 (s.f F.CMT_TOKEN_WORD k))
  let key := t.take 97
  let id := ((t.drop 97).headD 0).toNat
  decide (id ≤ 3) && ((t.drop 98).take 6).all (· == 0) && (t.drop 200).all (· == 0)
    && ofBE (sha384 key) == Config.romKey id % 2 ^ 384 && ecdsaVerify key ((t.drop 104).take 96) (bytesOf ((List.range 4).map (challenge s)))

def cmtRefuse (s : State) (c : Nat) : State :=
  let s := s.setF F.CMT_STAT_CAUSE 0 c
  if s.f F.CMT_STAT_STATE = 2 then s else s.setF F.CMT_STAT_STATE 0 0

/-- CMT_ARM (spec/16 R440 step 2). -/
def armWrite (s : State) (v : Nat) : State :=
  if hostOk s = false then s
  else
    let w := BitVec.ofNat 64 v
    let s := ((((s.setF F.CMT_ARM_SETTING 0 (fieldOf w 63 60)).setF F.CMT_ARM_LINK 0 (fieldOf w 59 57)).setF F.CMT_ARM_FORV 0 (fieldOf w 56 56)).setF
      F.CMT_ARM_FOR 0 (fieldOf w 55 50)).setF F.CMT_ARM_VALUE 0 (fieldOf w 23 0)
    let c := commitCause s (fieldOf w 63 60) (fieldOf w 59 57) (fieldOf w 23 0)
    if c ≠ 0 then cmtRefuse s c
    else if fieldOf w 63 60 = 5 ∧ tokenOk s = false then cmtRefuse s 9
    else setCmt (s.setF F.CMT_STAT_STATE 0 1) { s.cmt with armAt := s.time }

/-! ### The K-port (spec/18 R490) -/

/-- A request on the K-port. -/
def kSend (s : State) (job : KJob) (wr : Bool) (addr : Nat) (data : W64) : State :=
  (setCmt s { s.cmt with job := some job, kreq := some (wr, addr, data) }).emit (.kreq wr addr data)

/-- An entry of the log without its CHECK, then with it. -/
def entryOfCommit (s : State) (code link part old new : Nat) : W64 × W64 :=
  let w0 := BitVec.ofNat 64 (s.time / 1000 % 2 ^ 48 * 2 ^ 16 + code * 2 ^ 12 + link * 2 ^ 9 + part * 2 ^ 2)
  let w1 := BitVec.ofNat 64 (old % 2 ^ 24 * 2 ^ 40 + new % 2 ^ 24 * 2 ^ 16)
  (w0, w1 ||| BitVec.ofNat 64 (logCheck w0 w1 * 2 ^ 8))

/-- Programs an entry into the lowest empty slot, word 1 first. -/
def program (s : State) (code link part old new : Nat) : State :=
  match emptySlot s with
  | none => s
  | some n =>
    let (w0, w1) := entryOfCommit s code link part old new
    kSend (s.setF F.CMT_STAT_STATE 0 2) (.prog n w0 w1 0 0) true (2 * n + 1) w1

/-- CMT_COMMIT (spec/16 R440 steps 3 and 4). -/
def commitWrite (s : State) (v : Nat) : State :=
  if hostOk s = false then s
  else
    let w := BitVec.ofNat 64 v
    let code := fieldOf w 63 60
    let link := fieldOf w 59 57
    let v := fieldOf w 23 0
    if s.f F.CMT_STAT_STATE ≠ 1 then cmtRefuse s 6
    else if s.cmt.armAt + 1000000 < s.time then cmtRefuse s 7
    else if code ≠ s.f F.CMT_ARM_SETTING ∨ link ≠ s.f F.CMT_ARM_LINK ∨ fieldOf w 56 56 ≠ s.f F.CMT_ARM_FORV ∨ fieldOf w 55 50 ≠ s.f F.CMT_ARM_FOR
        ∨ v ≠ s.f F.CMT_ARM_VALUE then cmtRefuse s 8
    else
      let c := commitCause s code link v
      if c ≠ 0 then cmtRefuse s c
      else program s code (if code = 3 then link else 0) (if fieldOf w 56 56 = 1 then fieldOf w 55 50 else 64) (settingOf s code link) v

/-- The lane repairs that wait, in order: one that cannot be recorded raises OTP_ERROR, the first other one is committed (spec/16 R443; log 121). -/
def repairFrom (s : State) : List (Nat × Nat) → State
  | [] => setCmt s { s.cmt with reps := [] }
  | (l, r) :: rest =>
    if 8 ≤ (entriesOf s 8 l).length ∨ emptySlot s = none then repairFrom (otpError s l) rest
    else program (setCmt s { s.cmt with reps := rest }) 8 l 65 (settingOf s 8 l) r

/-- The next lane repair that waits is committed, once the postmaster runs and the K-port is free. -/
def repairNext (s : State) : State :=
  if s.cmt.job.isSome ∨ postRuns s = false ∨ s.f F.CMT_STAT_STATE = 2 then s else repairFrom s s.cmt.reps

/-- LREP reports a lane repair (spec/16 R443). -/
def laneRepair (s : State) (l rep : Nat) : State :=
  let r := rep % 256
  if s.b.links ≤ l then s
  else if (entriesOf s 8 l).any (fun e => fieldOf e.2 23 16 == r) ∨ s.cmt.reps.contains (l, r) then s
  else repairNext (setCmt s { s.cmt with reps := s.cmt.reps ++ [(l, r)] })

/-- Reads the log from its first slot (spec/16 R439). -/
def readLog (s : State) : State := kSend (setCmt s { s.cmt with bad := [] }) (.read 0 none) false 0 0

/-- The slot after `n` is read, or the log has been read: every value takes effect, torn slots raise OTP_ERROR. -/
def logNext (s : State) (n : Nat) : State :=
  if n + 1 < s.cmt.kbytes then kSend s (.read (n + 1) none) false (2 * (n + 1)) 0
  else
    let torn := (s.cmt.log.filter fun e => !entryValid e.2 && !s.cmt.bad.contains e.1).length + s.cmt.bad.length
    applySettings ((List.range torn).foldl (fun s _ => otpError s 0) (setCmt s { s.cmt with job := none }))

/-- The commit cannot be read back: refused with OTP (spec/16 R440). -/
def commitFails (s : State) (n : Nat) (torn : Bool) : State :=
  let s := setCmt s { s.cmt with job := none, bad := if torn then addTo s.cmt.bad n else s.cmt.bad }
  let s := ((s.setF F.CMT_STAT_STATE 0 0).setF F.CMT_STAT_CAUSE 0 10).setF F.CMT_CAP_USED 0 (slotsUsed s)
  repairNext (otpError s 0)

/-- The commit takes effect. -/
def commitDone (s : State) (n : Nat) (w0 w1 : W64) : State :=
  let s := applySettings (setCmt s { s.cmt with job := none, log := mset s.cmt.log n (w0, w1) })
  repairNext ((s.setF F.CMT_STAT_STATE 0 0).setF F.CMT_STAT_DONE 0 1)

/-- K_ACK: the word access that is out completes (spec/18 R490). -/
def kAck (s : State) (v : W64) (err : Bool) : State :=
  match s.cmt.kreq, s.cmt.job with
  | some _, some (.read n none) =>
    let s := setCmt s { s.cmt with kreq := none, bad := if err then addTo s.cmt.bad n else s.cmt.bad,
                                   log := if err then mdel s.cmt.log n else s.cmt.log }
    if err then logNext s n else kSend s (.read n (some v)) false (2 * n + 1) 0
  | some _, some (.read n (some w0)) =>
    let s := setCmt s { s.cmt with kreq := none, bad := if err then addTo s.cmt.bad n else s.cmt.bad,
                                   log := if err ∨ (w0 = 0 ∧ v = 0) then mdel s.cmt.log n else mset s.cmt.log n (w0, v) }
    logNext s n
  | some _, some (.prog n w0 w1 k back) =>
    if postRuns s = false then s
    else
      let s := setCmt s { s.cmt with kreq := none }
      if err then commitFails s n true
      else match k with
        | 0 => kSend s (.prog n w0 w1 1 0) true (2 * n) w0
        | 1 => kSend s (.prog n w0 w1 2 0) false (2 * n) 0
        | 2 => kSend s (.prog n w0 w1 3 v) false (2 * n + 1) 0
        | _ => if back = w0 ∧ v = w1 then commitDone s n w0 w1 else commitFails s n (!(back == 0 && v == 0))
  | _, _ => s

/-- The postmaster has crashed: an ARM ends, the K-port's use stops (spec/16 R441, R444). -/
def cmtCrash (s : State) : State :=
  let s := setCmt s { s.cmt with kreq := none }
  if s.f F.CMT_STAT_STATE = 1 then s.setF F.CMT_STAT_STATE 0 0 else s

/-- The postmaster runs again: a slot being programmed is read again (spec/16 R441). -/
def cmtReturn (s : State) : State :=
  match s.cmt.job with
  | some (.prog n w0 w1 _ _) => kSend s (.prog n w0 w1 2 0) false (2 * n) 0
  | _ => repairNext s

end Sys2Proof.Machine
end

