-- ==== Sys2Proof/Machine/FwOps.lean ====
section
/-! DEFINITION. Firmware cores (spec/15): the vault, verification and start, postmarks, crashes and restarts, staged updates. -/

namespace Sys2Proof.Machine

def setFw (s : State) (x : Fw) : State := { s with fw := x }

/-! ### The vault (spec/15 R402 to R404) -/

/-- Bytes of a slot, of the two slots, of the vault. -/
def slotBytes : Nat := 0x180000
def slotsBytes : Nat := 0x300000

/-- Stored bytes of the vault. -/
def vaultBytes (s : State) (off n : Nat) : List Byte := (List.range n).map fun i => cellGet s.fw.vault (off + i)

/-- Stores a word of the vault with fresh check bits; an armed injection of the vault is stored with it (spec/13 R369). -/
def vaultStore (s : State) (off : Nat) (v : W64) : State :=
  let s := setFw s { s.fw with vault := (addrBytes off (bytesOf [v])).foldl (fun c e => cellSet c e.1 e.2) s.fw.vault, verr := mdel s.fw.verr (off / 8) }
  if injHits s 2 (off / 8) then
    injDone (setFw s { s.fw with verr := if injPos s = [] then s.fw.verr else mset s.fw.verr (off / 8) (injPos s) })
  else s

/-- A stored word is read: one or two errors are corrected and written back; answers whether it can be read (spec/15 R404). -/
def vaultWord (s : State) (w : Nat) : State × Bool :=
  let e := mget [] s.fw.verr w
  if e = [] then (s, true)
  else if e.length ≤ 2 then
    ((setFw s { s.fw with verr := mdel s.fw.verr w }).raise (eccFault 12 1 0 0 (8 * w) 0 e), true)
  else (s.raise (eccFault 12 2 1 0 (8 * w) 0 e), false)

/-- Every word of a range of the vault is read. -/
def vaultScan (s : State) (off n : Nat) : State × Bool :=
  (s.fw.verr.filter fun e => decide (off / 8 ≤ e.1 ∧ e.1 < (off + n + 7) / 8)).foldl (fun a e =>
    let (s, ok) := vaultWord a.1 e.1
    (s, a.2 && ok)) (s, true)

/-- A slot that is active holds the running image. -/
def slotActive (s : State) (slot : Nat) : Bool := s.f F.FW_STAT_STATE == 2 && s.f F.FW_STAT_ACTIVESLOT == slot

/-- A write of FW_VAULT_DATA is accepted (spec/15 R403). -/
def vaultWrites (s : State) : Bool :=
  let off := s.f F.FW_VAULT_ADDR_ADDR * 8
  s.fb F.FW_STAT_VAULTREADY && decide (off < slotsBytes) && !slotActive s (off / slotBytes) && s.f F.FW_STAT_STATE != 1
    && (s.f F.FW_UPDATE_STATE == 0 || s.f F.FW_UPDATE_STATE == 5)

/-- ADDR advances when AUTOINC is set. -/
def vaultNext (s : State) : State := if s.fb F.FW_VAULT_ADDR_AUTOINC then s.incF F.FW_VAULT_ADDR_ADDR 0 else s

/-- FW_VAULT_DATA_ACCESS: the state, the value read, and whether the word was readable. -/
def vaultAccess (s : State) (wr : Bool) (v : W64) : State × W64 × Bool :=
  if s.ctlOn = false then (s, 0, true)
  else
    let off := s.f F.FW_VAULT_ADDR_ADDR * 8
    if wr then
      (vaultNext (if vaultWrites s then vaultStore s off v else s.setF F.FW_VAULT_ADDR_ERR 0 1), 0, true)
    else if slotsBytes ≤ off then (vaultNext s, 0, true)
    else
      let (s, ok) := vaultWord s (off / 8)
      (vaultNext s, if ok then BitVec.ofNat 64 (ofBytes (vaultBytes s off 8)) else 0, ok)

/-- VAULT_ZEROED (spec/15 R403, spec/18 R494). -/
def vaultZeroed (s : State) : State :=
  if s.rst ≠ 0 ∨ s.fb F.FW_STAT_VAULTREADY then s
  else
    let s := (setFw s { s.fw with vault := [], verr := [], saved := false }).setF F.FW_STAT_VAULTREADY 0 1
    let s := s.setF F.INT_STARTUP_VAULTREADY 0 1
    if s.f F.INT_STARTUP_STEP = 2 then s.setF F.INT_STARTUP_STEP 0 3 else s

/-! ### Postmarks (spec/15 R412, R413) -/

/-- Postmarks that wait are written while the ring has space. -/
def markWrite (s : State) (ws : List W64) : State :=
  let n := s.f F.FW_LOG_CFG_LOG2
  let c := s.f F.FW_LOG_POS_POS
  if (BitVec.ofNat 32 c - BitVec.ofNat 32 (s.f F.FW_LOG_HEAD_HEAD)).toNat < 2 ^ n then
    (s.setF F.FW_LOG_POS_POS 0 (c + 1)).startOp (mkOp .postmark ⟨0, none, true⟩ 112
      (.spans [⟨0, 32, s.f F.FW_LOG_BASE_BASE * 4096 + 32 * (c % 2 ^ n), .mem false 0⟩]) 0 32 true (bytesOf (withPhase n (BitVec.ofNat 32 c) ws)))
  else s.satF F.FW_LOG_DROP_DROPPED 0

/-- A core makes a postmark. SEQ counts the postmarks that FW_LOG_CFG lets reach the log unit (log 117). -/
def mkMark (s : State) (core level point : Nat) (a0 a1 : W64) : State :=
  if s.fb F.FW_LOG_CFG_EN = false ∨ (s.f F.FW_LOG_CFG_CORES).testBit core = false ∨ level < s.f F.FW_LOG_CFG_LEVEL ∨ s.flt.halt ≥ 6 then s
  else
    let ws := [BitVec.ofNat 64 (core % 8 * 2 ^ 60 + level % 4 * 2 ^ 58 + point % 65536 * 2 ^ 32 + s.obs.pmSeq % 2 ^ 32), BitVec.ofNat 64 s.time, a0, a1]
    let s := setObs s { s.obs with pmSeq := s.obs.pmSeq + 1 }
    markWrite (if s.fb F.OBS_TRC_CFG_PM then traceItem s 2 ws else s) ws

/-- A postmark's write has been answered (spec/15 R412). -/
def markWritten (s : State) : State := if s.fb F.FW_LOG_CFG_IRQ then s.irqG 3 else s

/-- POSTMARK: a point of the edition's own table; the points below 0x100 are written by their events. -/
def firmwareMark (s : State) (core level point : Nat) (a0 a1 : W64) : State :=
  if 6 ≤ core ∨ point < 0x100 ∨ s.coreUp core = false ∨ s.ctlOn = false then s else mkMark s core level (point % 65536) a0 a1

/-! ### Checks at verification (spec/15 R405 to R407) -/

/-- Words of an image's header. -/
def imgWord (s : State) (base i : Nat) : W64 := BitVec.ofNat 64 (ofBytes (vaultBytes s (base + 8 * i) 8))
def imgLength (s : State) (base : Nat) : Nat := fieldOf (imgWord s base 1) 31 0
def imgEdition (s : State) (base : Nat) : Nat := fieldOf (imgWord s base 1) 63 32
def imgRollback (s : State) (base : Nat) : Nat := fieldOf (imgWord s base 0) 15 8

/-- The sections obey R405. -/
def sectionOk (s : State) (base i : Nat) : Bool :=
  let w := imgWord s base (3 + i)
  let o := fieldOf w 63 32
  let n := fieldOf w 31 0
  decide (512 ≤ o) && o % 64 == 0 && decide (o + n ≤ imgLength s base - 96) && decide (n ≤ if i = 3 then 65536 else 524288)

def headerGood (s : State) (base : Nat) : Bool :=
  let w0 := imgWord s base 0
  fieldOf w0 63 32 == 0x57465A55 && fieldOf w0 31 24 == 1 && fieldOf (imgWord s base 2) 47 0 == 0 && (List.range 4).all (sectionOk s base)
    && (vaultBytes s (base + 56) 200).all (· == 0) && (vaultBytes s (base + 353) 159).all (· == 0)

/-- The first failing check; 0 when every one passes. -/
def imageCause (s : State) (base : Nat) : Nat :=
  let w0 := imgWord s base 0
  let n := imgLength s base
  let key := vaultBytes s (base + 256) 97
  let b := fieldOf (imgWord s base 2) 63 48
  if n % 8 ≠ 0 ∨ n < 1024 ∨ 1572864 < n then 1
  else if headerGood s base = false then 2
  else if 3 < fieldOf w0 23 16 ∨ ofBE (sha384 key) ≠ Config.romKey (fieldOf w0 23 16) % 2 ^ 384 then 3
  else if ecdsaVerify key (vaultBytes s (base + n - 96) 96) (vaultBytes s base (n - 96)) = false then 4
  else if 0x41 < b / 256 ∨ b % 256 < 0x41 then 5
  else if fieldOf w0 3 0 ≠ 7 ∨ fieldOf w0 7 4 ≠ 7 then 6
  else if fieldOf w0 15 8 < s.f F.FW_STAT_FLOOR then 7
  else 0

/-- Reads a slot's image and applies the checks; an uncorrectable word of what they read rejects with cause VAULT. -/
def verifySlot (s : State) (slot : Nat) : State × Nat :=
  let base := slot * slotBytes
  let (s, ok) := vaultScan s base 512
  if ok = false then (s, 8)
  else
    let c := imageCause s base
    if c = 1 ∨ c = 2 ∨ c = 3 then (s, c)
    else
      let (s, ok) := vaultScan s base (imgLength s base)
      (s, if ok then c else 8)

/-- FW_DIGEST, EDITION and ROLLBACK take a slot's values, and it is active. -/
def takeImage (s : State) (slot : Nat) : State :=
  let base := slot * slotBytes
  let d := wordsOf 6 (sha384 (vaultBytes s base (imgLength s base - 96)))
  let s := (List.range 6).foldl (fun s i => s.setF F.FW_DIGEST_DIGEST i (d.getD i 0).toNat) s
  ((s.setF F.FW_STAT_EDITION 0 (imgEdition s base)).setF F.FW_STAT_IMAGERB 0 (imgRollback s base)).setF F.FW_STAT_ACTIVESLOT 0 slot

/-- IMAGE_REJECTED (spec/13 R354). -/
def imageRejected (s : State) : State := s.raise (hwFault 8 5 0 false none 0)

/-- GO is accepted once the vault is zeroed: the settings are read, then the checks begin (spec/15 R407, spec/18 R495). -/
def goWrite (s : State) (v : Nat) : State :=
  if hostOk s = false then s
  else
    let s := s.setF F.FW_BOOT_SLOT 0 (v / 2 % 2)
    if v % 2 = 0 ∨ s.fb F.FW_STAT_VAULTREADY = false ∨ (s.f F.FW_STAT_STATE ≠ 0 ∧ s.f F.FW_STAT_STATE ≠ 3) then s
    else readLog ((setFw (s.setF F.FW_STAT_STATE 0 1) { s.fw with slot := v / 2 % 2 }).setF F.INT_STARTUP_STEP 0 4)

/-! ### The cores run -/

/-- The postmaster takes the caps from the fallback governor (spec/14 R396). -/
def endFallback (s : State) : State := s.setF F.PWR_STAT_FALLBACK 0 0

/-- Every core is started and writes CORE_STARTED (spec/15 R408). -/
def startCores (s : State) : State :=
  let s := (List.range 6).foldl (fun s k => s.setF F.FW_CORE_STATE k 1) s
  let ed := BitVec.ofNat 64 (s.f F.FW_STAT_EDITION)
  let s := (List.range 6).foldl (fun s k => mkMark s k 1 1 ed (BitVec.ofNat 64 (s.f F.FW_STAT_IMAGERB))) s
  endFallback s

/-- The scheduler starts with window 0 once the sorters run (spec/18 R494 step 6). -/
def readyState (s : State) : State :=
  let s := { s with sch := { s.sch with started := true, pos := 0, posAt := s.time } }
  let s := beginWindow (s.setF F.SCH_CYCLE_T_T0 0 s.time) 0 false
  deliverLatched ((s.setF F.INT_STARTUP_STEP 0 6).setF F.INT_STARTUP_READYUS 0 (s.time / 1000))

/-- VERIFICATION_DONE of GO (spec/15 R408, R409; log 118). -/
def bootVerified (s : State) : State :=
  let slot := s.fw.slot
  let (s, c) := verifySlot s slot
  if c = 0 then
    let s := takeImage s slot
    readyState (startCores ((s.setF F.FW_STAT_STATE 0 2).setF F.FW_STAT_REJECT 0 0))
  else imageRejected (((s.setF F.FW_STAT_STATE 0 3).setF F.FW_STAT_REJECT 0 c).setF F.INT_STARTUP_STEP 0 7)

/-- The staging slot. -/
def stagingSlot (s : State) : Nat := 1 - s.f F.FW_STAT_ACTIVESLOT

/-- VERIFICATION_DONE of STAGE (spec/15 R421). -/
def stageVerified (s : State) : State :=
  let slot := stagingSlot s
  let (s, c) := verifySlot s slot
  if c = 0 then
    let s := ((s.setF F.FW_UPDATE_STATE 0 2).setF F.FW_UPDATE_REJECT 0 0).setF F.FW_STAGED_EDITION 0 (imgEdition s (slot * slotBytes))
    mkMark s 4 1 0x20 (BitVec.ofNat 64 (s.f F.FW_STAGED_EDITION)) 0
  else imageRejected ((s.setF F.FW_UPDATE_STATE 0 5).setF F.FW_UPDATE_REJECT 0 c)

/-- VERIFICATION_DONE. -/
def verificationDone (s : State) : State :=
  if s.ctlOn = false ∨ s.flt.halt ≠ 0 then s
  else if s.f F.FW_STAT_STATE = 1 then (if s.cmt.job.isSome then s else bootVerified s)
  else if s.f F.FW_UPDATE_STATE = 1 ∧ postRuns s then stageVerified s
  else s

/-! ### Crash and restart (spec/15 R414 to R420) -/

/-- Queues a sorter owns and that are not DISABLED. -/
def sorterQueues (s : State) (k : Nat) : List Nat := (s.qs.filter fun e => e.1 % 2 == k && e.2.st != .disabled).map (·.1)

/-- A queue is frozen, recording its state (spec/02 R52). -/
def freezeQueue (s : State) (q : Nat) : State :=
  let Q := s.q q
  if Q.st = .frozen ∨ Q.st = .disabled then s
  else
    let s := dropScan s q
    s.setQ q { s.q q with prior := Q.st, st := .frozen }

/-- What becomes of a trapped command of a crashed sorter: PDEF and PPATCH release their claim, and with SNAP run again (spec/15 R418). -/
def dropTrapped (s : State) (c : Cmd) : State :=
  let again : Bool := match c.body with
    | .pdef .. => true
    | .ppatch .. => true
    | .snap .. => true
    | _ => false
  if again = false ∨ c.st ≠ .running then s
  else
    let s := { s with ops := s.ops.filter fun o => purposeCmd o.pur != some c.id }
    let s := releaseClaim s c.id
    setFw s { s.fw with again := s.fw.again ++ [c.id] }

/-- Sorter `k` crashes (spec/15 R417, R418). -/
def sorterCrash (s : State) (k : Nat) : State :=
  let s := (sorterQueues s k).foldl freezeQueue s
  (s.cmds.filter fun c => c.q % 2 == k).foldl dropTrapped s

/-- Cores that restart together: both of the postmaster. -/
def coreGroup (k : Nat) : List Nat := if k = 4 ∨ k = 5 then [4, 5] else [k]

/-- The fault of a core's role: SORTER_RESTART, RELAY_RESTART, POSTMASTER_RESTART. -/
def restartFault (k : Nat) : Flt := hwFault 8 (if k ≤ 1 then 1 else if k ≤ 3 then 2 else 3) k true none 0

/-- A core crashes with a cause (spec/15 R414, R415). -/
def crashCore (s : State) (k cause : Nat) : State :=
  if 6 ≤ k ∨ s.coreUp k = false ∨ s.ctlOn = false ∨ s.flt.halt ≠ 0 then s
  else
    let s := (coreGroup k).foldl (fun s j => s.setF F.FW_CORE_STATE j 2) (s.setF F.FW_CORE_CAUSE k cause)
    let s := s.raise (restartFault k)
    let s := setFw s { s.fw with failed := s.fw.failed.filter (· != k) }
    -- an entry into DORMANT stops at its current step (spec/15 R425)
    let s := if s.f F.PWR_STATE_STATE = 4 ∧ s.pwr.sleepTo = 3 then setPwr s { s.pwr with wakeDue := true } else s
    if k ≤ 1 then sorterCrash s k else if k ≤ 3 then relayCrash s (k - 2) else cmtCrash (startFallback s)

/-- CORE_WATCHDOG_EXPIRY. -/
def coreWatchdog (s : State) (k : Nat) : State := crashCore s k 1

/-- CORE_CRASH: MEMORY or EXCEPTION. -/
def coreCrash (s : State) (k cause : Nat) : State := if cause = 2 ∨ cause = 3 then crashCore s k cause else s

/-- LOCKSTEP: a FATAL fault; the postmaster is not restarted (spec/15 R414). -/
def lockstep (s : State) : State :=
  if postRuns s = false ∨ s.flt.halt ≠ 0 then s
  else
    let s := [4, 5].foldl (fun s j => (s.setF F.FW_CORE_STATE j 3).setF F.FW_CORE_CAUSE j 4) s
    let s := cmtCrash (startFallback s)
    s.raise { hwFault 8 6 0 false none 0 with cls := 2 }

/-- A queue leaves FROZEN for its recorded state (spec/02 R52). -/
def unfreeze (s : State) (q : Nat) : State := s.setQ q { s.q q with st := (s.q q).prior }

/-- A queue that has left FROZEN goes on: a request held meanwhile, and a scan again from the held position (spec/02 R59, spec/15 R417). -/
def resumeQueue (s : State) (q : Nat) : State :=
  let Q := s.q q
  let s := s.setQ q { Q with held := none, scanning := Q.st == .active }
  let s := match Q.held with
    | some w => request s q w
    | none => s
  queueSettle s q

/-- The buffered records of some queues are written in arrival order (spec/15 R417). -/
def drainBuffer (s : State) (l : List Nat) : State :=
  let s := (s.cbuf.filter fun e => l.contains e.1).foldl (fun s e => writeRecs e.2 s e.1) { s with cbuf := s.cbuf.filter fun e => !l.contains e.1 }
  l.foldl (fun s q => writeRecs (s.q q).recs.length s q) s

/-- Commands that run again when their sorter runs (spec/15 R418). -/
def runAgain (s : State) (k : Nat) : State :=
  let ids := s.fw.again
  let s := setFw s { s.fw with again := ids.filter fun i => !((s.cmd? i).map fun c => c.q % 2 == k).getD true }
  ids.foldl (fun s i => match s.cmd? i with
    | some c => if c.q % 2 = k then runCmd (s.setCmd { c with aux := 0, buf := [], nxt := 0 }) i else s
    | none => s) s

/-- Sorter `k` writes the records of the buffered completions and BUFFER_DRAINED, and rescans its queues (spec/15 R417). -/
def sorterBack (s : State) (k : Nat) : State :=
  let l := sorterQueues s k
  let fz := l.filter fun q => (s.q q).st == .frozen
  let n := (s.cbuf.filter fun e => l.contains e.1).length
  let s := drainBuffer (fz.foldl unfreeze s) l
  let s := mkMark s k 1 0x11 (BitVec.ofNat 64 n) (BitVec.ofNat 64 fz.length)
  fz.foldl resumeQueue s

/-- Sorter `k` runs again (spec/15 R417, R418). -/
def sorterReturn (s : State) (k : Nat) : State := deliverLatched (runAgain (sorterBack s k) k)

/-- A command of FAB_LCTL acts on its link (spec/11 R301). -/
def lctlGo (s : State) (l cmd : Nat) : State :=
  match cmd with
  | 1 => linkOn s l
  | 2 => parkLink s l 1
  | 3 => disableLink s l
  | _ => s

/-- A write of FAB_LCTL: while the postmaster restarts, or is HALTED, it waits until the postmaster runs again (spec/11 R301, spec/15 R420; log 119). -/
def lctlWrite (s : State) (l cmd : Nat) : State :=
  if hostOk s = false then s
  else if 2 ≤ s.f F.FW_CORE_STATE 4 ∨ 2 ≤ s.f F.FW_CORE_STATE 5 then setFw s { s.fw with lctl := s.fw.lctl ++ [(l, cmd)] }
  else lctlGo s l cmd

/-- The writes of FAB_LCTL that waited for the postmaster take effect, in order. -/
def lctlResume (s : State) : State := s.fw.lctl.foldl (fun s e => lctlGo s e.1 e.2) (setFw s { s.fw with lctl := [] })

/-- Vault offset and length of the code section of a core in the active slot. -/
def codeSection (s : State) (k : Nat) : Nat × Nat :=
  let base := s.f F.FW_STAT_ACTIVESLOT * slotBytes
  let w := imgWord s base (3 + (if k ≤ 1 then 0 else if k ≤ 3 then 1 else 2))
  (base + fieldOf w 63 32, fieldOf w 31 0)

/-- The core stays HALTED until WRESET_N (spec/15 R416). -/
def haltCore (s : State) (k : Nat) : State :=
  (coreGroup k).foldl (fun s j => (s.setF F.FW_CORE_STATE j 3).setF F.FW_CORE_CAUSE j 5) s

/-- A core runs again (spec/15 R415 step 3). -/
def coreRuns (s : State) (k : Nat) : State :=
  let s := (coreGroup k).foldl (fun s j => (s.setF F.FW_CORE_STATE j 1).satF F.FW_CORE_RESTARTS j) s
  let c := (coreGroup k).foldl (fun m j => if s.f F.FW_CORE_CAUSE j = 0 then m else s.f F.FW_CORE_CAUSE j) (s.f F.FW_CORE_CAUSE k)
  let s := mkMark s k 2 0x10 (BitVec.ofNat 64 c) (BitVec.ofNat 64 (s.f F.FW_CORE_RESTARTS k))
  let s := s.noteFw 1
  -- during an activation the queues stay FROZEN until its step 5
  if k ≤ 1 then (if s.f F.FW_UPDATE_STATE = 4 then runAgain s k else sorterReturn s k) else if k ≤ 3 then s else lctlResume (cmtReturn (endFallback s))

/-- CORE_RELOAD_COMPLETE (spec/15 R415, R416). -/
def reloadComplete (s : State) (k : Nat) : State :=
  if 6 ≤ k ∨ s.f F.FW_CORE_STATE k ≠ 2 ∨ s.ctlOn = false ∨ s.flt.halt ≠ 0 then s
  else
    let (o, n) := codeSection s k
    let (s, ok) := vaultScan s o n
    if ok then coreRuns (setFw s { s.fw with failed := s.fw.failed.filter (· != k) }) k
    else if s.fw.failed.contains k then haltCore s k
    else setFw s { s.fw with failed := s.fw.failed ++ [k] }

/-! ### Staged updates (spec/15 R421 to R424) -/

/-- FW_UPDATE STAGE. -/
def stage (s : State) : State :=
  if hostOk s = false ∨ (s.f F.FW_UPDATE_STATE ≠ 0 ∧ s.f F.FW_UPDATE_STATE ≠ 5) then s
  else (s.setF F.FW_UPDATE_STATE 0 1).setF F.FW_UPDATE_DEFER 0 0

/-- FW_UPDATE CANCEL (spec/15 R423). -/
def updateCancel (s : State) : State :=
  let st := s.f F.FW_UPDATE_STATE
  if hostOk s = false ∨ (st ≠ 1 ∧ st ≠ 2 ∧ st ≠ 3) then s
  else mkMark ((s.setF F.FW_UPDATE_STATE 0 0).setF F.FW_UPDATE_DEFER 0 0) 4 1 0x23 (BitVec.ofNat 64 (s.f F.FW_STAGED_EDITION)) 0

/-- A command that traps to firmware is in progress (spec/03 R70, spec/15 R422). -/
def trappedRuns (s : State) : Bool := s.cmds.any fun c => traps c.r3 c.body && c.st != .held

/-- The lowest failing condition for activation; 0 when all hold (spec/15 R422). -/
def activationCode (s : State) : Nat :=
  if s.fb F.PWR_STATE_EMERG then 1
  else if (s.pwr.emergEnd.map fun t => decide (s.time < t + 100000000)).getD false then 2
  else if (List.range 6).any (fun k => decide (2 ≤ s.f F.FW_CORE_STATE k)) ∨ trappedRuns s ∨ s.colls ≠ [] ∨ 2 ≤ s.f F.PWR_STATE_STATE then 3
  else if s.f F.ECH_STAT_PAIR ≠ 0 ∧ s.f F.ECH_STAT_PAIR ≠ 4 then 4
  else if s.fb F.FLT_FATAL_VALID then 5
  else 0

/-- A pending update is deferred while a condition fails (spec/15 R423). -/
def updateSettle (s : State) : State :=
  let st := s.f F.FW_UPDATE_STATE
  if st ≠ 2 ∧ st ≠ 3 then s
  else
    let c := activationCode s
    let old := s.f F.FW_UPDATE_DEFER
    let s := (s.setF F.FW_UPDATE_STATE 0 (if c = 0 then 2 else 3)).setF F.FW_UPDATE_DEFER 0 c
    if c ≠ old ∧ [1, 2, 4].contains c then
      mkMark s 4 1 0x21 (BitVec.ofNat 64 c) (BitVec.ofNat 64 (if s.fb F.PWR_STATE_EMERG then 0 else s.pwr.emergEnd.getD 0))
    else s

/-- The sorters go on after an activation: the buffers are drained and every queue is rescanned. -/
def resumeSorters (s : State) : State := deliverLatched ([0, 1].foldl sorterBack s)

/-- Every code section and the header of a slot are read. -/
def loadSlot (s : State) (slot : Nat) : State × Bool :=
  vaultScan s (slot * slotBytes) (imgLength s (slot * slotBytes))

/-- The old image goes on, the update is rejected (spec/15 R404, R424). -/
def keepOld (s : State) (cause : Nat) : State :=
  resumeSorters (startCores ((s.setF F.FW_UPDATE_STATE 0 5).setF F.FW_UPDATE_REJECT 0 cause))

/-- Steps 2 to 5 of the activation sequence (spec/15 R424). -/
def activate (s : State) : State :=
  let old := s.f F.FW_STAT_EDITION
  let slot := stagingSlot s
  if imgRollback s (slot * slotBytes) < s.f F.FW_STAT_FLOOR then keepOld s 7
  else
    let (s, ok) := loadSlot s slot
    if ok = false then keepOld s 8
    else
      -- the postmaster has been reset too: its use of the K-port begins again (spec/16 R441, R444)
      let s := cmtReturn (resumeSorters (startCores (takeImage (cmtCrash s) slot)))
      let s := mkMark s 4 1 0x22 (BitVec.ofNat 64 (s.f F.FW_STAT_EDITION)) (BitVec.ofNat 64 old)
      let s := (s.setF F.FW_UPDATE_STATE 0 0).noteFw 2
      setObs s { s.obs with hdrDue := true, rpStale := s.f F.OBS_RP_STAT_STATE == 1 }

/-- QUIET_POINT: the first takes step 1 of the activation sequence, the next one steps 2 to 5 (spec/15 R422, R424; log 64). -/
def quietPoint (s : State) : State :=
  if postRuns s = false ∨ s.flt.halt ≠ 0 then s
  else if s.f F.FW_UPDATE_STATE = 4 then activate s
  else if s.f F.FW_UPDATE_STATE ≠ 2 ∨ activationCode s ≠ 0 then s
  else startFallback ((s.qs.map (·.1)).foldl freezeQueue (s.setF F.FW_UPDATE_STATE 0 4))

end Sys2Proof.Machine
end

