-- ==== Sys2Proof/Machine/WakeOps.lean ====
section
/-! DEFINITION. Domain acknowledgements (spec/14 R373), level grants, the wake sequence (spec/14 R381), and the start-up sequence (spec/18 R494). -/

namespace Sys2Proof.Machine

/-! ### Domain acknowledgements (spec/14 R373) -/

/-- A station's registers and stores return to their reset values (spec/19 R501). -/
def clearStn (s : State) (n : Nat) : State :=
  let own (k : Nat) : Bool := (decide (F.STN_AFLAGS_ALIGN.n ≤ k / 65536 ∧ k / 65536 < F.STN_X_VALUE.n) && k % 65536 == n)
    || (k / 65536 == F.STN_X_VALUE.n && k % 65536 / 16 == n)
  { s with flds := s.flds.filter (fun e => !own e.1), stns := mdel s.stns n }

/-- What a domain's acknowledgement sets in motion. -/
def domSettled (s : State) (d code : Nat) : State :=
  match domKind s.b d with
  | 0 => chamberAck s (d / 16) (d % 16) code
  | 1 => if code = 3 then chambersGo s (d - s.b.domLogic 0) else s
  | 2 => if code = 0 then clearStn s (d - s.b.domStation 0) else s
  | _ => s

/-- DOMAIN_ACK: the domain takes the state requested; a request that waited goes out. -/
def domainAck (s : State) (d : Nat) : State :=
  if aonOn s = false ∨ domWaits s d = false then s
  else
    let code := s.f F.PWR_DOM_REQ d
    let nxt := s.pwr.domNext.find? (·.1 == d)
    let s := setPwr s { s.pwr with domAt := mdel s.pwr.domAt d, domNext := mdel s.pwr.domNext d, retryAt := mdel s.pwr.retryAt d,
                                   retried := s.pwr.retried.filter (· != d) }
    let s := s.setF F.PWR_DOM_STATE d code
    let s := if s.fb F.PWR_DOM_FAILED d then s else domSettled s d code
    match nxt with
    | some e => reqDom s d e.2
    | none => s

/-- DOMAIN_TIMEOUT: the domain is FAILED, a fault names it; a bank, core or miscellaneous domain is requested again once, 1 ms later. -/
def domainTimeout (s : State) (d : Nat) : State :=
  match s.pwr.domAt.find? (·.1 == d) with
  | none => s
  | some e =>
    if aonOn s = false ∨ e.2.2 ∨ s.time < e.2.1 + max 1 (s.f F.PWR_CFG_DOMTMO) * 1000 then s
    else
      let s := setPwr s { s.pwr with domAt := mset s.pwr.domAt d (e.2.1, true) }
      let s := (s.setF F.PWR_DOM_FAILED d 1).raise (hwFault 9 5 d true none 0)
      if 5 ≤ domKind s.b d ∧ s.pwr.retried.contains d = false then setPwr s { s.pwr with retryAt := mset s.pwr.retryAt d (s.time + 1000000) } else s

/-- A domain is requested again as it is. -/
def resendDom (s : State) (d : Nat) : State := sendDom (s.setF F.PWR_DOM_FAILED d 0) d (s.f F.PWR_DOM_REQ d)

/-- DOMAIN_RETRY. -/
def domainRetry (s : State) (d : Nat) : State :=
  match s.pwr.retryAt.find? (·.1 == d) with
  | none => s
  | some e =>
    if aonOn s = false ∨ s.time < e.2 then s
    else resendDom (setPwr s { s.pwr with retryAt := mdel s.pwr.retryAt d, retried := addTo s.pwr.retried d }) d

/-- PWR_DOM_FAILED_WRITE: a FAILED domain is requested again. -/
def domFailedWrite (s : State) (d : Nat) : State :=
  if s.ctlOn = false ∨ s.b.domains ≤ d ∨ s.fb F.PWR_DOM_FAILED d = false then s
  else resendDom (setPwr s { s.pwr with retryAt := mdel s.pwr.retryAt d }) d

/-- LEVEL_GRANT: the clock of an island runs at the level requested for it (spec/18 R489). -/
def levelGrant (s : State) (i : Nat) : State :=
  if aonOn s = false ∨ i = 0 ∨ leveled s.b < i then s else setPwr s { s.pwr with granted := mset s.pwr.granted i (levelOf s i) }

/-- The control island has been granted the level requested. -/
def ctlGranted (s : State) : Bool := s.pwr.granted.any fun e => e.1 == 1 && e.2 == levelOf s 1

/-! ### The wake sequence (spec/14 R381) -/

/-- The stored image of the active slot still has its digest (spec/15 R425). -/
def imageIntact (s : State) : State × Bool :=
  let base := s.f F.FW_STAT_ACTIVESLOT * slotBytes
  let (s, ok) := vaultScan s base (imgLength s base)
  (s, ok && (List.range 6).all fun i => s.f F.FW_DIGEST_DIGEST i == ((wordsOf 6 (sha384 (vaultBytes s base (imgLength s base - 96)))).getD i 0).toNat)

/-- What a wake from DORMANT has lost: the translation caches, the waiter pool, and the pigeonhole table unless it was retained (spec/14 R379). -/
def dormantLost (s : State) : State :=
  let s := { s with xlt := { s.xlt with stc := [], etb := [] }, waits := [], watches := [] }
  if s.fb F.PWR_CFG_PHRET then s else { s with ph := [] }

/-- Step 2 of a wake from DORMANT; the wake stops there, at the model's step 8, when the digest differs. -/
def dormantCheck (s : State) : State :=
  if s.f F.FW_STAT_STATE ≠ 2 then setPwr (dormantLost s) { s.pwr with step := 3 }
  else
    let (s, ok) := imageIntact s
    if ok then
      let s := dormantLost s
      setPwr s { s.pwr with step := 3 }
    else
      let s := (List.range 6).foldl (fun s k => (s.setF F.FW_CORE_STATE k 3).setF F.FW_CORE_CAUSE k 5) s
      (setPwr s { s.pwr with step := 8 }).raise (hwFault 12 2 0 true none 0)

/-- The wake sequence from its present step; one step at a time. -/
def wakeStep (s : State) : State :=
  let b := s.b
  match s.pwr.step with
  | 1 => if stepWaits s (b.domBank 0) b.domains ∨ ctlGranted s = false then s else setPwr s { s.pwr with step := 2 }
  | 2 =>
    if s.pwr.fromDormant = false then setPwr s { s.pwr with step := 3 }
    else dormantCheck s
  | 3 =>
    let s := reqAll s (b.domLogic 0) b.halls 3
    if stepWaits s (b.domLogic 0) (b.domStation 0) then s
    else if s.pwr.ovr ≠ [] then (List.range b.halls).foldl chambersGo (setPwr s { s.pwr with ovr := [] })
    else if chambersMove s then s
    else
      let s := reqAll s (b.domStation 0) b.stations 3
      let ls := s.pwr.links
      ls.foldl linkOn (setPwr s { s.pwr with links := [], step := 4 })
  | 4 => if stepWaits s (b.domStation 0) (b.domLink 0) then s else setPwr s { s.pwr with step := 5 }
  | 5 => setPwr s { s.pwr with step := 6 }
  | 6 =>
    let s := (setPwr s { s.pwr with step := 0, fromDormant := false }).setF F.PWR_STATE_STATE 0 0
    deliverLatched (ttRun (linesBack s))
  | _ => s

/-- The present step of the entry sequence has not ended. -/
def entryWaits (s : State) : Bool :=
  match s.pwr.step with
  | 3 => chambersMove s
  | 5 => stepWaits s (s.b.domStation 0) (s.b.domBank 0)
  | 6 => stepWaits s (s.b.domLogic 0) (s.b.domStation 0)
  | 7 => stepWaits s (s.b.domBank 0) s.b.domains
  | _ => false

/-- The entry and wake sequences run as far as they can; a wake event stops the entry after its current step (spec/14 R398). -/
def pwrSettle : Nat → State → State
  | 0, s => s
  | n + 1, s =>
    if s.rst ≠ 0 then s
    else if s.f F.PWR_STATE_STATE = 4 then
      if s.flt.halt ≥ 3 then s
      else if s.pwr.wakeDue then (if entryWaits s then s else pwrSettle n (startWake s))
      else
        let t := entryStep s
        if t.pwr.step = s.pwr.step ∧ t.f F.PWR_STATE_STATE = 4 then t else pwrSettle n t
    else if s.f F.PWR_STATE_STATE = 5 then
      let t := wakeStep s
      if t.pwr.step = s.pwr.step ∧ t.f F.PWR_STATE_STATE = 5 ∧ t.pwr.ovr = s.pwr.ovr then t else pwrSettle n t
    else s

/-! ### Start-up (spec/18 R494) -/

/-- Step 3 of the start-up sequence: the control island leaves reset, hall logic and stations are requested ON, every E-port sends RESET. -/
def controlStarts (s : State) : State :=
  let b := s.b
  let s := s.setF F.INT_STARTUP_STEP 0 (if s.fb F.FW_STAT_VAULTREADY then 3 else 2)
  let s := reqAll (reqAll s (b.domLogic 0) b.halls 3) (b.domStation 0) b.stations 3
  (List.range b.eports).foldl resetEngine s

/-- The control island starts once its domains are acknowledged and its level is granted. -/
def startSettle (s : State) : State :=
  if s.rst = 0 ∧ s.f F.INT_STARTUP_STEP = 1 ∧ stepWaits s (s.b.domBank 0) s.b.domains = false ∧ ctlGranted s then controlStarts s else s

end Sys2Proof.Machine
end

