-- ==== Sys2Proof/Machine/PartOps.lean ====
section
/-! DEFINITION. Partition states, the disable sequence and the set-up mailbox (spec/16 R427 to R436). -/

namespace Sys2Proof.Machine

/-- Sets or clears a bit of a one-word field. -/
def setBitF (s : State) (x : Fld) (i : Nat) (v : Bool) : State :=
  if (s.f x).testBit i = v then s else s.setF x 0 (if v then s.f x + 2 ^ i else s.f x - 2 ^ i)

def setPrt (s : State) (p : Nat) (d : PrtDis) : State := { s with prt := mset s.prt p d }
def State.dis (s : State) (p : Nat) : PrtDis := mget {} s.prt p

/-- The letterbook's record of a write of PRT_CTL (spec/17 R456). -/
def notePrt (s : State) (p cmd : Nat) : State := hostWr s none (0x120000 + 0x400 * p) cmd

/-! ### Enable (spec/16 R427, R428) -/

/-- Partitions that are not DISABLED. -/
def liveParts (s : State) : Nat := ((List.range 64).filter fun p => s.f F.PRT_STAT_STATE p != 0).length

/-- PRT_CTL ENABLE: refused with MAX when as many partitions as PARTITION_MAX are not DISABLED; an accepted one clears REFUSE (log 118). -/
def partEnable (s : State) (p : Nat) : State :=
  if hostOk s = false ∨ 64 ≤ p then s
  else
    let s := notePrt s p 1
    if s.f F.PRT_STAT_STATE p ≠ 0 then s
    else if settingOf s 7 0 ≤ liveParts s then s.setF F.PRT_STAT_REFUSE p 1
    else (s.setF F.PRT_STAT_STATE p 1).setF F.PRT_STAT_REFUSE p 0

/-! ### The disable sequence (spec/16 R435, R436) -/

/-- The queues of a partition that are not DISABLED. -/
def partQueues (s : State) (p : Nat) : List Nat := (s.qs.filter fun e => e.2.st != .disabled && s.qPart e.1 == p).map (·.1)

/-- Answers a mailbox request: word 0 echoes CODE and SEQ; DONE; INTREQ[p] (spec/16 R434). Words 1 to 7, which name what was granted, are 0 (log 120). -/
def mboxAnswer (s : State) (p result : Nat) : State :=
  let r := BitVec.ofNat 64 (s.f F.PRT_MBOX_REQ_WORD (8 * p))
  let s := s.setF F.PRT_MBOX_RSP_WORD (8 * p) (fieldOf r 63 56 * 2 ^ 56 + result * 2 ^ 48 + fieldOf r 47 32 * 2 ^ 32)
  let s := (List.range 7).foldl (fun s k => s.setF F.PRT_MBOX_RSP_WORD (8 * p + 1 + k) 0) s
  (setBitF (s.setF F.PRT_MBOX_CTL_STATE p 3) F.PRT_PEND_PEND p false).irqP p

/-- Steps 1 and 2, which end at once; step 3 begins. -/
def disableBegin (s : State) (p : Nat) (abort : Bool) : State :=
  let s := (((s.setF F.PRT_STAT_STATE p 2).setF F.PRT_STAT_ABORT p abort.toNat).setF F.PRT_STAT_STEP p 3).setF F.PRT_STAT_REFUSE p 0
  let s := (s.setIdx F.GAL_PW_DROP_CTL_OPEN).foldl (fun s w => if s.f F.GAL_DROP_OWNER w = p then s.setF F.GAL_PW_DROP_CTL_OPEN w 0 else s) s
  let s := if s.f F.PRT_MBOX_CTL_STATE p = 1 ∨ s.f F.PRT_MBOX_CTL_STATE p = 2 then mboxAnswer s p 4 else s
  let s := setPrt s p { at3 := s.time }
  (partQueues s p).foldl (fun s q => request s q (if abort then 3 else 2)) s

/-- The sequence goes on in abort mode from its present step. -/
def disableToAbort (s : State) (p : Nat) : State :=
  let s := s.setF F.PRT_STAT_ABORT p 1
  if s.f F.PRT_STAT_STEP p ≠ 3 then s
  else (partQueues s p).foldl (fun s q => match (s.q q).st with
    | .draining => if (s.q q).aborting then s else abortQueue s q
    | .frozen => s.setQ q { s.q q with held := some 3 }
    | _ => request s q 3) s

/-- A disable request is refused with PAIRED (spec/16 R428). -/
def pairedPart (s : State) (p : Nat) : Bool := s.mirPart p && s.f F.ECH_STAT_PAIR != 0

/-- PRT_CTL DISABLE_DRAIN and DISABLE_ABORT. -/
def partDisable (s : State) (p : Nat) (abort : Bool) : State :=
  if hostOk s = false ∨ 64 ≤ p then s
  else
    let s := notePrt s p (if abort then 3 else 2)
    match s.f F.PRT_STAT_STATE p with
    | 1 => if pairedPart s p then s.setF F.PRT_STAT_REFUSE p 2 else disableBegin s p abort
    | 2 => if abort ∧ s.fb F.PRT_STAT_ABORT p = false then disableToAbort s p else s
    | _ => s

/-- DRAINLIM_EXPIRY (spec/16 R436). -/
def drainlimExpiry (s : State) (p : Nat) : State :=
  let lim := s.f F.PRT_CFG_DRAINLIM p
  if s.f F.PRT_STAT_STATE p ≠ 2 ∨ s.fb F.PRT_STAT_ABORT p ∨ s.f F.PRT_STAT_STEP p ≠ 3 ∨ lim = 0 ∨ hostOk s = false
      ∨ s.time < (s.dis p).at3 + lim * 1000000 then s
  else disableToAbort s p

/-- The contexts of a partition that are enabled. -/
def partCtxs (s : State) (p : Nat) : List Nat := (s.setIdx F.XLT_CTX_EN).filter fun c => s.f F.XLT_CTX_PART c == p

/-- Step 4: an invalidation of scope context for every enabled context of the partition. -/
def disableStep4 (s : State) (p : Nat) : State :=
  let s := setPrt s p { s.dis p with invs := [] }
  (partCtxs s p).foldl (fun s c =>
    let id := s.nid
    let s := addInval s c 0 0 0 0 none none
    setPrt s p { s.dis p with invs := (s.dis p).invs ++ [id] }) (s.setF F.PRT_STAT_STEP p 4)

/-- Step 5: ownership blocks, pigeonholes, franking counters, seal regions, parcels and engine pool entries of the partition. -/
def disableStep5 (s : State) (p : Nat) : State :=
  let s := s.setF F.PRT_STAT_STEP p 5
  let blks := (s.gal.own.filter fun e => e.2.valid && e.2.part == p).map (·.1)
  let s := blks.foldl (fun s b => if s.f F.GAL_OWN_STATE b = 1 then s else startScrub s b) s
  let first := s.f F.PH_PART_BASE_BASE p
  let s := setPrt s p { s.dis p with blks := blks, rows := if s.fb F.PH_PART_BASE_EN p then some first else none }
  let n0 := s.f F.GAL_FRANK_PART_BASE p
  let s := if s.fb F.GAL_FRANK_PART_EN p then
      (List.range (s.f F.GAL_FRANK_PART_LAST p + 1 - n0)).foldl (fun s i => setFrank s (n0 + i) 0) s
    else s
  let s := (s.setIdx F.GAL_SEAL_MODE_ARMED).foldl (fun s rg => if s.f F.GAL_SEAL_MODE_OWNER rg = p then unsealRegion s rg else s) s
  reclaim { s with pcls := s.pcls.filter (·.part != p) }

/-- A row of the partition is scrubbed in step 5, in ascending order: one event marks it and completes its waiters, the next writes it (spec/05 R142, R159, spec/16 R435; log 102). -/
def disableRow (s : State) (n : Nat) : State :=
  if s.ctlOn = false ∨ s.flt.halt ≥ 3 then s
  else match s.prt.find? fun e => e.2.rows == some n && s.f F.PRT_STAT_STEP e.1 == 5 with
  | none => s
  | some e =>
    if (s.row n).st ≠ .scrubbing then phScrubMark s n
    else
      let s := phScrubWrite s n
      setPrt s e.1 { s.dis e.1 with rows := if n < s.f F.PH_PART_LIMIT_LAST e.1 then some (n + 1) else none }

/-- Step 6; an engine pool entry of the partition that no scrubbed row held is freed (spec/16 R435 step 5). -/
def disableEnd (s : State) (p : Nat) : State :=
  let s := freeWatches { s with waits := s.waits.filter fun w => w.part != p }
  let s := ((s.setF F.PRT_STAT_STATE p 0).setF F.PRT_STAT_ABORT p 0).setF F.PRT_STAT_STEP p 0
  let s := setBitF (s.incF F.PRT_STAT_DISABLES p) F.PRT_DONE_DONE p true
  State.irqG { s with prt := mdel s.prt p } 4

/-- The condition that ends the present step of a disable sequence. -/
def disableEnds (s : State) (p : Nat) : Bool :=
  match s.f F.PRT_STAT_STEP p with
  | 3 => partQueues s p == [] && !s.units.any (·.part == p)
  | 4 => (s.dis p).invs.all fun i => !s.xlt.invs.any fun v => v.id == i
  | 5 => (s.dis p).rows == none && (s.dis p).blks.all fun b => s.f F.GAL_OWN_STATE b == 0
  | _ => false

/-- DISABLE_STEP_END. -/
def disableStepEnd (s : State) (p : Nat) : State :=
  if s.f F.PRT_STAT_STATE p ≠ 2 ∨ hostOk s = false ∨ disableEnds s p = false then s
  else match s.f F.PRT_STAT_STEP p with
    | 3 => disableStep4 s p
    | 4 => disableStep5 s p
    | _ => disableEnd s p

/-! ### The mailbox (spec/16 R434) -/

/-- PRT_PW_MBOX_CTL SEND. -/
def mboxSend (s : State) (p : Nat) : State :=
  if hostOk s = false ∨ s.f F.PRT_STAT_STATE p = 0 ∨ s.f F.PRT_MBOX_CTL_STATE p ≠ 0 then s else s.setF F.PRT_MBOX_CTL_STATE p 1

/-- The postmaster's checks of a request: of reserved fields, that of word 0 (log 120). -/
def mboxGood (s : State) (p : Nat) : Bool :=
  let r := BitVec.ofNat 64 (s.f F.PRT_MBOX_REQ_WORD (8 * p))
  let code := fieldOf r 63 56
  let arg := fieldOf r 31 0
  decide (1 ≤ code ∧ code ≤ 11) && fieldOf r 55 48 == 0 && (code != 8 || decide (arg < 64)) && (code != 9 || decide (1 ≤ arg ∧ arg ≤ 65535))

/-- MAILBOX_CHECK. -/
def mboxCheck (s : State) (p : Nat) : State :=
  if postRuns s = false ∨ s.flt.halt ≠ 0 ∨ s.f F.PRT_MBOX_CTL_STATE p ≠ 1 then s
  else if mboxGood s p then (setBitF (s.setF F.PRT_MBOX_CTL_STATE p 2) F.PRT_PEND_PEND p true).irqG 4
  else mboxAnswer s p 3

/-- PRT_MBOX_CTL REPLY. -/
def mboxReply (s : State) (p : Nat) : State :=
  if hostOk s = false ∨ s.f F.PRT_MBOX_CTL_STATE p ≠ 2 then s
  else (setBitF (s.setF F.PRT_MBOX_CTL_STATE p 3) F.PRT_PEND_PEND p false).irqP p

/-- PRT_PW_MBOX_CTL ACK. -/
def mboxAck (s : State) (p : Nat) : State :=
  if hostOk s = false ∨ s.f F.PRT_MBOX_CTL_STATE p ≠ 3 then s else s.setF F.PRT_MBOX_CTL_STATE p 0

end Sys2Proof.Machine
end

