-- ==== Sys2Proof/Machine/ResetOps.lean ====
section
/-! DEFINITION. Resets and the start of the sequence that follows them (spec/18 R470, R471, R494). -/

namespace Sys2Proof.Machine

/-- The state that the power-on scope leaves; waiting commands of the model, its identifiers and its free values go on. -/
def powerOn (s : State) (rst : Nat) : State :=
  { State.init s.b false with pending := s.pending, nid := s.nid, free := s.free, rst }

/-- PORESET_N is asserted. -/
def poreset (s : State) : State := powerOn s 1

/-- Supply of the always-on island is removed: nothing is kept. -/
def powerGone (s : State) : State := powerOn s 4

/-- The state that the warm scope leaves: fabric time goes on, INT_RST records the reset, the TAP is unaffected; the static inputs of the K-port and the levels at the TIEBREAK, SUPPLY_LOW, PCEIL and PSLEW inputs stand as they are (log 40). -/
def warmReset (s : State) (safe : Bool) : State :=
  if s.rst = 1 ∨ s.rst = 4 then s
  else
    let t : State := { powerOn s (if safe then 3 else 2) with
      time := s.time, tap := s.tap, tsync := { cycles := s.tsync.cycles }, cmt := { kbytes := s.cmt.kbytes, uid := s.cmt.uid } }
    let t := (t.setF F.INT_RST_SAFE 0 (s.f F.INT_RST_SAFE)).setF F.INT_RST_WARM 0 (s.f F.INT_RST_WARM)
    let t := (t.incF F.INT_RST_WARM 0).setF F.INT_RST_LAST 0 (if safe then 2 else 1)
    let t := if safe then t.satF F.INT_RST_SAFE 0 else t
    let t := (t.setF F.ECH_STAT_TIEBREAK 0 (s.f F.ECH_STAT_TIEBREAK)).setF F.PWR_CLAMP_SUPPLY 0 (s.f F.PWR_CLAMP_SUPPLY)
    pceilChange t (s.f F.PWR_CEIL_PPORT) (s.pwr.pslew.getD 0)

/-- A reset is released: STEP reads 1, and the domains of step 2 are requested ON (spec/18 R494). -/
def resetReleased (s : State) : State :=
  if s.rst = 0 ∨ s.rst = 4 then s else reqAll { s with rst := 0 } (s.b.domBank 0) 30 3

/-- TRST_N: the TAP is reset. -/
def trst (s : State) : State := { s with tap := ([], 0) }

end Sys2Proof.Machine
end

