-- ==== Sys2Proof/Machine/CycleOps.lean ====
section
/-! DEFINITION. Stalled partitions and the scan for cycles of waits (spec/05 R156 to R158). -/

namespace Sys2Proof.Machine

/-- The command a queue is blocked in: a WAITGE that has not completed and is not set aside, or an ENQUEUE that waits at step 3 (spec/05 R156, spec/10 R288). -/
def blockedIn (s : State) (q : Nat) : Option Cmd :=
  s.cmds.find? fun c => c.q == q && (match c.body with
    | .waitge .. => c.st == .running
    | .enqueue .. => c.st == .running && c.aux == 1
    | _ => false)

/-- The ACTIVE queues of a partition. -/
def activeQueues (s : State) (p : Nat) : List Nat :=
  s.qs.filterMap fun e => if e.2.st = .active ∧ s.qPart e.1 = p then some e.1 else none

/-- A partition meets the conditions of a stall. -/
def stalledNow (s : State) (p : Nat) : Bool :=
  let l := activeQueues s p
  !l.isEmpty && l.all (fun q => (blockedIn s q).isSome) && !(s.cmds.any fun c => c.placed && s.qPart c.q == p)

/-- A queue of a reported cycle is still blocked in the same command, and has not left ACTIVE (spec/05 R158). -/
def staysBlocked (s : State) (e : Nat × Nat × Bool) : Bool :=
  ((blockedIn s e.1).map Cmd.id) == some e.2.1 && (!e.2.2 || (s.q e.1).st == .active)

/-- Since when each partition has met them; a reported cycle one of whose queues has been woken, aborted or has left ACTIVE may be raised again. -/
def stallSettle (s : State) : State :=
  let ps := ((s.qs.filter fun e => e.2.st == .active).map fun e => s.qPart e.1).eraseDups.filter (stalledNow s)
  { s with stall := ps.foldl (fun m p => mset m p (mget (s.time, s.time) s.stall p)) [],
           cyc := s.cyc.filter fun l => l.all (staysBlocked s) }

/-- The blocked queues of a partition (spec/05 R156, R157). -/
def blockedQueues (s : State) (p : Nat) : List Nat :=
  s.qs.filterMap fun e => if s.qPart e.1 = p ∧ (blockedIn s e.1).isSome then some e.1 else none

/-- The texts of a queue whose signals count, as the scan reads them: what is left of its program, then its taken programs that have not started, each with whether revision 3 decodes it (spec/05 R157, spec/03 R103). -/
def textRevs (s : State) (q : Nat) : List Bool :=
  isR3 s q :: ((s.q q).descs.filter fun d => d.st == 0 && descType d == 1 && d.malformed.isNone).map fun d => descRev d == 3

/-- The stall time before a scan, in ns; none when scans are disabled. -/
def scanAfter (s : State) : Option Nat :=
  let n := s.f F.PH_CYCLE_SCAN_SCAN
  if n = 0 then none else some (max 100 n * 1000)

/-- Pigeonholes named by the SIGNAL commands of a straight-line text, at most `n` words of it. -/
def pendingIn (r3 : Bool) : Nat → Nat → List W64 → List Nat
  | 0, _, _ => []
  | _ + 1, _, [] => []
  | k + 1, n, w :: ws =>
    let len := cmdLen w
    if n < len ∨ (w :: ws).length < len then []
    else match decodeWords r3 ((w :: ws).take len) with
      | none => []
      | some (_, .jump _) => []
      | some (_, .branch ..) => []
      | some (_, .loop ..) => []
      | some (_, .callp _) => []
      | some (_, .ret) => []
      | some (_, .signal _ _ ph) => ph :: pendingIn r3 k (n - len) ((w :: ws).drop len)
      | some _ => pendingIn r3 k (n - len) ((w :: ws).drop len)

/-- Edges of the wait-for graph from a blocked queue, over the blocked queues `bs`; `texts` are the program texts that the scan has read, by queue. -/
def waitEdges (s : State) (bs : List Nat) (texts : List (Nat × List W64)) (q : Nat) : List Nat :=
  match (blockedIn s q).map Cmd.body with
  | some (.waitge 0 _ _ _ t _) =>
    if !(linkEntries s 1 t.toNat).isEmpty then []
    else bs.filter fun b => (((texts.filter (·.1 == b)).map Prod.snd).zip (textRevs s b)).any fun e => (pendingIn e.2 256 256 e.1).contains t.toNat
  | some (.enqueue t _) => if bs.contains t then [t] else []
  | _ => []

/-- Nodes from which a walk of exactly `k` edges leads to `l`. -/
def walksTo (edges : Nat → List Nat) (bs : List Nat) (l : Nat) : Nat → List Nat
  | 0 => [l]
  | k + 1 => bs.filter fun v => (edges v).any (walksTo edges bs l k).contains

/-- The cycle through `l` of `k` edges whose queue numbers are lowest, as its nodes from `v` on. -/
def cycleFrom (edges : Nat → List Nat) (bs : List Nat) (l : Nat) : Nat → Nat → List Nat
  | 0, _ => []
  | k + 1, v =>
    let next := ((edges v).filter (walksTo edges bs l k).contains).foldl (fun o u => match o with
      | none => some u
      | some m => some (min m u)) none
    match next with
    | none => [v]
    | some u => v :: cycleFrom edges bs l k u

/-- The reported cycle of the component whose lowest-numbered queue is `l`. -/
def cycleOf (edges : Nat → List Nat) (bs : List Nat) (l : Nat) : Option (List Nat) :=
  ((List.range bs.length).find? fun k => (walksTo edges bs l (k + 1)).contains l).map fun k => cycleFrom edges bs l (k + 1) l

/-- The strongly connected component of a node. -/
def componentOf (edges : Nat → List Nat) (bs : List Nat) (q : Nat) : List Nat :=
  let reach (a b : Nat) : Bool := (List.range bs.length).any fun k => (walksTo edges bs b (k + 1)).contains a
  bs.filter fun v => reach q v && reach v q

/-- An entry of the detail: 48 bits (spec/05 R158). -/
def cycleEntry (s : State) (q : Nat) : Nat :=
  match (blockedIn s q).map Cmd.body with
  | some (.waitge _ _ _ _ t _) => q * 2 ^ 36 + 2 ^ 33 + t.toNat % 2 ^ 21
  | some (.enqueue t _) => q * 2 ^ 36 + 3 * 2 ^ 34 + 2 ^ 33 + t % 4096
  | _ => 0

/-- Raises WAIT_CYCLE for a cycle of partition `p`. -/
def raiseCycle (s : State) (p : Nat) (comp cyc : List Nat) : State :=
  let bytes := (List.range 8).flatMap fun i => toBytes 6 (match cyc[i]? with
    | some q => cycleEntry s q
    | none => 0)
  let key := comp.map fun q => (q, ((blockedIn s q).map Cmd.id).getD 0, (s.q q).st == .active)
  let s : State := { s with cyc := s.cyc ++ [key] }
  ((s.incF F.PH_PW_CYCLE_COUNT p).setF F.PH_PW_CYCLE_LEN p cyc.length).raise
    ⟨2, 3, 1, true, false, cyc.headD 0, some p, 0, wordsOf 6 bytes, none, none⟩

/-- The component has been reported and none of its queues has moved. -/
def reported (s : State) (comp : List Nat) : Bool :=
  s.cyc.any fun l => l.all (staysBlocked s) && (l.map Prod.fst).any comp.contains

/-- WAIT_CYCLE_SCAN: a partition has been stalled for longer than SCAN since it stalled, or since the last scan (spec/05 R156 to R158); the scan runs on sorter firmware. -/
def waitCycleScan (s : State) (p : Nat) (texts : List (Nat × List W64)) : State :=
  match s.stall.find? (·.1 == p), scanAfter s with
  | some (_, since, last), some n =>
    if s.time < last + n ∨ (s.coreUp 0 = false ∧ s.coreUp 1 = false) ∨ s.halted ∨ s.ctlOn = false then s
    else
      let bs := blockedQueues s p
      let edges := waitEdges s bs texts
      let s : State := { s with stall := mset s.stall p (since, s.time) }
      let lows := bs.filter fun q => match componentOf edges bs q with
        | [] => false
        | comp => comp.all fun v => decide (q ≤ v)
      (lows.mergeSort).foldl (fun s q =>
        let comp := componentOf edges bs q
        if reported s comp then s
        else match cycleOf edges bs q with
          | some cyc => raiseCycle s p comp cyc
          | none => s) s
  | _, _ => s

end Sys2Proof.Machine
end

