-- ==== Sys2Proof/Machine/RegOps.lean ====
section
/-! DEFINITION. Register accesses: where an offset leads, what a read presents and does, what a write changes (spec/00 R16, spec/16 R431, spec/19 R498 to R501, and the register tables of every chapter). -/

namespace Sys2Proof.Machine

/-! ### Where an offset leads -/

/-- The rows that may hold an offset. -/
def rowsAt (a : Nat) : List RegRow :=
  if 0x1000000 ≤ a then regsPW
  else match a / 0x10000 with
    | 0 => regsINT | 1 => regsQE | 2 => regsPH | 3 => regsSCH | 4 => regsGAL | 8 => regsSTN | 9 => regsSTN | 10 => regsSTN | 11 => regsSTN
    | 12 => regsXLT | 13 => regsFAB | 14 => regsECH | 15 => regsFLT | 16 => regsPWR | 17 => regsFW | 18 => regsPRT | 19 => regsOBS | 20 => regsCMT
    | _ => []

/-- The element of a row that stands at an offset. -/
def RegRow.at? (r : RegRow) (a : Nat) : Option Nat :=
  let d := a - r.off
  if r.off ≤ a ∧ d / r.pitch < r.count ∧ d % r.pitch / 8 < r.sub then some (d / r.pitch * r.sub + d % r.pitch / 8) else none

/-- The register and the element at an offset. -/
def findReg (a : Nat) : List RegRow → Option (RegRow × Nat)
  | [] => none
  | r :: l => match r.at? a with
    | some i => some (r, i)
    | none => findReg a l

/-- A register that an access has reached: its row, its element, and the partition whose window the access used. -/
structure RegLoc where
  row : RegRow
  i : Nat
  pw : Option Nat

/-- The register an 8-byte-aligned offset names: a queue's view stands in the privileged window at QE_QSEL and in its partition's window at its doorbell slot (spec/02 R60, spec/16 R431). -/
def regLoc (s : State) (a : Nat) : Option RegLoc :=
  if a < 0x1000000 then
    let sel := s.f F.QE_QSEL_QUEUE
    -- PRT_DONE and PRT_PEND are one register each, in every page (spec/16 R445)
    (findReg a (rowsAt a)).map fun (r, i) =>
      ⟨r, if (0x10100 ≤ r.off ∧ r.off < 0x10140) ∨ r.name = .QE_QCFG then sel else if r.name = .PRT_DONE ∨ r.name = .PRT_PEND then 0 else i, none⟩
  else if a < 0x1400000 then
    let p := (a - 0x1000000) / 0x10000
    let o := a % 0x10000
    if o < 0xF000 then
      match queueOfSlot s p (o / 64) with
      | some q => (findReg (0x10100 + o % 64) regsQE).map fun (r, _) => ⟨r, q, some p⟩
      | none => none
    else (findReg a regsPW).map fun (r, i) => ⟨r, i, some p⟩
  else none

/-- The unit that holds a register is present in the build (spec/00 R9); a station's registers beyond STN_FMT are read and written only while its domain is ON (spec/19 R501). -/
def regPresent (s : State) (l : RegLoc) : Bool :=
  let b := s.b
  let i := l.i
  match l.row.name with
  | .INT_EPORT | .OBS_ENG_BUSY => decide (i < b.eports)
  | .OBS_PW_ENG => decide (i % 32 < b.eports)
  | .OBS_STN_BUSY => decide (i < b.stations)
  | .OBS_PW_STN => decide (i % 64 < b.stations)
  | .OBS_HALL_SLOTS | .GAL_WHEEL_MODE | .GAL_CPWR_REQ | .GAL_CPWR_STAT | .PWR_CPOL => decide (i < b.halls)
  | .OBS_PW_HALL => decide (i % 64 < b.halls)
  | .GAL_WHEEL | .GAL_WHEEL_ACT => decide (i / 4 < b.halls)
  | .GAL_OWN => decide (2 * i < b.galleryBytes / 65536)
  | .STN_ID | .STN_FMT => decide (i < b.stations)
  | .STN_AFLAGS | .STN_PSTAT | .STN_PFLAGS | .STN_PERR | .STN_FIFO | .STN_RUNCYC | .STN_STALLCYC => decide (i < b.stations) && s.domOn (b.domStation i)
  | .STN_X => decide (i / 16 < b.stations) && s.domOn (b.domStation (i / 16))
  | .FAB_LCTL | .FAB_LSTAT | .FAB_LREV | .FAB_LANN | .FAB_LPEER | .FAB_LCNT | .CMT_LINK | .CMT_LREP => decide (i < b.links)
  | .ECH_CTL | .ECH_STAT | .ECH_HB | .ECH_CMP | .ECH_PARTS | .ECH_ERR | .ECH_CNT | .ECH_DIV_Q | .ECH_DIV_LOCAL | .ECH_DIV_PEER | .ECH_CFGDIG
  | .ECH_GAL | .ECH_PW_STAT => b.echo
  | .PWR_ISL => decide (i < b.islands)
  | .PWR_ZONE | .PWR_ZMODEL_W0 | .PWR_ZMODEL_W1 | .PWR_ZMODEL_W2 => decide (i < zoneCount b)
  | .PWR_DOM => decide (i < b.domains)
  | _ => true

/-- While a partition is DISABLED its window holds PRT_PW_STAT alone (spec/16 R431). -/
def windowShut (s : State) (l : RegLoc) : Bool :=
  match l.pw with
  | some p => s.f F.PRT_STAT_STATE p == 0 && l.row.name != .PRT_PW_STAT
  | none => false

/-! ### Reads -/

/-- Word 1 of a pigeonhole's row (spec/05 R137). -/
def rowWord1 (s : State) (n : Nat) : Nat :=
  let r := s.row n
  let ws := (s.waits.filter fun w => w.tgt == .ph n).map Waiter.ent
  let link (dir : Nat) : Bool := !(linkEntries s dir n).isEmpty
  (match r.st with
    | .normal => 0
    | .poisoned => 1
    | .scrubbing => 2) * 2 ^ 62 + (link 0).toNat * 2 ^ 61 + (link 1).toNat * 2 ^ 60 + ws.headD 0 * 2 ^ 42 + ws.getLastD 0 * 2 ^ 24
    + r.lastq.getD 0 * 2 ^ 12 + (!ws.isEmpty).toNat * 2 ^ 11 + r.lastq.isSome.toNat * 2 ^ 10

/-- Bits of a list of Bools, first at bit 0. -/
def bitsFrom : List Bool → Nat
  | [] => 0
  | b :: l => b.toNat + 2 * bitsFrom l

/-- The drop window selected by a partition, when it is allotted to it (spec/07 R199). -/
def myDrop (s : State) (p : Nat) : Option Nat :=
  let w := s.f F.GAL_PW_DROP_SEL_WIN p
  if s.fb F.GAL_DROP_ALLOT w ∧ s.f F.GAL_DROP_OWNER w = p then some w else none

/-- GAL_PW_DROP_RANGE of a window as a word. -/
def dropRange (s : State) (w : Nat) : Nat := s.f F.GAL_PW_DROP_RANGE_LINES w * 2 ^ 44 + s.f F.GAL_PW_DROP_RANGE_BASE w * 2 ^ 9

/-- A balance as it reads. -/
def balWord (s : State) (p : Nat) : Nat := ((bal s p) % 2 ^ 64).toNat

/-- The ready command of a queue asks for a record of its own (spec/02 R50). -/
def cmdWantsEntry (s : State) (q : Nat) : Bool :=
  match ready s q with
  | some (h, _) => h.rpt != 0
  | none => false

/-- A descriptor the queue owns is to be taken next (spec/02 R50). -/
def descWantsEntry (s : State) (q : Nat) : Bool :=
  (s.q q).st == .active && !(s.q q).scanXl && (match (s.q q).scanWords with
    | w :: _ => (w.getD 0 0).toNat.testBit 63 == phaseOf (s.sqLog q) (s.q q).sq
    | [] => false)

/-- Values of fields that other state gives: element `i` of a register, `p` the partition for which it stands. -/
def derivedFields (s : State) (n : RegName) (i : Nat) : List (Fld × Nat) :=
  match n with
  | .QE_QSTAT =>
    let Q := s.q i
    [(F.QE_QSTAT_IDLE, (queueIdle s i).toNat), (F.QE_QSTAT_STATE, Q.st.code), (F.QE_QSTAT_PENDING, Q.pend.toNat),
     (F.QE_QSTAT_CQWAIT, (!cqFree s i && (descWantsEntry s i || cmdWantsEntry s i)).toNat), (F.QE_QSTAT_SQPHASE, (phaseOf (s.sqLog i) Q.sq).toNat),
     (F.QE_QSTAT_CQPHASE, (phaseOf (s.cqLog i) Q.cq).toNat), (F.QE_QSTAT_REQHELD, Q.held.isSome.toNat), (F.QE_QSTAT_PRIOR, Q.prior.code)]
  | .QE_QPOS => [(F.QE_QPOS_CQ, (s.q i).cq.toNat), (F.QE_QPOS_SQ, (s.q i).sq.toNat)]
  | .QE_STOPPED => [(F.QE_STOPPED_STOPPED, bitsFrom ((List.range 64).map fun j => (s.q (64 * i + j)).st == .stoppedError))]
  | .PH_STAT => [(F.PH_STAT_WFREE, 253952 - (s.waits.filter fun w => 8192 ≤ w.ent).length), (F.PH_STAT_WATCHUSED, s.watches.length)]
  | .PH_PEEK_W0 => [(F.PH_PEEK_W0_VALUE, (s.row (s.f F.PH_PEEK_SEL_PH)).value.toNat)]

  | .PH_PW_VALUE =>
    let k := s.f F.PH_PW_SEL_PH i
    [(F.PH_PW_VALUE_VALUE, if inAllot s i k then (s.row k).value.toNat else 0)]
  | .PH_PW_USE => [(F.PH_PW_USE_WUSED, wUsed s i), (F.PH_PW_USE_WQUOTA, s.f F.PH_WQUOTA_QUOTA i)]
  | .SCH_TTCTL => [(F.SCH_TTCTL_ACTNWIN, s.sch.active.length)]
  | .SCH_STAT => [(F.SCH_STAT_STRETCH, stretchUs s)]
  | .SCH_BAL => [(F.SCH_BAL_BALANCE, balWord s i)]
  | .SCH_PW_BAL => [(F.SCH_PW_BAL_BALANCE, balWord s i)]
  | .SCH_PW_ENG_NS => [(F.SCH_PW_ENG_NS_COUNT, s.f F.SCH_ACC_COUNT (4 * i))]
  | .SCH_PW_STN_NS => [(F.SCH_PW_STN_NS_COUNT, s.f F.SCH_ACC_COUNT (4 * i + 1))]
  | .SCH_PW_BYTES => [(F.SCH_PW_BYTES_COUNT, s.f F.SCH_ACC_COUNT (4 * i + 2))]
  | .SCH_PW_ENERGY_UJ => [(F.SCH_PW_ENERGY_UJ_COUNT, s.f F.SCH_ACC_COUNT (4 * i + 3))]
  | .GAL_SCRUB => [(F.GAL_SCRUB_PENDING, (s.setIdx F.GAL_OWN_STATE).length)]
  | .GAL_FRANK_VAL => [(F.GAL_FRANK_VAL_VALUE, (s.frank (s.f F.GAL_FRANK_SEL_COUNTER)).toNat)]
  | .GAL_PW_FRANK_VAL =>
    let k := s.f F.GAL_PW_FRANK_SEL_COUNTER i
    [(F.GAL_PW_FRANK_VAL_VALUE, if holdsCounter s i k then (s.frank k).toNat else 0)]
  | .GAL_DROP => [(F.GAL_DROP_OPEN, s.f F.GAL_PW_DROP_CTL_OPEN i)]
  | .GAL_DROP_RANGE => [(F.GAL_DROP_RANGE_RANGE, dropRange s i)]
  | .GAL_PW_DROP_RANGE => match myDrop s i with
    | some w => [(F.GAL_PW_DROP_RANGE_LINES, s.f F.GAL_PW_DROP_RANGE_LINES w), (F.GAL_PW_DROP_RANGE_BASE, s.f F.GAL_PW_DROP_RANGE_BASE w)]
    | none => [(F.GAL_PW_DROP_RANGE_LINES, 0), (F.GAL_PW_DROP_RANGE_BASE, 0)]
  | .GAL_PW_DROP_CTL =>
    let own := [F.GAL_PW_DROP_CTL_OPEN, F.GAL_PW_DROP_CTL_UNIT, F.GAL_PW_DROP_CTL_COURIER, F.GAL_PW_DROP_CTL_SRCCHIPS, F.GAL_PW_DROP_CTL_COUNTER]
    match myDrop s i with
    | some w => (F.GAL_PW_DROP_CTL_SETTLED, (settledDrop s w).toNat) :: own.map fun x => (x, s.f x w)
    | none => (F.GAL_PW_DROP_CTL_SETTLED, 0) :: own.map fun x => (x, 0)
  | .STN_FIFO =>
    let t := s.stn i
    let beats (l : List Byte) : Nat := l.length / 64
    [(F.STN_FIFO_FWDIN, beats t.fwdIn), (F.STN_FIFO_BACKIN, beats t.backIn), (F.STN_FIFO_F0Q, beats t.f0), (F.STN_FIFO_F1Q, beats t.f1),
     (F.STN_FIFO_EQ, beats t.eq),
     (F.STN_FIFO_FWDCRED, match nextStn s i with
       | some m => 64 - beats (s.stn m).fwdIn
       | none => 0),
     (F.STN_FIFO_BACKCRED, match prevStn s i with
       | some m => 64 - beats (s.stn m).backIn
       | none => 0)]
  | .XLT_STAT => [(F.XLT_STAT_INVACTIVE, (s.xlt.invs.filter fun v => v.step != 0).length)]
  | .XLT_ACNT_VAL => [(F.XLT_ACNT_VAL_COUNT, mget 0 s.xlt.acnt (s.f F.XLT_ACNT_SEL_INDEX))]
  | .XLT_MIGR_NOTE => [(F.XLT_MIGR_NOTE_VALID, (!s.xlt.notes.isEmpty).toNat), (F.XLT_MIGR_NOTE_INDEX, s.xlt.notes.headD 0)]
  | .XLT_PW_PFCOUNT => [(F.XLT_PW_PFCOUNT_SETASIDE, asideCount s i)]
  | .FAB_ID => [(F.FAB_ID_LOCKED, ((List.range s.b.links).any fun l => s.f F.CMT_LINK_LOCK l != 0).toNat)]
  | .FAB_MEMBERS => [(F.FAB_MEMBERS_CHIPS, bitsFrom ((List.range 16).map fun c => (members s).contains c))]
  | .FAB_TIME => [(F.FAB_TIME_NS, s.time)]
  | .FAB_TSYNC => [(F.FAB_TSYNC_SOURCE, (timeSource s == s.chip).toNat), (F.FAB_TSYNC_SRC, timeSource s),
      (F.FAB_TSYNC_HOPS, if timeSource s = s.chip then 0 else s.f F.FAB_TSYNC_HOPS)]
  | .ECH_PW_STAT => [(F.ECH_PW_STAT_MODE, s.f F.ECH_STAT_MODE), (F.ECH_PW_STAT_ROLE, s.f F.ECH_STAT_ROLE), (F.ECH_PW_STAT_MIRRORED, (s.mirPart i).toNat)]
  | .FLT_STAT => [(F.FLT_STAT_FATALOUT, s.f F.FLT_FATAL_VALID), (F.FLT_STAT_CONTAINEDOUT, (containedOut s).toNat), (F.FLT_STAT_AWAKE, (awakePin s).toNat)]
  | .PWR_ISL => [(F.PWR_ISL_REQ, levelOf s i), (F.PWR_ISL_THERM, thermCap s i), (F.PWR_ISL_CLAMPED, (islClamped s i).toNat)]
  | .PWR_SENS => [(F.PWR_SENS_ISLAND, if i < 64 then sensIsl s i else 0), (F.PWR_SENS_ZONE, sensZone s i)]
  | .FW_BOOT => [(F.FW_BOOT_GO, (s.f F.FW_STAT_STATE == 1).toNat)]
  | .PRT_STAT => [(F.PRT_STAT_NQ, (partQueues s i).length)]
  | .PRT_PW_STAT => [(F.PRT_PW_STAT_STATE, s.f F.PRT_STAT_STATE i), (F.PRT_PW_STAT_ABORT, s.f F.PRT_STAT_ABORT i), (F.PRT_PW_STAT_STEP, s.f F.PRT_STAT_STEP i),
      (F.PRT_PW_STAT_PART, i), (F.PRT_PW_STAT_MBOX, s.f F.PRT_MBOX_CTL_STATE i)]
  | .PRT_PW_MBOX_CTL => [(F.PRT_PW_MBOX_CTL_STATE, s.f F.PRT_MBOX_CTL_STATE i)]
  | .CMT_CAP => [(F.CMT_CAP_OTPBYTES, 16 * s.cmt.kbytes), (F.CMT_CAP_SLOTS, s.cmt.kbytes)]
  | .CMT_UID => [(F.CMT_UID_UID, s.cmt.uid.toNat)]
  | .CMT_CHAL => [(F.CMT_CHAL_WORD, (challenge s i).toNat)]
  | .CMT_LOG =>
    let e := mget (0, 0) s.cmt.log (s.f F.CMT_LOGSEL_SLOT)
    [(F.CMT_LOG_WORD, if i = 0 then e.1.toNat else e.2.toNat)]
  | .OBS_CFG => [(F.OBS_CFG_OPENLAB, s.f F.INT_FEAT_OPENLAB)]
  | .OBS_LB_STAT => [(F.OBS_LB_STAT_STAGED, s.obs.staging.length)]
  | .OBS_PW_CTL => [(F.OBS_PW_CTL_VIEW, viewOf s i)]
  | .OBS_PW_STAT => [(F.OBS_PW_STAT_OPENLAB, s.f F.INT_FEAT_OPENLAB), (F.OBS_PW_STAT_LBMODE, s.lbMode i), (F.OBS_PW_STAT_RPSTATE, s.rpState i)]
  | .OBS_PW_ERR =>
    let v := viewOf s i
    let all (x : Fld) : Nat := ((List.range 16).map fun g => s.f x g).sum
    if v = 64 then [(F.OBS_PW_ERR_CONTAINED, all F.FLT_CNT_CONTAINED), (F.OBS_PW_ERR_CORRECTED, all F.FLT_CNT_CORRECTED)]
    else [(F.OBS_PW_ERR_CONTAINED, s.f F.OBS_PW_ERR_CONTAINED v), (F.OBS_PW_ERR_CORRECTED, s.f F.OBS_PW_ERR_CORRECTED v)]
  | .OBS_PW_ENG =>
    let v := viewOf s (i / 32)
    [(F.OBS_PW_ENG_NS, if v = 64 then s.f F.OBS_ENG_BUSY_NS (i % 32) else s.f F.OBS_PW_ENG_NS (v * 32 + i % 32))]
  | .OBS_PW_STN =>
    let v := viewOf s (i / 64)
    [(F.OBS_PW_STN_NS, if v = 64 then s.f F.OBS_STN_BUSY_NS (i % 64) else s.f F.OBS_PW_STN_NS (v * 64 + i % 64))]
  | .OBS_PW_HALL =>
    let v := viewOf s (i / 64)
    [(F.OBS_PW_HALL_SLOTS, if v = 64 then s.f F.OBS_HALL_SLOTS_SLOTS (i % 64) else s.f F.OBS_PW_HALL_SLOTS (v * 64 + i % 64))]
  | .GAL_HOST_DATA => [(F.GAL_HOST_DATA_DATA, 0)]
  | .GAL_PW_DATA => [(F.GAL_PW_DATA_DATA, 0)]
  | .FW_VAULT_DATA => [(F.FW_VAULT_DATA_DATA, 0)]
  | _ => []

/-- The value of a field of element `i` of a register, as it reads. -/
def fieldVal (s : State) (d : List (Fld × Nat)) (i : Nat) (x : RegField) : Nat :=
  let v := match d.find? fun e => e.1 == x.fld with
    | some e => e.2
    | none => s.f x.fld i
  if x.acc = .wo then 0 else v % 2 ^ (x.hi + 1 - x.lo)

/-- The fields of a register as one word. -/
def packFields (s : State) (d : List (Fld × Nat)) (i : Nat) : List RegField → Nat
  | [] => 0
  | x :: l => fieldVal s d i x * 2 ^ x.lo + packFields s d i l

/-- One entry of GAL_OWN, of a block of ownership, as its 32 bits. -/
def ownWord (s : State) (blk : Nat) : Nat :=
  s.f F.GAL_OWN_VALID blk * 2 ^ 31 + s.f F.GAL_OWN_CTXEN blk * 2 ^ 30 + s.f F.GAL_OWN_CTX blk * 2 ^ 16 + s.f F.GAL_OWN_STATE blk * 2 ^ 14 + s.f F.GAL_OWN_PART blk

/-- What a register of the window reads, without the effects of reading it. -/
def regWordAt (s : State) (l : RegLoc) : Nat :=
  match l.row.name with
  | .GAL_OWN => ownWord s (2 * l.i) + ownWord s (2 * l.i + 1) * 2 ^ 32
  | .FAB_GMEM => ((List.range 4).map fun m => gmemBits s (l.i / 16) (4 * (l.i % 16) + m) * 2 ^ (16 * m)).sum
  | .CMT_LREP => laneRepairs s l.i
  | .FLT_PW_LATCH => match regsFLT.find? fun r => r.name == .FLT_PLATCH with
    | some r => packFields s [] l.i r.fields
    | none => 0
  | .OBS_PW_TRC => if s.fb F.INT_FEAT_OPENLAB then (match regsOBS.find? fun r => r.name == .OBS_TRC_CFG with
      | some r => packFields s [] 0 r.fields
      | none => 0) else 0
  | n => packFields s (derivedFields s n l.i) l.i l.row.fields

/-- The words of the shadow timetable stand from 0x34000 (spec/06 R164). -/
def shadowAt (a : Nat) : Option (Nat × Bool) :=
  if 0x34000 ≤ a ∧ a < 0x38000 then some ((a - 0x34000) / 16, (a - 0x34000) / 8 % 2 == 1) else none

/-- What the register at an offset reads; 0 where none stands (spec/19 R498). -/
def regPeek (s : State) (a : Nat) : Nat :=
  match shadowAt a with
  | some (w, second) =>
    let e := mget (0, 0) s.sch.shadow w
    if second then e.2.toNat else e.1.toNat
  | none => match regLoc s a with
    | none => 0
    | some l => if windowShut s l ∨ regPresent s l = false then 0 else regWordAt s l

/-! ### Gallery accesses by the host (spec/07 R182, R184) -/

/-- The selected address of GAL_HOST_ADDR or GAL_PW_ADDR advances. -/
def hostAdvance (s : State) (p : Option Nat) : State :=
  match p with
  | none => if s.fb F.GAL_HOST_ADDR_AUTOINC then s.incF F.GAL_HOST_ADDR_ADDR 0 else s
  | some p => if s.fb F.GAL_PW_ADDR_AUTOINC p then s.incF F.GAL_PW_ADDR_ADDR p else s

/-- Runs of enabled bytes of a word: first byte and length. -/
def byteRuns (strb : Nat) : List (Nat × Nat) :=
  ((List.range 8).foldl (init := ([] : List (Nat × Nat))) fun l i =>
    if strb.testBit i = false then l
    else match l with
      | (a, n) :: r => if a + n = i then (a, n + 1) :: r else (i, 1) :: l
      | [] => [(i, 1)]).reverse

/-- A narrow access at the selected address as requester 112; a write of fewer bytes writes only those (spec/18 R476). Its answer comes when it has completed. -/
def hostData (s : State) (p : Option Nat) (wr : Bool) (v strb : Nat) : State :=
  let a := 8 * (match p with
    | none => s.f F.GAL_HOST_ADDR_ADDR
    | some p => s.f F.GAL_PW_ADDR_ADDR p)
  let idn : Ident := match p with
    | none => ⟨0, none, true⟩
    | some p => ⟨p, none, false⟩
  let runs := if wr then byteRuns strb else [(0, 8)]
  let s := hostAdvance s p
  runs.foldl (fun s e => s.startOp (mkOp (.hostData p (if wr then 2 else 1)) idn 112 .gal (a + e.1) e.2 wr ((toBytes 8 v).drop e.1 |>.take e.2))) s

/-- An access by the host has completed: ERR reports a failure, a failed read reads 0. -/
def hostDataDone (s : State) (p : Option Nat) (wr : Bool) (o : Op) : State :=
  let bad := o.status ≠ .done
  let s := if bad then (match p with
      | none => s.setF F.GAL_HOST_ADDR_ERR 0 1
      | some p => s.setF F.GAL_PW_ADDR_ERR p 1) else s
  if wr ∧ s.ops.any (fun x => x.pur == o.pur) then s
  else s.emit (.hRsp wr .okay (if wr then [] else if bad then List.replicate 8 0 else o.data))

/-- A read of the register at an offset with its effects: samples, corrections of what is read, the vault's and the gallery's accesses. Answers the value, whether it could be read, and whether the answer comes later. -/
def regRead (s : State) (a : Nat) : State × Nat × Bool × Bool :=
  match regLoc s a with
  | none => (s, regPeek s a, true, false)
  | some l =>
    if windowShut s l ∨ regPresent s l = false then (s, 0, true, false)
    else match l.row.name with
      | .OBS_PLC_TIME => let s := plcSample s 64; (s, regPeek s a, true, false)
      | .OBS_PW_PLC_TIME => let s := plcSample s l.i; (s, regPeek s a, true, false)
      | .PH_PEEK_W0 =>
        -- PH_PEEK_W1 then presents word 1 from the same read (spec/05 R160)
        let s := phTouch s (s.f F.PH_PEEK_SEL_PH)
        (s.setF F.PH_PEEK_W1_ROW1 0 (rowWord1 s (s.f F.PH_PEEK_SEL_PH)), regPeek s a, true, false)
      | .PH_PW_VALUE =>
        let k := s.f F.PH_PW_SEL_PH l.i
        let s := if inAllot s l.i k then phTouch s k else s
        (s, regPeek s a, true, false)
      | .FW_VAULT_DATA => let r := vaultAccess s false 0; (r.1, r.2.1.toNat, r.2.2, false)
      | .GAL_HOST_DATA => (hostData s none false 0 255, 0, true, true)
      | .GAL_PW_DATA => (hostData s (some l.i) false 0 255, 0, true, true)
      | _ => (s, regPeek s a, true, false)

end Sys2Proof.Machine
end

