-- ==== Sys2Proof/Machine/RegWrite.lean ====
section
/-! DEFINITION. What a write of each register does: the fields of its access codes (spec/00 R16), the rules of its chapter, the commands it carries. -/

namespace Sys2Proof.Machine

/-! ### Fields by access code -/

/-- Bits `hi` to `lo` of a number, in place. -/
def inPlace (v hi lo : Nat) : Nat := v / 2 ^ lo % 2 ^ (hi + 1 - lo) * 2 ^ lo

/-- The word a write brings to the fields of a register: an RW field keeps the bits of the bytes that are not written; other writable fields take the bits written (spec/18 R476). `m` has the bits of the bytes written. -/
def inWord (s : State) (i v m : Nat) : List RegField → Nat
  | [] => 0
  | x :: l =>
    let bits := match x.acc with
      | .ro => 0
      | .rw => inPlace (((fieldVal s [] i x * 2 ^ x.lo) &&& (2 ^ 64 - 1 - m)) ||| (v &&& m)) x.hi x.lo
      | _ => inPlace (v &&& m) x.hi x.lo
    bits + inWord s i v m l

/-- Stores the RW fields of a word and clears the W1C fields it names. -/
def storeFields (s : State) (i w : Nat) : List RegField → State
  | [] => s
  | x :: l =>
    let b := w / 2 ^ x.lo % 2 ^ (x.hi + 1 - x.lo)
    let s := match x.acc with
      | .rw => s.setF x.fld i b
      | .w1c => s.setF x.fld i (s.f x.fld i - (s.f x.fld i &&& b))
      | _ => s
    storeFields s i w l

/-- Field `x` of a word. -/
def fieldIn (w hi lo : Nat) : Nat := w / 2 ^ lo % 2 ^ (hi + 1 - lo)

/-- The mask of the bits of enabled bytes. -/
def byteMask (strb : Nat) : Nat := ((List.range 8).map fun i => if strb.testBit i then 255 * 256 ^ i else 0).sum

/-- The enabled bytes of a mask. -/
def strbOf (m : Nat) : Nat := ((List.range 8).map fun i => if m / 256 ^ i % 256 = 0 then 0 else 2 ^ i).sum

/-! ### Writes with rules of their own -/

/-- A write of PH_PART_BASE[p], or of PH_PART_LIMIT[p] (spec/05 R141). DESIGN CHOICE (log 97): a write refused both for its order and for an overlap reports ORDER. -/
def phAllotWrite (s : State) (p : Nat) (limit : Bool) (v : Nat) : State :=
  let en := if limit then s.fb F.PH_PART_BASE_EN p else v.testBit 63
  let base := if limit then s.f F.PH_PART_BASE_BASE p else v % 2 ^ 21
  let last := if limit then v % 2 ^ 21 else s.f F.PH_PART_LIMIT_LAST p
  let err (c : Nat) : State := (s.setF F.PH_ERR_CAUSE 0 c).setF F.PH_ERR_WHERE 0 p
  if partQueues s p ≠ [] ∨ 64 ≤ p then s
  else if en ∧ last < base then err 2
  else if en ∧ ((s.setIdx F.PH_PART_BASE_EN).any fun o => o != p && decide (s.f F.PH_PART_BASE_BASE o ≤ last) && decide (base ≤ s.f F.PH_PART_LIMIT_LAST o)) then err 1
  else if limit then s.setF F.PH_PART_LIMIT_LAST p last
  else (((s.setF F.PH_PART_BASE_BASE p base).setF F.PH_PART_BASE_EN p en.toNat).setF F.PH_ERR_CAUSE 0 0).setF F.PH_ERR_WHERE 0 0

/-- A write of PH_LINK[i] (spec/05 R153 and its register table). Clearing EN of an OUT entry drops the value it has not sent: DESIGN CHOICE (log 103), R154 does not say what becomes of it. -/
def phLinkWrite (s : State) (i v : Nat) : State :=
  let en := v.testBit 63
  let ok (s : State) : State := (s.setF F.PH_ERR_CAUSE 0 0).setF F.PH_ERR_WHERE 0 0
  if 4096 ≤ i then s
  else if s.fb F.PH_LINK_EN i then
    (if en then s else ok (State.setF { s with linkOut := mdel s.linkOut i } F.PH_LINK_EN i 0))
  else if en ∧ (phPart s (fieldIn v 57 37) = none ∨ fieldIn v 61 58 = s.chip) then (s.setF F.PH_ERR_CAUSE 0 3).setF F.PH_ERR_WHERE 0 i
  else ok (((((s.setF F.PH_LINK_DIR i (v / 2 ^ 62)).setF F.PH_LINK_CHIP i (v / 2 ^ 58)).setF F.PH_LINK_LOCAL i (v / 2 ^ 37)).setF F.PH_LINK_REMOTE i (v / 2 ^ 16)).setF
    F.PH_LINK_EN i en.toNat)

/-- Commands of QE_QCTL, for a queue, by a write at an offset (spec/02 R60). -/
def qctlWrite (s : State) (q off cmd : Nat) : State :=
  if hostOk s = false ∨ inputsReplayed s q then s
  else match cmd with
    | 1 => enable (hostWr s (some q) off cmd) q
    | 2 => request (hostWr s (some q) off cmd) q 2
    | 3 => request (hostWr s (some q) off cmd) q 3
    | 4 => request (hostWr s (some q) off cmd) q 4
    | _ => s

/-- A write of QE_CQ_HEAD of a queue at an offset. -/
def qheadWrite (s : State) (q off head : Nat) : State :=
  if s.ctlOn = false ∨ inputsReplayed s q then s else cqHeadWrite (hostWr s (some q) off head) q head

/-- SCH_TTCTL CANCEL (spec/06 R166). -/
def cancelCmd (s : State) : State := s.setF F.SCH_TTCTL_PEND 0 0

/-- A write of SCH_TTCTL. -/
def ttctlWrite (s : State) (w : Nat) : State :=
  let cmd := w % 16
  let s := if s.fb F.SCH_TTCTL_PEND then s else s.setF F.SCH_TTCTL_SHDNWIN 0 (w / 2 ^ 32)
  if cmd = 1 ∧ hostOk s = false then s else if cmd = 1 then swapCmd (hostWr s none 0x30008 w) else if cmd = 2 then cancelCmd (hostWr s none 0x30008 w) else s

/-- GAL_WHEEL_MODE SWAP and CANCEL of a hall (spec/07 R188). -/
def wheelSwap (s : State) (h : Nat) : State := if h < s.b.halls ∧ hostOk s then s.setF F.GAL_WHEEL_MODE_PEND h 1 else s
def wheelCancel (s : State) (h : Nat) : State := if h < s.b.halls then s.setF F.GAL_WHEEL_MODE_PEND h 0 else s

/-- The hypervisor closes a drop window (spec/07 R199). -/
def forceClose (s : State) (w : Nat) : State := if w < 256 then s.setF F.GAL_PW_DROP_CTL_OPEN w 0 else s

/-- GAL_SEAL_MODE DISARM (spec/07 R194). -/
def disarmRegion (s : State) (rg : Nat) : State := if rg < 64 then unsealRegion s rg else s

/-- A write of GAL_OWN[n]: each half whose bytes are written is a write of its block's entry. -/
def ownWrite (s : State) (n v m : Nat) : State :=
  let half (s : State) (blk x k : Nat) : State :=
    if k = 0 then s else writeOwn s blk ((ownWord s blk &&& (2 ^ 32 - 1 - k)) ||| (x &&& k))
  half (half s (2 * n) (v % 2 ^ 32) (m % 2 ^ 32)) (2 * n + 1) (v / 2 ^ 32) (m / 2 ^ 32)

/-- A write of FAB_GMEM word `n` (spec/11 R316): ignored while the group is defined. -/
def gmemWrite (s : State) (n v m : Nat) : State :=
  let g := n / 16
  if s.fb F.FAB_GRP_EN g then s
  else
    let old := ((List.range 4).map fun j => gmemBits s g (4 * (n % 16) + j) * 2 ^ (16 * j)).sum
    let w := (old &&& (2 ^ 64 - 1 - m)) ||| (v &&& m)
    (List.range 4).foldl (fun s j =>
      let e := w / 2 ^ (16 * j) % 2 ^ 16
      { s with gmem := mset s.gmem (4 * n + j) (e / 2 ^ 12 * 64 + e % 64) }) s

/-- A ring that is turned off by a write drops the records it has not issued, as R364 does. -/
def ringOff (s : State) (r : Nat) : State :=
  let s := if r = 64 then s.setF F.FLT_GRING_CFG_EN 0 0 else s.setF F.FLT_PRING_CFG_EN r 0
  (s.flt.recs.filter fun x => x.ring == r && !x.issued).foldl deadRec s

/-- A write of FLT_GRING_CFG (r = 64) or FLT_PRING_CFG (spec/13 R363). -/
def ringCfgWrite (s : State) (r w : Nat) : State :=
  let en := w.testBit 63
  let n := max 8 (min 16 (w % 32))
  if ringEn s r then (if en then s else ringOff s r)
  else if r = 64 then
    let s := (s.setF F.FLT_GRING_CFG_IRQ 0 (w / 2 ^ 62)).setF F.FLT_GRING_CFG_LOG2 0 n
    if en then ((s.setF F.FLT_GRING_CFG_EN 0 1).setF F.FLT_GRING_POS_POS 0 0).setF F.FLT_GRING_HEAD_HEAD 0 0 else s
  else
    let s := ((s.setF F.FLT_PRING_CFG_IRQ r (w / 2 ^ 62)).setF F.FLT_PRING_CFG_CTX r (w / 2 ^ 11)).setF F.FLT_PRING_CFG_LOG2 r n
    if en ∧ s.f F.XLT_CTX_PART (fieldIn w 20 11) = r then ((s.setF F.FLT_PRING_CFG_EN r 1).setF F.FLT_PW_POS_POS r 0).setF F.FLT_PW_HEAD_HEAD r 0 else s

/-- A write of FW_LOG_CFG (spec/15 R412). -/
def logCfgWrite (s : State) (w : Nat) : State :=
  let en := w / 2 ^ 63 % 2
  let was := s.fb F.FW_LOG_CFG_EN
  let s := ((s.setF F.FW_LOG_CFG_IRQ 0 (w / 2 ^ 62)).setF F.FW_LOG_CFG_CORES 0 (w / 2 ^ 56)).setF F.FW_LOG_CFG_LEVEL 0 (w / 2 ^ 54)
  let s := if was then s else s.setF F.FW_LOG_CFG_LOG2 0 (max 8 (min 16 (w % 32)))
  if en = 1 then ((s.setF F.FW_LOG_CFG_EN 0 1).setF F.FW_LOG_POS_POS 0 0).setF F.FW_LOG_HEAD_HEAD 0 0 else s.setF F.FW_LOG_CFG_EN 0 0

/-- PRT_CTL commands (spec/16 R427, R435). -/
def prtCtlWrite (s : State) (p cmd : Nat) : State :=
  match cmd with
  | 1 => partEnable s p
  | 2 => partDisable s p false
  | 3 => partDisable s p true
  | _ => s


/-- A pair that has begun pairing requests the domain of the echo port ON (spec/12 R334). -/
def pairOn (s : State) : State := if s.f F.ECH_STAT_PAIR = 1 then reqDom s s.b.domEcho 3 else s

/-- ECH_CTL commands (spec/12 R334, R350). -/
def echCtlWrite (s : State) (cmd : Nat) : State :=
  if hostOk s = false then s
  else match cmd with
    | 1 => pairOn (startPair s 1)
    | 2 => pairOn (startPair s 2)
    | 3 => goSolo s
    | _ => s

/-- A value held to a range (a limited field). -/
def limit (lo hi v : Nat) : Nat := max lo (min hi v)

/-- The partition of a window access that is being disabled: which registers its window still takes (spec/16 R435). -/
def windowTakes : RegName → Bool
  | .QE_CQ_HEAD | .FLT_PW_HEAD | .FLT_PW_DEAD | .PRT_PW_MBOX_CTL => true
  | _ => false

/-- A write of a register is ignored in the state of its unit. -/
def regLocked (s : State) (l : RegLoc) : Bool :=
  let i := l.i
  match l.row.name with
  | .QE_QCFG | .QE_RING_BASE | .QE_CQ_BASE | .QE_QSIZE => (s.q i).st != .disabled
  | .QE_PCL_GAL | .QE_PCL_MEM => !(partQueues s i).isEmpty
  | .SCH_EGRP | .SCH_SGRP => s.fb F.SCH_TTCTL_PEND
  | .GAL_WHEEL => s.fb F.GAL_WHEEL_MODE_PEND (i / 4)
  | .GAL_SEAL_MODE => s.fb F.GAL_SEAL_MODE_ARMED i
  | .GAL_DROP => s.fb F.GAL_PW_DROP_CTL_OPEN i
  | .XLT_ACNT_BASE => s.fb F.XLT_ACNT_CFG_EN
  | .XLT_PW_INV_START | .XLT_PW_INV_LEN => s.fb F.XLT_PW_INV_CTL_BUSY i
  | .FAB_ID => (List.range s.b.links).any fun k => s.f F.FAB_LSTAT_STATE k != 0
  | .ECH_PARTS | .ECH_GAL => s.f F.ECH_STAT_PAIR != 0
  | .FLT_GRING_BASE => s.fb F.FLT_GRING_CFG_EN
  | .FLT_PRING_BASE => s.fb F.FLT_PRING_CFG_EN i
  | .FW_LOG_BASE => s.fb F.FW_LOG_CFG_EN
  | .OBS_LB_BASE => s.fb F.OBS_LB_CFG_EN
  | .OBS_RP_BASE | .OBS_RP_LEN | .OBS_RP_PARTS => s.f F.OBS_RP_STAT_STATE == 1
  | .PRT_PW_MBOX_REQ => s.f F.PRT_MBOX_CTL_STATE (i / 8) != 0
  | .PRT_MBOX_RSP => s.f F.PRT_MBOX_CTL_STATE (i / 8) != 2
  | _ => false

/-- What a write does to a register: `a` is its offset, `w` the word of its fields, `v` and `m` the value and the bits of the bytes written. -/
def regEffect (s : State) (l : RegLoc) (a w v m : Nat) : State :=
  let i := l.i
  let put (s : State) : State := storeFields s i w l.row.fields
  let putFree (s : State) : State := if regLocked s l then s else put s
  match l.row.name with
  | .QE_QCTL => qctlWrite s i a (w % 16)
  | .QE_CQ_HEAD => qheadWrite s i a w
  | .QE_ENQ => let t := s.f F.QE_ENQ_TARGET i; let s1 := put s; if (s.q i).st = .disabled then s1 else s1.setF F.QE_ENQ_TARGET i t
  | .PH_PART_BASE => phAllotWrite s i false w
  | .PH_PART_LIMIT => phAllotWrite s i true w
  | .PH_LINK => phLinkWrite s i w
  | .PH_PW_POLL => if windowReplayed s i then s else put (hostWr s none a w)
  | .SCH_TTCTL => ttctlWrite s w
  | .SCH_EGRP => if regLocked s l then s else s.setF F.SCH_EGRP_PORTS i (w % 2 ^ s.b.eports)
  | .SCH_SGRP => if regLocked s l then s else s.setF F.SCH_SGRP_STATIONS i (w % 2 ^ s.b.stations)
  | .GAL_SCRUB =>
    let s := put s
    -- no patrol: a pass that runs ends (spec/07 R203)
    if s.f F.GAL_SCRUB_PATROL ≠ 0 then s
    else (List.range s.b.halls).foldl (fun s h => s.setHall h { s.hall h with patrol := none }) { s with gal := { s.gal with patrolNext := false } }
  | .GAL_HOST_DATA => hostData s none true v (strbOf m)
  | .GAL_PW_DATA => hostData s (some i) true v (strbOf m)
  | .GAL_WHEEL_MODE =>
    let s := if s.fb F.GAL_WHEEL_MODE_PEND i then s else s.setF F.GAL_WHEEL_MODE_MODESHD i (w / 4)
    if w % 4 = 1 then wheelSwap s i else if w % 4 = 2 then wheelCancel s i else s
  | .GAL_CPWR_REQ => cpwrWrite s i w
  | .GAL_SEAL_MODE => let s1 := putFree s; if w % 2 = 1 then disarmRegion s1 i else s1
  | .GAL_DROP => let s1 := putFree s; if w.testBit 61 then forceClose s1 i else s1
  | .GAL_PW_DROP_RANGE => match myDrop s i with
    | some k =>
      if s.fb F.GAL_PW_DROP_CTL_OPEN k then s
      else
        let x := (dropRange s k &&& (2 ^ 64 - 1 - m)) ||| (v &&& m)
        (s.setF F.GAL_PW_DROP_RANGE_LINES k (x / 2 ^ 44)).setF F.GAL_PW_DROP_RANGE_BASE k (x / 2 ^ 9)
    | none => s
  | .GAL_PW_DROP_CTL =>
    let old := packFields s (derivedFields s .GAL_PW_DROP_CTL i) i l.row.fields
    if windowReplayed s i then s else dropCtl s i ((old &&& (2 ^ 64 - 1 - m)) ||| (v &&& m))
  | .GAL_FRANK_PART => frankPartWrite s i w
  | .GAL_OWN => ownWrite s i v m
  | .XLT_ACNT_BASE => if regLocked s l ∨ w / 2 ^ 52 % 16 ≠ s.chip then s else put s
  | .XLT_ACNT_CFG => let s1 := put s; { s1 with xlt := { s1.xlt with decayAt := s.time } }
  | .XLT_ACNT_VAL =>
    let k := s.f F.XLT_ACNT_SEL_INDEX
    { s with xlt := { s.xlt with acnt := mset s.xlt.acnt k (((mget 0 s.xlt.acnt k &&& (2 ^ 64 - 1 - m)) ||| (v &&& m)) % 2 ^ 32) } }
  | .XLT_MIGR_POP => if w % 2 = 1 then migrPop s else s
  | .XLT_CTX_W0 => ctxWrite s i 0 w
  | .XLT_CTX_W1 => ctxWrite s i 1 w
  | .XLT_CTX_W2 => ctxWrite s i 2 w
  | .XLT_PW_RESUME => if inputsReplayed s (w % 4096) then s else resumeWrite s i w
  | .XLT_PW_INV_CTL => if hostOk s then invCtlWrite s i w else s
  | .FAB_COLL =>
    let sm := s.f F.FAB_COLL_SMALL
    let s1 := put s
    if (s.setIdx F.FAB_GRP_EN).isEmpty then s1 else s1.setF F.FAB_COLL_SMALL 0 sm
  | .FAB_LCTL => lctlWrite s i (w % 16)
  | .FAB_LANN => lannWrite s i w
  | .FAB_GRP => groupWrite s i w
  | .FAB_GMEM => gmemWrite s i v m
  | .ECH_CTL => echCtlWrite s (w % 16)
  | .ECH_HB => (s.setF F.ECH_HB_LOSS 0 (limit 200 4000 (fieldIn w 47 32))).setF F.ECH_HB_PERIOD 0 (limit 10 1000 (fieldIn w 15 0))
  | .FLT_GRING_CFG => ringCfgWrite s 64 w
  | .FLT_PRING_CFG => ringCfgWrite s i w
  | .FLT_GRING_HEAD => ringHeadWrite s 64 w
  | .FLT_PW_HEAD => ringHeadWrite s i w
  | .FLT_G_DEAD => deadWrite s 64
  | .FLT_PW_DEAD => deadWrite s i
  | .FLT_INJ => injWrite s w
  | .FLT_LATCH_C => if w.testBit 63 then ackLatch s i 0 else s
  | .FLT_LATCH_K => if w.testBit 63 then ackLatch s i 1 else s
  | .FLT_PLATCH => if w.testBit 63 then ackLatch s i 2 else s
  | .FLT_PW_LATCH => if (v &&& m).testBit 63 then ackLatch s i 2 else s
  | .PWR_CMD => powerCmd s (w % 16)
  | .PWR_CFG => ceilSettle (put s)
  | .PWR_CEIL => ceilSettle (put s)
  | .PWR_THR => (List.range (zoneCount s.b)).foldl (fun s z => zoneSettle s z 0) (put s)
  | .PWR_EXTCFG => (List.range (zoneCount s.b)).foldl (fun s z => zoneSettle s z 0) (put s)
  | .PWR_DOM => if w.testBit 59 then domFailedWrite s i else s
  | .FW_BOOT => goWrite s (w % 4)
  | .FW_VAULT_DATA => 
    let old := ofBytes (vaultBytes s (s.f F.FW_VAULT_ADDR_ADDR * 8) 8)
    (vaultAccess s true (BitVec.ofNat 64 ((old &&& (2 ^ 64 - 1 - m)) ||| (v &&& m)))).1
  | .FW_UPDATE => match w % 16 with
    | 1 => stage s
    | 2 => updateCancel s
    | _ => s
  | .FW_WDT => s.setF F.FW_WDT_PERIOD 0 (limit 100 1000 (fieldIn w 31 0))
  | .FW_LOG_CFG => logCfgWrite s w
  | .FW_LOG_DROP => s.setF F.FW_LOG_DROP_DROPPED 0 0
  | .PRT_CTL => prtCtlWrite s i (w % 16)
  | .PRT_MBOX_CTL => if w % 16 = 1 then mboxReply s i else s
  | .PRT_PW_MBOX_CTL => match w % 16 with
    | 1 => mboxSend s i
    | 2 => mboxAck s i
    | _ => s
  | .OBS_LB_CFG => lbCfgWrite s w
  | .OBS_LB_HEAD => lbHeadWrite s w
  | .OBS_LB_STAT => (s.setF F.OBS_LB_STAT_DROPPED 0 0).setF F.OBS_LB_STAT_CORR 0 0
  | .OBS_LB_MODE => lbModeWrite s i w
  | .OBS_RP_CTL => match w % 16 with
    | 1 => if hostOk s then rpGo s else s
    | 2 => rpStop s
    | _ => s
  | .OBS_TRC_STAT => s.setF F.OBS_TRC_STAT_DROPPED 0 0 |>.setF F.OBS_TRC_STAT_ITEMS 0 0
  | .OBS_PW_CTL => viewWrite s i w
  | .OBS_PW_TRC =>
    if s.fb F.INT_FEAT_OPENLAB then (match regsOBS.find? fun r => r.name == .OBS_TRC_CFG with
      | some r => storeFields s 0 (inWord s 0 v m r.fields) r.fields
      | none => s) else s
  | .CMT_ARM => armWrite s w
  | .CMT_COMMIT => commitWrite s w
  | _ => putFree s

/-- A write of the bytes of `m` at an 8-byte-aligned offset (spec/19 R498 to R501, spec/16 R431, R435). -/
def regWrite (s : State) (a v m : Nat) : State :=
  match shadowAt a with
  | some (w, second) =>
    if s.fb F.SCH_TTCTL_PEND then s
    else
      let e := mget (0, 0) s.sch.shadow w
      let mix (x : W64) : W64 := BitVec.ofNat 64 ((x.toNat &&& (2 ^ 64 - 1 - m)) ||| (v &&& m))
      { s with sch := { s.sch with shadow := mset s.sch.shadow w (if second then (e.1, mix e.2) else (mix e.1, e.2)) } }
  | none => match regLoc s a with
    | none => s
    | some l =>
      if windowShut s l ∨ regPresent s l = false then s
      else if (match l.pw with
          | some p => s.f F.PRT_STAT_STATE p == 2 && !windowTakes l.row.name
          | none => false) then s
      else regEffect s l a (inWord s l.i v m l.row.fields) v m

end Sys2Proof.Machine
end

