-- ==== Sys2Proof/Machine/HostOps.lean ====
section
/-! DEFINITION. The H-port and the porter (spec/18 R472 to R478, spec/14 R382, spec/19 R498, R499), the pins of the S-port and P-port, and the TAP (spec/18 R489 to R492). -/

namespace Sys2Proof.Machine

/-! ### Requests of the H-port -/

/-- Offsets of the doorbell pages, and of the reserved region above them. -/
def inDoorbells (off : Nat) : Bool := decide (0x1400000 ≤ off) && decide (off < 0x1440000)

/-- The answer to a request: a response other than OKAY sends an error item (spec/18 R477). -/
def hAnswer (s : State) (wr : Bool) (off : Nat) (r : Resp) (data : List Byte) : State :=
  let s := s.emit (.hRsp wr r data)
  if r = .okay then s else s.emit (.hErr wr off r)

/-- The rules of an access: beats of 1, 2, 4 or 8 bytes, aligned to the beat; several beats have 8 bytes each and lie in one block of 128 (spec/18 R476). -/
def hRules (off len : Nat) : Bool :=
  if len = 1 ∨ len = 2 ∨ len = 4 then off % len == 0
  else decide (0 < len) && len % 8 == 0 && off % 8 == 0 && decide (off / 128 = (off + len - 1) / 128)

/-- Rings every doorbell location a write has enabled bytes in (spec/02 R44; log 42). -/
def ringLocs (s : State) (off len strb : Nat) : State :=
  let locs := ((List.range len).filter strb.testBit).map fun i => (off + i) / 4 * 4
  locs.eraseDups.foldl (fun s a => doorbellWrite s ((a - 0x1400000) / 4096) (a % 4096)) s

/-- All ones. -/
def ones (n : Nat) : List Byte := List.replicate n 0xFF

/-- Registers the porter answers before step 3 of the start-up sequence (spec/18 R494), and asleep (spec/14 R382). -/
def earlyReg (a : Nat) : Bool := a == 0x108 || a == 0x100 || a == 0x100008 || a == 0x100018
def sleepReg (a : Nat) : Bool := a == 0x100008 || a == 0x100018

/-- A read that the porter answers itself: registers it knows, all ones elsewhere. -/
def porterRead (s : State) (known : Nat → Bool) (off len : Nat) : List Byte :=
  (List.range len).map fun i =>
    let a := (off + i) / 8 * 8
    if known a then BitVec.ofNat 8 (regPeek s a / 256 ^ ((off + i) % 8)) else 0xFF

/-- The words of a read, one register after another (spec/19 R499): the bytes read, whether every one could be read, whether an answer comes later. -/
def readWordsH : Nat → State → Nat → State × List Byte × Bool × Bool
  | 0, s, _ => (s, [], true, false)
  | n + 1, s, a =>
    let (s, v, ok, later) := regRead s a
    let (s, d, ok', later') := readWordsH n s (a + 8)
    (s, toBytes 8 v ++ d, ok && ok', later || later')

/-- The words of a write. -/
def writeWordsH : Nat → State → Nat → List Byte → Nat → State
  | 0, s, _, _, _ => s
  | n + 1, s, a, d, strb => writeWordsH n (if strb % 256 = 0 then s else regWrite s a (ofBytes (d.take 8)) (byteMask (strb % 256))) (a + 8) (d.drop 8) (strb / 256)

/-- The registers GAL_HOST_DATA and GAL_PW_DATA, whose accesses are answered when they complete. -/
def isGalData (a : Nat) : Bool := a == 0x40030 || (decide (0x1000000 ≤ a) && decide (a < 0x1400000) && a % 65536 == 0xF208)

/-- A request of the H-port: offset, direction, length, the bytes enabled, data (spec/18 R475 to R478). -/
def hPort (s : State) (off : Nat) (wr : Bool) (len strb : Nat) (data : List Byte) : State :=
  let st := s.f F.PWR_STATE_STATE
  if s.rst ≠ 0 then hAnswer s wr off .okay (if wr then [] else ones len)
  else if st = 5 ∧ s.pwr.step = 1 then s
  else if st = 2 ∨ st = 3 then
    if wr = false then hAnswer s false off .okay (porterRead s sleepReg off len)
    else if inDoorbells off then hAnswer (wakeEvent (ringLocs s off len strb) 7) true off .okay []
    else hAnswer s true off .okay []
  else if s.f F.INT_STARTUP_STEP < 2 then hAnswer s wr off .okay (if wr then [] else porterRead s earlyReg off len)
  else if hRules off len = false ∨ 0x1440000 ≤ off then hAnswer s wr off .refused (if wr then [] else List.replicate len 0)
  else if inDoorbells off then
    if wr = false then hAnswer s false off .okay (List.replicate len 0)
    else
      let s := ringLocs s off len strb
      hAnswer (if st = 4 then wakeEvent s 7 else s) true off .okay []
  else
    let a := off / 8 * 8
    let n := (len + 7) / 8
    if wr then
      let s := writeWordsH n s a (List.replicate (off % 8) 0 ++ data) (strb % 2 ^ len * 2 ^ (off % 8))
      if (List.range n).any fun j => isGalData (a + 8 * j) then s else hAnswer s true off .okay []
    else
      let (s, d, ok, later) := readWordsH n s a
      if later ∧ n = 1 then s
      else hAnswer s false off (if ok then .okay else .dataerr) ((d.drop (off % 8)).take len)

/-- DOORBELL_WRITE: a write of 4 bytes into a doorbell page. -/
def hDoorbell (s : State) (p off : Nat) : State := if 64 ≤ p ∨ 4096 ≤ off then s else hPort s (0x1400000 + 4096 * p + off / 4 * 4) true 4 15 []

/-- A write of a whole register by the host. -/
def hWrite (s : State) (off v : Nat) : State := hPort s off true 8 255 (toBytes 8 v)

/-! ### Pins (spec/18 R472, R489, R490) -/

/-- PRESENT: the always-on island is powered and out of reset. -/
def pinPresent (s : State) : Bool := aonOn s

/-- LANTERN, FAULT_FATAL, FAULT_CONTAINED: 0 in a warm reset. -/
def pinLantern (s : State) : Bool := s.rst == 0 && awakePin s && s.fb F.FLT_STAT_LANTERN
def pinFatal (s : State) : Bool := s.rst == 0 && s.fb F.FLT_FATAL_VALID
def pinContained (s : State) : Bool := s.rst == 0 && containedOut s

/-- An interrupt line, 0 to 63 INTREQ, 64 to 71 GINT: high for 4 cycles of a pulse and low for 4; GINT[1] is a level (spec/18 R479, R472). -/
def pinLine (s : State) (n : Nat) : Bool :=
  s.rst == 0 && s.f F.PWR_STATE_STATE != 2 && s.f F.PWR_STATE_STATE != 3
    && if n = 65 then !s.xlt.notes.isEmpty else decide (5 ≤ (mget (0, false) s.irq n).1)

/-- LREP_TX (`rx` 0) and LREP_RX (1) of a link: bit `n` for a repaired lane (spec/18 R488). -/
def pinLrep (s : State) (l rx : Nat) : Nat :=
  (List.range 128).foldl (fun v n => if (shownRepairs s l).contains (rx * 128 + n) then v + 2 ^ n else v) 0

/-- K_REQ: a request is out on the K-port. -/
def pinKReq (s : State) : Bool := s.cmt.kreq.isSome

/-- PD_REQ of a domain and PL_REQ of an island. -/
def pinPd (s : State) (d : Nat) : Nat := s.f F.PWR_DOM_REQ d
def pinPl (s : State) (i : Nat) : Nat := levelOf s i

/-! ### The TAP (spec/18 R491, R492) -/

/-- IDCODE of the block. -/
def idcode : Nat := 1 * 2 ^ 28 + 0x0E04 * 2 ^ 12 + Config.mfrId % 2 ^ 11 * 2 + 1

/-- The instruments of the 1687 network whose gate is open: 0 STATUS, 1 MBIST, 2 REGACCESS, 3 TRACECFG, 4 COREDBG, 5 VAULTRD. -/
def instrOpen (s : State) (k : Nat) : Bool :=
  let sd := s.fb F.INT_FEAT_SECUREDEBUG
  let ol := s.fb F.INT_FEAT_OPENLAB
  match k with
  | 0 => true
  | 1 => s.rst == 2
  | 2 => sd || ol
  | 3 => sd || ol
  | 4 => sd
  | 5 => sd
  | _ => false

/-- A register access through the TAP, as the porter would take it: while the control island does not run it answers what it knows and all ones (spec/18 R494, spec/14 R382; log 43). -/
def tapReg (s : State) (a : Nat) (wr : Bool) (v : W64) : State × Nat :=
  if s.ctlOn = false then (s, if wr then 0 else ofBytes (porterRead s (if s.rst = 0 ∧ s.f F.INT_STARTUP_STEP < 2 then earlyReg else if s.rst = 0 then sleepReg else fun _ => false) a 8))
  else if wr then (regWrite s a v.toNat (2 ^ 64 - 1), 0)
  else
    let r := regRead s a
    (r.1, r.2.1)

/-- An access to an open instrument: the state and what it reads. Results that the spec does not give, of a memory test and of a core's memory, are free values (log 3). -/
def instrument (s : State) (k off : Nat) (wr : Bool) (v : W64) : State × Nat :=
  match k with
  | 0 => (s, regPeek s (match off with
      | 0 => 0
      | 1 => 0x108
      | 2 => 0x100008
      | _ => 0xF0018))
  | 2 => tapReg s (off % 0x1000000 / 8 * 8) wr v
  | 3 => tapReg s (if off = 0 then 0x130A00 else 0x130A08) wr v
  | 5 =>
    let w := off / 8
    if 524288 ≤ w then (s, 0)
    -- the dormant image: its form is the fabric's own (spec/14 R379)
    else if s.fw.saved ∧ slotsBytes ≤ off then (s.freeW.2, s.freeW.1.toNat)
    else
      let r := vaultWord s w
      (r.1, if r.2 then ofBytes (vaultBytes r.1 (8 * w) 8) else 0)
  | _ =>
    let (w, s) := s.freeW
    (s, w.toNat)

/-- An access through the TAP with an instruction: IDCODE, BYPASS, or the instrument `k` of the network (spec/18 R491, R492; log 43). The TAP works in every state but without power and in PORESET_N. -/
def tapAccess (s : State) (ir k off : Nat) (wr : Bool) (v : W64) : State :=
  if aonOn s = false then s
  else
    let s : State := { s with tap := (s.tap.1, ir % 256) }
    if ir = 1 then s.emit (.tdo idcode)
    else if ir ≠ 0x10 then s.emit (.tdo (v.toNat * 2 % 2 ^ 64))
    else
      let s : State := { s with tap := (if instrOpen s k then [k] else [], 0x10) }
      if instrOpen s k = false then s.emit (.tdo 0)
      else
        let (s, r) := instrument s k off wr v
        s.emit (.tdo r)

end Sys2Proof.Machine
end

