-- ==== Sys2Proof/Machine/Finish.lean ====
section
/-! DEFINITION. The end of an access, by what it was made for, and the moves that follow from the state alone after every command: `State.run` applies a command's effect and then these. -/

namespace Sys2Proof.Machine

/-! ### The end of an access -/

/-- The end of a complete access, by its purpose. -/
def finishOp (s : State) (o : Op) : State :=
  match o.pur with
  | .none => s
  | .batch q => batchDone s q o
  | .batchOld q => queueSettle s q
  | .scanXl q arg => scanXlDone s q arg o
  | .ringXl q cq why => ringXlDone s q cq why o
  | .startXl q arg => startXlDone s q arg o
  | .argBlock q => argBlockDone s q o
  | .fetch q => fetchDone s q o
  | .record q irq isEnd sq => recordDone s q irq isEnd sq
  | .ld c => ldDone s c o
  | .st c => endByOp s c o
  | .stamp c => endByOp s c o
  | .snap c => endByOp s c o
  | .fenceRead c => fenceReadDone s c o
  | .watchXl c => watchXlDone s c o
  | .watchRead w => watchDone s w o
  | .watchRetrans c => watchRetransDone s c o
  | .memsigRead c => memsigReadDone s c o
  | .memsigWrite c => unlockWord (endByOp s c o) c
  | .enqRead c => enqReadDone s c o
  | .enqWrite c t => enqWritten s c t o
  | .parcelRead c => parcelReadDone s c o
  | .parcelWrite c => parcelWriteDone s c o
  | .move c _ => if (s.cmd? c).isSome then moveDone s c o else settleUnits s c
  | .tileHdr c => tileHdrDone s c o
  | .tileEntry c => tileEntryDone s c o
  | .resolve c k row wr => if (s.cmd? c).isSome then resolveDone s c k row wr o else settleUnits s c
  | .passTable c => passTableDone s c o
  | .passLoad c e what => passLoadDone s c e what o
  | .feeder n u m => feederDone s n u m o
  | .emitter n m => emitterDone s n m o
  | .coll c step => collOpDone s c step o
  | .engXl k utag rtag _ => engXlDone s k utag rtag o
  | .engGal k _ gtag => s.emit (.eGal k gtag o.status (if o.wr ∨ o.status ≠ .done then [] else o.data))
  | .hostData p _ => hostDataDone s p o.wr o
  | .linkRead _ src tag => remoteDone s src tag false o
  | .linkWrite _ src tag => remoteDone s src tag true o
  | .faultRec r id => faultRecDone s r id o
  | .ringPage r id => ringPageDone s r id o
  | .postmark => markWritten s
  | .letterbook _ => lbWritten s o
  | .lbGal _ => s
  | .replay => rpReadDone s o
  | .echo i => lineRead s i o
  | .scrub _ => s
  | .writeBack _ => s
  | .patrol => s
  | .invSeg v => invSegDone s v o

/-- A complete access that has met a page fault of a command, or of a fetch: PAGE_FAULT takes it (spec/10 R286). -/
def isPageFault (o : Op) : Bool :=
  o.complete && (match o.xfail with
    | some x => x.pf
    | none => false) && (match o.pur with
    | .startXl .. | .argBlock _ | .fetch _ | .watchXl _ => true
    | p => (purposeCmd p).isSome)

/-- The completion an access would make waits at its crossing (spec/15 R417). -/
def waitsToCross (s : State) (o : Op) : Bool :=
  (((purposeCmd o.pur).bind s.cmd?).map fun c => cbufFull s c.q).getD false

/-- Removes an access and takes its end. -/
def endOp (s : State) (o : Op) : State := finishOp { s with ops := s.ops.filter (·.id != o.id) } o

/-- Ends every complete access, the oldest first, but those that wait for PAGE_FAULT. -/
def finishAll : Nat → State → State
  | 0, s => s
  | n + 1, s =>
    match s.ops.find? (fun o => o.complete && !isPageFault o && !waitsToCross s o) with
    | none => s
    | some o => finishAll n (endOp s o)

/-- PAGE_FAULT: the oldest one that waits. -/
def pageFault (s : State) : State :=
  match s.ops.find? isPageFault with
  | none => s
  | some o => endOp s o

/-! ### What follows from the state alone -/

/-- While its partition is being disabled, what a queue has set aside completes with PARTITION_DISABLED, in drain mode too (spec/10 R291, spec/16 R435 step 3). -/
def disableAsides (s : State) (q : Nat) : State :=
  if s.f F.PRT_STAT_STATE (s.qPart q) ≠ 2 then s
  else
    let s := (asides s q).foldl (fun s c => endCmd (s.setCmd { c with st := .running }) c.id .partitionDisabled) s
    if (s.q q).asideFetch.isSome then endProgramWith (s.setQ q { s.q q with asideFetch := none }) q .partitionDisabled else s

/-- The moves of the queues: their decoders, end records, states. -/
def settleQueues (s : State) : State :=
  s.qs.foldl (fun s e => queueSettle (advance (pushEnds (s.q e.1).descs.length (disableAsides s e.1) e.1) e.1) e.1) s

/-- The records of every ring that wait for space. -/
def settleRings (s : State) : State :=
  xlResume (((s.flt.recs.map RingRec.ring).eraseDups).foldl (fun s r => pumpRing 64 s r) s)

/-- The moves of the units that need no command of their own. -/
def settleUnitsAll (s : State) : State :=
  drainSettle (shareSettle (pstopSettle (collPump 512 (pumpStations 8 s))))

/-- The moves of the echo pair, the replay run, the observation unit and the faults. -/
def settleSides (s : State) : State :=
  stallSettle (replaySettle (echoSettle (compareSettle (lsigSettle (finishSettle (settleRings s))))))

/-- The moves of power control, the start-up sequence and a pending update. -/
def settlePower (s : State) : State :=
  updateSettle (startSettle (pwrSettle 16 (busySettle (heldSettle s))))

/-- All of them, between two rounds of ended accesses. -/
def settle (s : State) : State :=
  if s.rst ≠ 0 then s
  else (finishAll 256 (settlePower (settleSides (settleQueues (settleUnitsAll (finishAll 256 s)))))).flushLinks

/-- The state after a command whose own effect on `s` gives `e`: what follows from the state alone has happened too; the build and the waiting commands are those of `s`. -/
def State.close (s e : State) : State := { settle e with b := s.b, pending := s.pending }

/-- The state a command's own effect begins from: the outputs of the step before are gone. -/
def State.clear (s : State) : State := { s with out := [] }

/-- A command's effect `f` with what follows from it. -/
def State.run (s : State) (f : State → State) : State := s.close (f s.clear)

end Sys2Proof.Machine
end

