-- ==== Sys2Proof/Machine/MPortOps.lean ====
section
/-! DEFINITION. Answers of the M-ports (spec/18 R480, R481). -/

namespace Sys2Proof.Machine

/-- The request that an answer with a tag names: sent, of that direction, not answered yet. -/
def mreqOf (s : State) (tag : Nat) (wr : Bool) : Option MReq :=
  s.mreqs.find? fun r => r.tag == tag && r.sent && r.wr == wr && r.errAt.isNone

/-- What a request is made for. -/
def mPurpose (s : State) (r : MReq) : Purpose :=
  match s.op? r.op with
  | some o => o.pur
  | none => .none

/-- The request no longer counts as unanswered, and those behind it may leave. -/
def mDrop (s : State) (tag : Nat) : State := State.pumpM { s with mreqs := s.mreqs.filter fun x => x.tag != tag }

/-- Gives a request's answer to its access: to its walk, or to its part. -/
def mGive (s : State) (r : MReq) (resp : Resp) (data : List Byte) : State :=
  match s.op? r.op with
  | none => s
  | some o =>
    if o.walk.any (fun w => w.tag == r.tag) then walkData s r.op resp data
    else partDone s r.op r.tag (if resp = .okay then .done else .uncorrected) data

/-- The access that an answer has completed ends, when it waits for nothing else. -/
def answered (s : State) (op : Nat) : State :=
  match s.op? op with
  | some o => if o.complete && !isPageFault o && !waitsToCross s o then endOp s o else s
  | none => s

/-- BUS_ERROR (spec/13 R354): it names the port, the command and the address of the error item. -/
def busError (s : State) (r : MReq) (addr : Nat) : State :=
  let c := match s.op? r.op with
    | some o => (purposeCmd o.pur).bind s.cmd?
    | none => none
  s.raise ⟨11, 1, 1, false, true, r.port, if r.idn.priv then none else some r.idn.part, Status.uncorrected.code,
    commonDetail addr (c.map Cmd.at) r.port 0 0 0 0, c.map Cmd.id, none⟩

/-- The answer of an error response is complete once its address is known, or is not to come. -/
def mFail (s : State) (r : MReq) (addr : Nat) : State :=
  let s := busError s r addr
  answered (mDrop (mGive s r .dataerr []) r.tag) r.op

/-- M_PORT_READ_DATA: data of a read, or an error response that awaits its error item. -/
def mReadData (s : State) (tag : Nat) (resp : Resp) (data : List Byte) : State :=
  match mreqOf s tag false with
  | none => s
  | some r =>
    if resp = .okay then answered (mDrop (mGive s r .okay (data.take r.len ++ List.replicate (r.len - data.length) 0)) tag) r.op
    else { s with mreqs := s.mreqs.map fun x => if x.tag = tag then { x with errAt := some s.time } else x }

/-- M_PORT_WRITE_RESPONSE: watches that the write overlaps are read again, whatever the response (spec/05 R148). -/
def mWriteResp (s : State) (tag : Nat) (resp : Resp) : State :=
  match mreqOf s tag true with
  | none => s
  | some r =>
    if resp = .okay then watchesHit (answered (mDrop (mGive s r .okay []) tag) r.op) r.pa r.len
    else watchesHit { s with mreqs := s.mreqs.map fun x => if x.tag = tag then { x with errAt := some s.time } else x } r.pa r.len

/-- An error item of a port: the oldest request that awaits one and holds its address takes it. -/
def mErrorItem (s : State) (port addr : Nat) : State :=
  match s.mreqs.find? fun r => r.port == port && r.errAt.isSome && decide (r.pa ≤ addr) && decide (addr < r.pa + r.len) with
  | none => s
  | some r => mFail s r addr

/-- No error item came within 1,000 CLK_CTL cycles: ADDR is 0. -/
def mErrorExpiry (s : State) (tag : Nat) : State :=
  match s.mreqs.find? fun r => r.tag == tag && r.errAt.isSome with
  | none => s
  | some r => mFail s r 0

/-- Restricts a read answer to accesses of a purpose. -/
def mReadFor (s : State) (sel : Purpose → Bool) (tag : Nat) (resp : Resp) (data : List Byte) : State :=
  match mreqOf s tag false with
  | some r => if sel (mPurpose s r) then mReadData s tag resp data else s
  | none => s

/-- Restricts a write answer to accesses of a purpose. -/
def mWriteFor (s : State) (sel : Purpose → Bool) (tag : Nat) (resp : Resp) : State :=
  match mreqOf s tag true with
  | some r => if sel (mPurpose s r) then mWriteResp s tag resp else s
  | none => s

/-! ### Writes of the host that are commands of their own -/

/-- A register write that the host makes: the porter discards it in a reset, before the control island runs and asleep, and holds it while the island wakes; else the register takes it and it is answered (spec/18 R472, R494, R495, spec/14 R382). -/
def hostCmd (s : State) (off : Nat) (f : State → State) : State :=
  let st := s.f F.PWR_STATE_STATE
  if s.rst = 0 ∧ st = 5 ∧ s.pwr.step = 1 then s
  else if s.rst ≠ 0 ∨ st = 2 ∨ st = 3 ∨ s.f F.INT_STARTUP_STEP < 2 then hAnswer s true off .okay []
  else hAnswer (f s) true off .okay []

/-- A write in a partition window: ignored while the partition is DISABLED, and while it is being disabled unless the register still takes writes (spec/16 R431, R435). -/
def windowCmd (s : State) (p off : Nat) (takes : Bool) (f : State → State) : State :=
  if 64 ≤ p then s
  else hostCmd s (0x1000000 + 0x10000 * p + off) fun s =>
    if s.f F.PRT_STAT_STATE p = 1 ∨ (s.f F.PRT_STAT_STATE p = 2 ∧ takes) then f s else s

/-- The offset stands for register `reg` of queue `q`'s view: the privileged view with QE_QSEL at `q`, or the view at its doorbell slot in its partition's window (spec/02 R60). -/
def viewAt (s : State) (q reg off : Nat) : Bool :=
  match regLoc s off with
  | some l => l.row.off == 0x10100 + reg && l.i == q
  | none => false

/-- A write of a register of queue `q`'s view, at an offset. -/
def queueCmd (s : State) (q reg off : Nat) (takes : Bool) (f : State → State) : State :=
  if viewAt s q reg off = false then s
  else if off < 0x1000000 then hostCmd s off f
  else windowCmd s ((off - 0x1000000) / 0x10000) (off % 0x10000) takes f

end Sys2Proof.Machine
end

