-- ==== Sys2Proof/Machine/EPortOps.lean ====
section
/-! DEFINITION. What engines send on their ports beside completions and translation requests (spec/18 R485, R486), and events of time in the pigeonhole unit, the halls and the block's clock. -/

namespace Sys2Proof.Machine

/-! ### Gallery requests of engines (spec/18 R485, spec/07 R182) -/

/-- Gallery requests of a port that have not been answered. -/
def engPending (s : State) (k : Nat) : Nat := (s.ops.filter fun (o : Op) => match o.pur with
  | .engGal j _ _ => j == k
  | _ => false).length

/-- A gallery request of an engine, checked with the identity of the unit that UTAG names; one that names no unit has no identity and is refused (log 44). -/
def galleryReq (s : State) (k utag gtag addr : Nat) (col : Bool) (mask : Nat) (wr sealed trn : Bool) (data : List Byte) : State :=
  if s.b.eports ≤ k ∨ s.ctlOn = false ∨ s.flt.halt ≥ 6 ∨ 64 ≤ engPending s k then s
  else match unitByTag s k utag with
    | none => State.incF (s.emit (.eGal k gtag .xlateFault [])) F.GAL_STAT_REFUSED 0
    | some u =>
      if s.cmdHeld u.cmd then s
      else
      let a := if col then addr / 32 * 32 else addr / 512 * 512
      let idn : Ident := ⟨u.part, some (s.qCtx u.q), false⟩
      let id := s.nid
      let o := { mkOp (.engGal k utag gtag) idn k .gal a 512 wr ((data ++ List.replicate 512 0).take 512) with
                 id, trn, sealed, cur := 512, parts := [⟨id + 1, 0, 512, a, .gallery, true, none⟩] }
      let s : State := { s with ops := s.ops ++ [{ o with data := if wr then o.data else List.replicate 512 0 }], nid := s.nid + 2 }
      if s.domOn (s.b.domLogic (s.hallOf a)) = false then partDone s id (id + 1) .chamberDark []
      else s.hIssue ⟨id + 1, id, k, idn, a, 512, wr, col, 2 ^ 16 + mask % 2 ^ 16, trn, sealed, false, if wr then o.data else [], none, none⟩

/-! ### Control messages of engines (spec/18 R486) -/

/-- CAPS: the class, revision and compression modes an engine reports; classes 6 and 8 to 15 are treated as 7. -/
def capsMsg (s : State) (k : Nat) (w : W64) : State :=
  if s.b.eports ≤ k ∨ s.ctlOn = false ∨ fieldOf w 63 56 ≠ 1 then s
  else
    let c := fieldOf w 55 52
    let c := if c = 6 ∨ 8 ≤ c then 7 else c
    (((s.setF F.INT_EPORT_REPORTED k 1).setF F.INT_EPORT_CLASS k c).setF F.INT_EPORT_IFREV k (fieldOf w 51 48)).setF F.INT_EPORT_COMP k
      (if c = 5 then fieldOf w 47 44 else 0)

/-- READY: units may be placed on the port; a reset of the engine has ended, and it counts as drained. -/
def readyMsg (s : State) (k : Nat) : State :=
  if s.b.eports ≤ k ∨ s.ctlOn = false ∨ s.fb F.INT_EPORT_REPORTED k = false ∨ s.fb F.INT_EPORT_READY k then s
  else drainPort (State.setF { s with sch := { s.sch with resets := mdel s.sch.resets k } } F.INT_EPORT_READY k 1) k

/-- A control message to an engine: OP and WTAG. -/
def waitMsg (s : State) (k op wtag : Nat) : State := s.emit (.eCtl k (BitVec.ofNat 64 (op * 2 ^ 56 + wtag % 256 * 2 ^ 48)))

/-- WAITREQ: checked against the allotment of its unit's partition, the quota and the pool; then its check-and-join (spec/05 R138, R140, R142). -/
def waitReq (s : State) (k : Nat) (w0 thr : W64) : State :=
  let wtag := fieldOf w0 55 48
  let n := fieldOf w0 20 0
  if s.b.eports ≤ k ∨ s.ctlOn = false ∨ s.flt.halt ≥ 6 then s
  else match unitByTag s k (fieldOf w0 47 32) with
    | none => waitMsg s k 0x84 wtag
    | some u =>
      let used := (s.waits.filter fun x => 8192 ≤ x.ent).map Waiter.ent
      if inAllot s u.part n = false then signalRange (waitMsg s k 0x84 wtag) k u.part (s.cmd? u.cmd)
      else
        if min 253952 (s.f F.PH_WQUOTA_QUOTA u.part) ≤ wUsed s u.part ∨ 253952 ≤ used.length then waitMsg s k 0x84 wtag
        else
        let s := phTouch s n
        match (s.row n).st with
        | .poisoned => waitMsg s k 0x85 wtag
        | .scrubbing => waitMsg s k 0x85 wtag
        | .normal =>
          if thr ≤ (s.row n).value then waitMsg s k 0x83 wtag
          else
            let (f, s) := s.freeW
            phInj { s with waits := s.waits ++ [⟨poolEntry used used.length f.toNat, .ph n, .engine k wtag, u.part, s.qCtx u.q, 0, thr, none, s.time, none⟩] } n false

/-- WAITCANCEL: the waiter leaves its list. -/
def waitCancel (s : State) (k : Nat) (w0 : W64) : State :=
  { s with waits := s.waits.filter fun x => x.who != .engine k (fieldOf w0 55 48) }

/-! ### Events of time -/

/-- The waiter of a queue's WAITGE, with its command. -/
def waiterOf (s : State) (q : Nat) : Option (Waiter × Cmd) :=
  s.waits.findSome? fun w => match w.who with
    | .queue k id => if k = q then (s.cmd? id).map fun c => (w, c) else none
    | _ => none

/-- A WAITGE's timeout has passed while it still waits; the letterbook records it. In a replay run its record decides, and its timer is not used (spec/05 R145, spec/17 R462). -/
def waitTimeout (s : State) (q : Nat) : State :=
  match waiterOf s q with
  | none => s
  | some (w, c) =>
    let end_ (s : State) : State := freeWatches (wake (s.note (some w.part) false 6 (some q) (sqOrd c.sq c.ord) 0) w .timeout)
    match s.verdict w.part (some q) (.queue q) with
    | .wait => s
    | .must r => if lbKind r = 6 ∧ lbBits r 2 63 32 = c.sq % 2 ^ 32 ∧ lbBits r 2 31 12 = c.ord % 2 ^ 20 then end_ (s.applied r) else s
    | .free => if w.expiry.any (fun t => decide (t ≤ s.time)) then end_ s else s

/-- A freed watch goes to the WAITGE that has waited for one longest (spec/05 R147). -/
def watchFree (s : State) : State :=
  if 4096 ≤ s.watches.length then s
  else match s.waits.find? fun w => match w.tgt with
      | .nowatch .. => true
      | _ => false with
    | some w => match w.tgt with
      | .nowatch part pa tgt => joinWatch (dropWaiter s w) w part pa tgt true s.time
      | _ => s
    | none => s

/-- The poll interval of a watch's partition has passed since its last read (spec/05 R148). -/
def pollExpiry (s : State) (id : Nat) : State :=
  match s.watches.find? (·.id == id) with
  | some w =>
    let n := pollInterval s w.part
    if n = 0 ∨ s.time < w.lastRead + n * 1000 ∨ w.reading then s else watchRead s w
  | none => s

/-- A gather entry has waited 64 hall cycles for a slot of its requester (spec/07 R193). -/
def gatherDue (s : State) (req line : Nat) : State :=
  { s with gal := { s.gal with gather := s.gal.gather.map fun (g : Gather) =>
      if g.req = req ∧ g.line = line ∧ 64 ≤ g.age then { g with due := true } else g } }

/-- An increment that crosses reaches its franking counter, the oldest first (spec/07 R200). -/
def frankCross (s : State) : State :=
  match s.gal.incs with
  | [] => s
  | (n, k) :: l => if s.ctlOn = false then s else frankInc { s with gal := { s.gal with incs := l } } n k

/-- A patrol period begins; a pass that still runs is followed by the next (spec/07 R203). -/
def patrolStart (s : State) : State :=
  let p := s.f F.GAL_SCRUB_PATROL
  if p = 0 ∨ s.ctlOn = false ∨ s.time < s.gal.patrolAt + p * 1000000 then s
  else
    patrolSettle { s with gal := { s.gal with patrolAt := s.time, patrolNext := true } }

/-- The interrupt lines count down their pulse and its gap; a merged raise begins a further pulse (spec/18 R479). -/
def irqTick (s : State) : State :=
  { s with irq := s.irq.filterMap fun e =>
      if 1 < e.2.1 then some (e.1, (e.2.1 - 1, e.2.2)) else if e.2.2 then some (e.1, (8, false)) else none }

/-- One CLK_AON cycle: fabric time advances by 4 ns, and by 3 or 5 as the rate correction gathers a whole ns; one trace word leaves (spec/11 R310, R313, spec/17 R454). -/
def timeAdvance (s : State) : State :=
  if s.rst = 1 ∨ s.rst = 4 then s
  else
    let acc := s.tsync.acc + s.tsync.rate
    let (adv, acc) := if 65536 ≤ acc then (5, acc - 65536) else if acc ≤ -65536 then (3, acc + 65536) else ((4 : Nat), acc)
    let asleep := s.f F.PWR_STATE_STATE = 2 ∨ s.f F.PWR_STATE_STATE = 3
    let s := (if asleep then id else irqTick) { s with time := s.time + adv, tsync := { s.tsync with acc, cycles := s.tsync.cycles + 1 } }
    if s.rst = 0 ∧ s.ctlOn then traceDrain s else s

/-- Cycle counters of a station that runs: how many cycles pass at its clock's level, and in how many it stalls, the spec does not state (log 3). -/
def stnCycles (s : State) (n : Nat) : State :=
  let (a, s) := s.freeW
  let (b, s) := s.freeW
  (s.setF F.STN_RUNCYC_CYCLES n a.toNat).setF F.STN_STALLCYC_CYCLES n b.toNat

/-- The running stations' counters at a cycle. -/
def stnTick (s : State) : State := ((List.range s.b.stations).filter (stnRuns s)).foldl stnCycles s

end Sys2Proof.Machine
end

