-- ==== Sys2Proof/Machine/CommandRows.lean ====
section
/-! DEFINITION. The commands of Ubzico that a sorter decodes (spec/03, spec/04): each starts the ready command of a queue when it is the row's; `runCmd` says what a started command does. -/

namespace Sys2Proof.Machine

/-- NOP: The NOP command does nothing. (spec/03 R74) -/
def execNop (q : Nat) (s : State) : Host.Outcome State Fault Refusal :=
  .next (s.run fun s => onReady s q (fun | .nop _ => true | _ => false))

/-- JUMP: JUMP sets the program counter to its target. (spec/03 R74) -/
def execJump (q : Nat) (s : State) : Host.Outcome State Fault Refusal :=
  .next (s.run fun s => onReady s q (fun | .jump _ => true | _ => false))

/-- BRANCH: BRANCH jumps to its target when COND holds for GA and GB. (spec/03 R74) -/
def execBranch (q : Nat) (s : State) : Host.Outcome State Fault Refusal :=
  .next (s.run fun s => onReady s q (fun | .branch .. => true | _ => false))

/-- LOOP: LOOP decrements GC and jumps to its target while the result is not 0. (spec/03 R74) -/
def execLoop (q : Nat) (s : State) : Host.Outcome State Fault Refusal :=
  .next (s.run fun s => onReady s q (fun | .loop .. => true | _ => false))

/-- CALLP: CALLP pushes the return address, pins the newest edition of the parcel and continues at its word 0. (spec/03 R74) -/
def execCallp (q : Nat) (s : State) : Host.Outcome State Fault Refusal :=
  .next (s.run fun s => onReady s q (fun | .callp _ => true | _ => false))

/-- RET: RET pops the call stack and releases the pinned edition, or ends the program at call depth 0. (spec/03 R74) -/
def execRet (q : Nat) (s : State) : Host.Outcome State Fault Refusal :=
  .next (s.run fun s => onReady s q (fun | .ret => true | _ => false))

/-- MOVI: MOVI writes GD with a sign-extended short immediate or a 64-bit word. (spec/03 R75) -/
def execMovi (q : Nat) (s : State) : Host.Outcome State Fault Refusal :=
  .next (s.run fun s => onReady s q (fun | .movi .. => true | .movil .. => true | _ => false))

/-- ADD: ADD writes GD with GA plus B modulo 2^64. (spec/03 R76) -/
def execAdd (q : Nat) (s : State) : Host.Outcome State Fault Refusal :=
  .next (s.run fun s => onReady s q (fun | .alu .add .. => true | _ => false))

/-- SUB: SUB writes GD with GA minus B modulo 2^64. (spec/03 R76) -/
def execSub (q : Nat) (s : State) : Host.Outcome State Fault Refusal :=
  .next (s.run fun s => onReady s q (fun | .alu .sub .. => true | _ => false))

/-- AND: AND writes GD with GA AND B. (spec/03 R76) -/
def execAnd (q : Nat) (s : State) : Host.Outcome State Fault Refusal :=
  .next (s.run fun s => onReady s q (fun | .alu .and .. => true | _ => false))

/-- OR: OR writes GD with GA OR B. (spec/03 R76) -/
def execOr (q : Nat) (s : State) : Host.Outcome State Fault Refusal :=
  .next (s.run fun s => onReady s q (fun | .alu .or .. => true | _ => false))

/-- XOR: XOR writes GD with GA XOR B. (spec/03 R76) -/
def execXor (q : Nat) (s : State) : Host.Outcome State Fault Refusal :=
  .next (s.run fun s => onReady s q (fun | .alu .xor .. => true | _ => false))

/-- SHL: SHL shifts GA left by B[5:0] into GD. (spec/03 R76) -/
def execShl (q : Nat) (s : State) : Host.Outcome State Fault Refusal :=
  .next (s.run fun s => onReady s q (fun | .alu .shl .. => true | _ => false))

/-- SHR: SHR shifts GA right by B[5:0], logically or arithmetically, into GD. (spec/03 R76) -/
def execShr (q : Nat) (s : State) : Host.Outcome State Fault Refusal :=
  .next (s.run fun s => onReady s q (fun | .alu (.shr _) .. => true | _ => false))

/-- CMP: CMP evaluates a condition and combines the result into predicate PD. (spec/03 R77) -/
def execCmp (q : Nat) (s : State) : Host.Outcome State Fault Refusal :=
  .next (s.run fun s => onReady s q (fun | .cmp .. => true | _ => false))

/-- LD: LD reads 1 to 8 bytes from memory or the gallery into GD, zero-extended, completing when the data arrives. (spec/03 R78) -/
def execLd (q : Nat) (s : State) : Host.Outcome State Fault Refusal :=
  .next (s.run fun s => onReady s q (fun | .ld .. => true | _ => false))

/-- ST: ST writes the low bytes of GS to memory or the gallery, completing on the write response or hall slot. (spec/03 R78) -/
def execSt (q : Nat) (s : State) : Host.Outcome State Fault Refusal :=
  .next (s.run fun s => onReady s q (fun | .st .. => true | _ => false))

/-- WAITGE: WAITGE waits until a pigeonhole, memory fence or franking counter reaches a threshold, joining a waiter list or watch when not yet met. (spec/03 R79) -/
def execWaitge (q : Nat) (s : State) : Host.Outcome State Fault Refusal :=
  .next (s.run fun s => onReady s q (fun | .waitge .. => true | _ => false))

/-- SIGNAL: SIGNAL applies SET, ADD or MAX to a pigeonhole in the pigeonhole unit and wakes every waiter whose threshold is met. (spec/03 R80) -/
def execSignal (q : Nat) (s : State) : Host.Outcome State Fault Refusal :=
  .next (s.run fun s => onReady s q (fun | .signal .. => true | _ => false))

/-- MEMSIGNAL: MEMSIGNAL writes a 64-bit value to a memory fence, optionally only when greater, completing on the write response. (spec/03 R81) -/
def execMemsignal (q : Nat) (s : State) : Host.Outcome State Fault Refusal :=
  .next (s.run fun s => onReady s q (fun | .memsignal .. => true | _ => false))

/-- BARRIER: BARRIER completes when every command the program started before it has completed. (spec/03 R82) -/
def execBarrier (q : Nat) (s : State) : Host.Outcome State Fault Refusal :=
  .next (s.run fun s => onReady s q (fun | .barrier => true | _ => false))

/-- LAUNCH: LAUNCH hands a 256-bit engine command to the scheduler for a pinned port or a port of an engine group. (spec/03 R85) -/
def execLaunch (q : Nat) (s : State) : Host.Outcome State Fault Refusal :=
  .next (s.run fun s => onReady s q (fun | .launch .. => true | _ => false))

/-- DISPATCH: DISPATCH cuts a grid of work items into chunks and issues them in ascending order to ports of an engine group. (spec/03 R86) -/
def execDispatch (q : Nat) (s : State) : Host.Outcome State Fault Refusal :=
  .next (s.run fun s => onReady s q (fun | .dispatch .. => true | _ => false))

/-- TILEPASS: TILEPASS walks tile lists and issues per-tile shading launches and resolve writes. (spec/03 R87) -/
def execTilepass (q : Nat) (s : State) : Host.Outcome State Fault Refusal :=
  .next (s.run fun s => onReady s q (fun | .tilepass .. => true | _ => false))

/-- COPY: COPY moves LEN bytes from SRC to DST through a courier or the near-memory unit. (spec/03 R88) -/
def execCopy (q : Nat) (s : State) : Host.Outcome State Fault Refusal :=
  .next (s.run fun s => onReady s q (fun | .copy .. => true | _ => false))

/-- FILL: FILL writes LEN bytes at DST with a repeated pattern. (spec/03 R88) -/
def execFill (q : Nat) (s : State) : Host.Outcome State Fault Refusal :=
  .next (s.run fun s => onReady s q (fun | .fill .. => true | _ => false))

/-- DMA: DMA moves ROWS rows of ROWBYTES bytes with source and destination strides. (spec/03 R88) -/
def execDma (q : Nat) (s : State) : Host.Outcome State Fault Refusal :=
  .next (s.run fun s => onReady s q (fun | .dma .. => true | _ => false))

/-- SEAL: SEAL arms a seal region with its modes and sets every seal bit of the region full or empty. (spec/03 R90) -/
def execSeal (q : Nat) (s : State) : Host.Outcome State Fault Refusal :=
  .next (s.run fun s => onReady s q (fun | .seal .. => true | _ => false))

/-- UNSEAL: UNSEAL disarms a seal region, failing waiting sealed accesses with SEAL_TIMEOUT. (spec/03 R90) -/
def execUnseal (q : Nat) (s : State) : Host.Outcome State Fault Refusal :=
  .next (s.run fun s => onReady s q (fun | .unseal _ => true | _ => false))

/-- FRANK: FRANK reads a franking counter into GD or resets it to 0. (spec/03 R91) -/
def execFrank (q : Nat) (s : State) : Host.Outcome State Fault Refusal :=
  .next (s.run fun s => onReady s q (fun | .frank .. => true | _ => false))

/-- PASSAGE: PASSAGE loads station programs and operand tables into a range of stations and starts them. (spec/03 R92) -/
def execPassage (q : Nat) (s : State) : Host.Outcome State Fault Refusal :=
  .next (s.run fun s => onReady s q (fun | .passage .. => true | _ => false))

/-- PSTOP: PSTOP halts a running passage of the same queue, which completes with ABORTED. (spec/03 R93) -/
def execPstop (q : Nat) (s : State) : Host.Outcome State Fault Refusal :=
  .next (s.run fun s => onReady s q (fun | .pstop _ => true | _ => false))

/-- ENQUEUE: ENQUEUE reads a descriptor image and writes it into a target queue's ring at the next PCOUNT, then sets the target's pending bit. (spec/04 R119) -/
def execEnqueue (q : Nat) (s : State) : Host.Outcome State Fault Refusal :=
  .next (s.run fun s => onReady s q (fun | .enqueue .. => true | _ => false))

/-- COLLECT: COLLECT hands a collective operation over a collective group to a relay core. (spec/03 R95) -/
def execCollect (q : Nat) (s : State) : Host.Outcome State Fault Refusal :=
  .next (s.run fun s => onReady s q (fun | .collect .. => true | _ => false))

/-- STAMP: STAMP takes fabric time when every earlier command has started and writes it to GD or memory. (spec/03 R96) -/
def execStamp (q : Nat) (s : State) : Host.Outcome State Fault Refusal :=
  .next (s.run fun s => onReady s q (fun | .stamp _ => true | .stampm _ => true | _ => false))

/-- SNAP: SNAP writes a counter set, sampled in one control-island cycle, to memory. (spec/03 R97) -/
def execSnap (q : Nat) (s : State) : Host.Outcome State Fault Refusal :=
  .next (s.run fun s => onReady s q (fun | .snap .. => true | _ => false))

/-- PDEF: PDEF copies words into parcel memory and publishes them as the newest edition of a parcel. (spec/03 R98) -/
def execPdef (q : Nat) (s : State) : Host.Outcome State Fault Refusal :=
  .next (s.run fun s => onReady s q (fun | .pdef .. => true | _ => false))

/-- PPATCH: PPATCH makes a new edition from the newest one with patch words placed at OFFSET. (spec/03 R98) -/
def execPpatch (q : Nat) (s : State) : Host.Outcome State Fault Refusal :=
  .next (s.run fun s => onReady s q (fun | .ppatch .. => true | _ => false))

/-- PFREE: PFREE makes a parcel undefined; pinned editions continue until released. (spec/03 R98) -/
def execPfree (q : Nat) (s : State) : Host.Outcome State Fault Refusal :=
  .next (s.run fun s => onReady s q (fun | .pfree _ => true | _ => false))

/-- XINVAL: XINVAL starts an invalidation of a context, segment or range of any partition and completes when its drain ends. (spec/03 R99) -/
def execXinval (q : Nat) (s : State) : Host.Outcome State Fault Refusal :=
  .next (s.run fun s => onReady s q (fun | .xinval .. => true | _ => false))

/-- PHRESET: PHRESET sets any pigeonhole to a value, possibly lower, and wakes waiters that value meets. (spec/03 R100) -/
def execPhreset (q : Nat) (s : State) : Host.Outcome State Fault Refusal :=
  .next (s.run fun s => onReady s q (fun | .phreset .. => true | _ => false))

end Sys2Proof.Machine
end

