-- ==== Sys2Proof/Machine/EchoRows.lean ====
section
/-! DEFINITION. Commands of echo pairs (spec/12). -/

namespace Sys2Proof.Machine

/-- PAIR_MIRROR: ECH_CTL PAIR_MIRROR starts pairing in MIRROR mode. (spec/12 R334) -/
def execPairMirror (s : State) : Host.Outcome State Fault Refusal :=
  .next (s.run fun s => hostCmd s 0xE0008 (fun s => if hostOk s then pairOn (startPair s 1) else s))

/-- PAIR_COMPARE: ECH_CTL PAIR_COMPARE starts pairing in COMPARE mode. (spec/12 R334) -/
def execPairCompare (s : State) : Host.Outcome State Fault Refusal :=
  .next (s.run fun s => hostCmd s 0xE0008 (fun s => if hostOk s then pairOn (startPair s 2) else s))

/-- SOLO: ECH_CTL SOLO sets MODE to SOLO and parks the echo port. (spec/12 R350) -/
def execSolo (s : State) : Host.Outcome State Fault Refusal :=
  .next (s.run fun s => hostCmd s 0xE0008 (fun s => if hostOk s then goSolo s else s))

/-- ECHO_FLIT_RECEIVE: An echo flit is accepted when CHECK and SEQ match, or discarded and counted. (spec/12 R330) -/
def execEchoFlitReceive (flit : List Byte) (s : State) : Host.Outcome State Fault Refusal :=
  .next (s.run fun s => echoFlit s flit)

/-- ECHO_RESEND_EXPIRY: ACK has not advanced for 8 µs and unacknowledged flits are sent again, the port going DOWN after 16 sends. (spec/12 R330) -/
def execEchoResendExpiry (s : State) : Host.Outcome State Fault Refusal :=
  .next (s.run fun s => echoResend s)

/-- HEARTBEAT: A heartbeat record from the twin is applied, carrying its mode, role and TIEBREAK. (spec/12 R337) -/
def execHeartbeat (_mode : Nat) (_role : Nat) (tb : Bool) (_healthy : Bool) (s : State) : Host.Outcome State Fault Refusal :=
  .next (s.run fun s => recvHeartbeat s tb)

/-- HEARTBEAT_SEND: Every ECH_HB.PERIOD µs each twin sends a heartbeat. (spec/12 R337) -/
def execHeartbeatSend (s : State) : Host.Outcome State Fault Refusal :=
  .next (s.run fun s => sendHeartbeat s)

/-- QSTATE: A mirrored queue's checkpoint state record is applied by the twin. (spec/12 R337) -/
def execQstate (q : Nat) (qst : Nat) (pend : Bool) (sq : Nat) (cq : Nat) (head : Nat) (pr : Nat) (pc : Nat) (epoch : Nat) (g : List W64) (loc : Option EdKey) (stack : List Frame) (s : State) : Host.Outcome State Fault Refusal :=
  .next (s.run fun s => recvQstate s (.qstate q qst pend sq cq head pr pc epoch ((List.range 32).foldl (fun m i => mset m i (g.getD i 0)) []) loc stack) q)

/-- PHVAL: A pigeonhole value record is applied as that value. (spec/12 R337) -/
def execPhval (ph : Nat) (v : W64) (s : State) : Host.Outcome State Fault Refusal :=
  .next (s.run fun s => recvPhval s ph v)

/-- FKVAL: A franking counter value record is applied as that value. (spec/12 R337) -/
def execFkval (c : Nat) (v : W64) (s : State) : Host.Outcome State Fault Refusal :=
  .next (s.run fun s => recvFkval s c v)

/-- LINE: A mirrored tile line with its seal bit is written by requester 122. (spec/12 R337) -/
def execLine (addr : Nat) (data : List Byte) (full : Bool) (s : State) : Host.Outcome State Fault Refusal :=
  .next (s.run fun s => recvLine s addr data full)

/-- PARCEL: A parcel edition record is applied by the twin. (spec/12 R337) -/
def execParcel (p : Nat) (n : Nat) (gen : Nat) (ed : Nat) (dram : Bool) (addr : Nat) (len : Nat) (freed : Bool) (s : State) : Host.Outcome State Fault Refusal :=
  .next (s.run fun s => recvParcel s p n gen ed dram addr len freed)

/-- SEALREG: Seal region registers after SEAL or UNSEAL are applied by the twin. (spec/12 R337) -/
def execSealreg (rg : Nat) (base : Nat) (size : Nat) (mode : Nat) (s : State) : Host.Outcome State Fault Refusal :=
  .next (s.run fun s => recvSealreg s rg base size mode)

/-- HINGE: A hinge record sets a done mark for its descriptor count and start ordinal. (spec/12 R342) -/
def execHinge (q : Nat) (sq : Nat) (ord : Nat) (hst : Nat) (res : W64) (tq : Nat) (pcount : Nat) (s : State) : Host.Outcome State Fault Refusal :=
  .next (s.run fun s => recvHinge s q sq ord hst res (if tq < 4096 then some (tq, pcount) else none))

/-- DECISION: A letterbook decision concerning a mirrored queue is held for takeover or applied by the FOLLOWER. (spec/12 R346) -/
def execDecision (w0 : W64) (w1 : W64) (w2 : W64) (w3 : W64) (s : State) : Host.Outcome State Fault Refusal :=
  .next (s.run fun s => recvDecision s [w0, w1, w2, w3])

/-- HOSTWR: A doorbell or QE_CQ_HEAD write made at the ACTIVE twin is applied by the twin. (spec/12 R337) -/
def execHostwr (q : Nat) (isHead : Bool) (head : Nat) (s : State) : Host.Outcome State Fault Refusal :=
  .next (s.run fun s => recvHostwr s q (if isHead then some head else none))

/-- RETIRE: A retire record gives the STANDBY twin a queue's new checkpoint. (spec/12 R339) -/
def execRetire (q : Nat) (sq : Nat) (ord : Nat) (s : State) : Host.Outcome State Fault Refusal :=
  .next (s.run fun s => recvRetire s q sq ord)

/-- DIGEST: An output-summary digest arrives and is compared with the local one, proceeding or ending with DIVERGED. (spec/12 R348) -/
def execDigest (q : Nat) (sq : Nat) (ord : Nat) (dig : W64) (s : State) : Host.Outcome State Fault Refusal :=
  .next (s.run fun s => recvDigest s q sq ord dig)

/-- HEARTBEAT_LOSS: No heartbeat for ECH_HB.LOSS µs; the STANDBY twin takes over or reports PARTNER_LOST. (spec/12 R343) -/
def execHeartbeatLoss (s : State) : Host.Outcome State Fault Refusal :=
  .next (s.run fun s => hbLoss s)

/-- DIGEST_WAIT_EXPIRY: The partner's digest has not arrived within ECH_CMP.WAIT µs and the partner is treated as lost. (spec/12 R349) -/
def execDigestWaitExpiry (q : Nat) (sq : Nat) (ord : Nat) (s : State) : Host.Outcome State Fault Refusal :=
  .next (s.run fun s => digestExpiry s q sq ord)

/-- TIEBREAK_RISE: TIEBREAK rises; a STANDBY twin begins a takeover. (spec/12 R343) -/
def execTiebreakRise (s : State) : Host.Outcome State Fault Refusal :=
  .next (s.run fun s => tieRise s)

/-- TIEBREAK_FALL: TIEBREAK falls; an ACTIVE or LEADER twin becomes FENCED. (spec/12 R332) -/
def execTiebreakFall (s : State) : Host.Outcome State Fault Refusal :=
  .next (s.run fun s => tieFall s)

/-- ECHO_LINK_UP: The echo PHY reports the link up during LINKING, and each twin sends its identity, edition, ECH_CFGDIG and TIEBREAK. (spec/12 R335) -/
def execEchoLinkUp (ident : W64) (edition : Nat) (cfg : W64) (tb : Bool) (sec : Bool) (s : State) : Host.Outcome State Fault Refusal :=
  .next (s.run fun s => echoUp s ident.toNat edition cfg.toNat tb sec)

end Sys2Proof.Machine
end

