-- ==== Sys2Proof/Machine/FabricRows.lean ====
section
/-! DEFINITION. Commands of the fabric links, of fabric time and of the collectives (spec/11). -/

namespace Sys2Proof.Machine


/-- LINK_ENABLE: FAB_LCTL ENABLE moves a DOWN or PARKED link to WAIT_ADAPTER. (spec/11 R301) -/
def execLinkEnable (l : Nat) (s : State) : Host.Outcome State Fault Refusal :=
  .next (s.run fun s => hostCmd s (0xD0200 + 64 * l) (fun s => lctlWrite s l 1))

/-- PARK: FAB_LCTL PARK sends PARK when possible and parks the link. (spec/11 R301) -/
def execPark (l : Nat) (s : State) : Host.Outcome State Fault Refusal :=
  .next (s.run fun s => hostCmd s (0xD0200 + 64 * l) (fun s => lctlWrite s l 2))

/-- LINK_DISABLE: FAB_LCTL DISABLE moves the link to DOWN. (spec/11 R301) -/
def execLinkDisable (l : Nat) (s : State) : Host.Outcome State Fault Refusal :=
  .next (s.run fun s => hostCmd s (0xD0200 + 64 * l) (fun s => lctlWrite s l 3))

/-- ADAPTER_LINK_UP: The adapter reports the link up and negotiation begins with NEG. (spec/11 R301) -/
def execAdapterLinkUp (l : Nat) (s : State) : Host.Outcome State Fault Refusal :=
  .next (s.run fun s => adapterUp s l)

/-- ADAPTER_LINK_DOWN: The adapter reports the link down; the link parks and outstanding accesses complete with UNCORRECTED. (spec/11 R309) -/
def execAdapterLinkDown (l : Nat) (s : State) : Host.Outcome State Fault Refusal :=
  .next (s.run fun s => adapterDown s l)

/-- NEG: A NEG message from the peer is received and common revisions are computed, making the link UP or parking it. (spec/11 R302) -/
def execNeg (l : Nat) (w0 : W64) (w1 : W64) (s : State) : Host.Outcome State Fault Refusal :=
  .next (s.run fun s => negMsg s l w0 w1)

/-- NEGOTIATION_TIMEOUT: Negotiation has not completed 20 µs after link up and the link parks with NO_COMMON. (spec/11 R302) -/
def execNegotiationTimeout (l : Nat) (s : State) : Host.Outcome State Fault Refusal :=
  .next (s.run fun s => negTimeout s l)

/-- PARK_RECEIVED: A PARK control message from the peer parks the link with PEER_PARK. (spec/11 R301) -/
def execParkReceived (l : Nat) (s : State) : Host.Outcome State Fault Refusal :=
  .next (s.run fun s => parkIn s l)

/-- FLIT_RECEIVE: A link flit is received; credits are returned and its messages are extracted, or an undefined flit is discarded. (spec/11 R297) -/
def execFlitReceive (l : Nat) (flit : List Byte) (s : State) : Host.Outcome State Fault Refusal :=
  .next (s.run fun s => flitIn s l flit)

/-- MRD: A remote read request arrives and is forwarded, issued on an M-port, or made in the gallery aperture. (spec/11 R306) -/
def execMrd (l : Nat) (hdr : W64) (addr : W64) (s : State) : Host.Outcome State Fault Refusal :=
  .next (s.run fun s => arrive s l (msgOf 1 hdr addr []))

/-- MWR: A remote write request arrives and is forwarded, issued on an M-port, or admitted through a drop window. (spec/11 R306) -/
def execMwr (l : Nat) (hdr : W64) (addr : W64) (data : List Byte) (s : State) : Host.Outcome State Fault Refusal :=
  .next (s.run fun s => arrive s l (msgOf 2 hdr addr data))

/-- PHSIG: A link-signal message arrives and is applied after earlier MWRs from its source have landed. (spec/11 R300) -/
def execPhsig (l : Nat) (hdr : W64) (w0 : W64) (value : W64) (s : State) : Host.Outcome State Fault Refusal :=
  .next (s.run fun s => arrive s l (msgOf 4 hdr w0 (toBytes 8 value.toNat)))

/-- COLL: Collective data from another relay core arrives and is combined into the collective's step. (spec/11 R322) -/
def execColl (l : Nat) (hdr : W64) (w0 : W64) (data : List Byte) (s : State) : Host.Outcome State Fault Refusal :=
  .next (s.run fun s => arrive s l (msgOf 5 hdr w0 data))

/-- CBRK: A collective break arrives and the member ends its part with COLLECTIVE_RESTARTED. (spec/11 R325) -/
def execCbrk (l : Nat) (hdr : W64) (w0 : W64) (s : State) : Host.Outcome State Fault Refusal :=
  .next (s.run fun s => arrive s l (msgOf 6 hdr w0 []))

/-- RDATA: Remote read data arrives and completes the originating access with its status. (spec/11 R308) -/
def execRdata (l : Nat) (hdr : W64) (w1 : W64) (data : List Byte) (s : State) : Host.Outcome State Fault Refusal :=
  .next (s.run fun s => arrive s l (msgOf 0x10 hdr w1 data))

/-- WACK: A write acknowledgement arrives and completes the originating write with its status. (spec/11 R308) -/
def execWack (l : Nat) (hdr : W64) (w1 : W64) (s : State) : Host.Outcome State Fault Refusal :=
  .next (s.run fun s => arrive s l (msgOf 0x11 hdr w1 []))

/-- ROUTE_HOLD_EXPIRY: A request waiting for its route for FAB_HOLD ms completes with XLATE_FAULT of kind ROUTE. (spec/11 R309) -/
def execRouteHoldExpiry (tag : Nat) (s : State) : Host.Outcome State Fault Refusal :=
  .next (s.run fun s => routeHold s tag)

/-- TSYNC_EXCHANGE: Every 8 µs a chip that is not the time source sends a TSYNC request to its parent. (spec/11 R312) -/
def execTsyncExchange (s : State) : Host.Outcome State Fault Refusal :=
  .next (s.run fun s => tsyncSend s)

/-- TSYNC_RESPONSE: A TSYNC response arrives; the offset is computed and rate, phase or a step of fabric time follows. (spec/11 R312) -/
def execTsyncResponse (l : Nat) (t1 : Nat) (t2 : Nat) (t3 : Nat) (s : State) : Host.Outcome State Fault Refusal :=
  .next (s.run fun s => tsyncIn s l t1 t2 t3)

/-- TSYNC_LOSS: No TSYNC response for 10 ms; the chip keeps its rate and clears SYNC. (spec/11 R314) -/
def execTsyncLoss (s : State) : Host.Outcome State Fault Refusal :=
  .next (s.run fun s => tsyncLost s)

/-- FAB_GRP_WRITE: A write of EN = 1 to FAB_GRP checks the group and computes its DIGEST, or is refused with GROUP. (spec/11 R316) -/
def execFabGrpWrite (g : Nat) (value : Nat) (s : State) : Host.Outcome State Fault Refusal :=
  .next (s.run fun s => hostCmd s (0xD1000 + 8 * g) (fun s => if g < 256 then groupWrite s g value else s))

/-- STEPLIM_EXPIRY: A member has waited STEPLIM µs for data of its next step and ends its part with COLLECTIVE_RESTARTED. (spec/11 R325) -/
def execSteplimExpiry (q : Nat) (s : State) : Host.Outcome State Fault Refusal :=
  .next (s.run fun s => steplim s q)

/-- FABRIC_TIME_ADVANCE: At each CLK_AON cycle fabric time advances by 3, 4 or 5 ns, with the rate correction applied. (spec/11 R310) -/
def execFabricTimeAdvance (s : State) : Host.Outcome State Fault Refusal :=
  .next (s.run fun s => stnTick (timeAdvance s))

end Sys2Proof.Machine
end

