-- ==== Sys2Proof/Machine/FaultRows.lean ====
section
/-! DEFINITION. Commands of the faults and the lantern (spec/13). -/

namespace Sys2Proof.Machine

/-- A record's write has been answered with an error: the record is lost at once; BUS_ERROR still waits for the address of its error item (spec/18 R481). -/
def ringWriteError (s : State) (tag : Nat) : State :=
  match s.mreqs.find? fun r => r.tag == tag && r.sent && r.wr with
  | none => s
  | some r => match mPurpose s r with
    | .faultRec .. =>
      let s : State := { s with mreqs := s.mreqs.map fun x => if x.tag = tag ∧ x.errAt.isNone then { x with errAt := some s.time } else x }
      let s := partDone s r.op r.tag .uncorrected []
      if r.errAt.isNone then watchesHit s r.pa r.len else s
    | _ => s

/-- FAULT_RAISED: The fault collector processes a fault, assigns SEQ, latches, escalates and writes its records. (spec/13 R357) -/
def execFaultRaised (s : State) : Host.Outcome State Fault Refusal :=
  .next (s.run fun s => Machine.faultRaised s)

/-- FAULT_RING_WRITE_ERROR: A ring write error or untranslatable partition ring clears EN, drops records and raises RING_WRITE. (spec/13 R364) -/
def execFaultRingWriteError (tag : Nat) (s : State) : Host.Outcome State Fault Refusal :=
  .next (s.run fun s => ringWriteError s tag)

/-- LATCH_ACKNOWLEDGE: A write of 1 to VALID of a fault latch clears VALID and OVF. (spec/13 R360) -/
def execLatchAcknowledge (grp : Nat) (cls : Nat) (s : State) : Host.Outcome State Fault Refusal :=
  .next (s.run fun s => hostCmd s (if cls = 0 then 0xF0100 + 16 * grp else if cls = 1 then 0xF0108 + 16 * grp else 0xF0800 + 8 * grp) (fun s => if grp < (if cls < 2 then 16 else 64) then ackLatch s grp cls else s))

/-- AUTOACK_EXPIRY: ACKDELAY µs after a CORRECTED latch set, the postmaster acknowledges it when AUTOACK is 1. (spec/13 R360) -/
def execAutoackExpiry (grp : Nat) (s : State) : Host.Outcome State Fault Refusal :=
  .next (s.run fun s => autoack s grp)

/-- FAULT_RING_HEAD_WRITE: A write of a fault ring HEAD frees space and lets held records be written. (spec/13 R365) -/
def execFaultRingHeadWrite (r : Nat) (head : Nat) (s : State) : Host.Outcome State Fault Refusal :=
  .next (s.run fun s => if r = 64 then hostCmd s 0xF0038 (fun s => ringHeadWrite s 64 head) else windowCmd s r 0xF508 true (fun s => ringHeadWrite s r head))

/-- HOLD_BUDGET_EXPIRY: A held command's record has waited FLT_HOLD_BUDGET µs; it is dropped and the command completes with FAULT_OVERFLOW. (spec/13 R365) -/
def execHoldBudgetExpiry (id : Nat) (s : State) : Host.Outcome State Fault Refusal :=
  .next (s.run fun s => holdExpiry s id)

/-- FAULT_RING_DEAD_WRITE: A write to FLT_PW_DEAD or FLT_G_DEAD sets DEAD to 0 and re-arms the first-drop latch. (spec/13 R365) -/
def execFaultRingDeadWrite (r : Nat) (s : State) : Host.Outcome State Fault Refusal :=
  .next (s.run fun s => if r = 64 then hostCmd s 0xF0048 (fun s => deadWrite s 64) else windowCmd s r 0xF510 true (fun s => deadWrite s r))

/-- FATAL_HALT: A fatal indication crosses into the always-on island, latches FLT_FATAL and halts the fabric. (spec/13 R366) -/
def execFatalHalt (s : State) : Host.Outcome State Fault Refusal :=
  .next (s.run fun s => Machine.fatalHalt s)

/-- LANTERN_PERIOD: At each multiple of 2,048 CLK_AON cycles the lantern toggles when healthy and a new health ping is sent. (spec/13 R367) -/
def execLanternPeriod (s : State) : Host.Outcome State Fault Refusal :=
  .next (s.run fun s => Machine.lanternPeriod s)

/-- HEALTH_ECHO: The control island's health echo crosses back into the always-on island. (spec/13 R367) -/
def execHealthEcho (s : State) : Host.Outcome State Fault Refusal :=
  .next (s.run fun s => Machine.healthEcho s)

/-- FLT_INJ_ARM: A write of ARM = 1 to FLT_INJ arms one error injection, or is refused for the vault. (spec/13 R369) -/
def execFltInjArm (value : Nat) (s : State) : Host.Outcome State Fault Refusal :=
  .next (s.run fun s => hostCmd s 0xF0058 (fun s => injWrite s value))

end Sys2Proof.Machine
end

