-- ==== Sys2Proof/Machine/FirmwareRows.lean ====
section
/-! DEFINITION. Commands of the vault and the firmware cores (spec/15). -/

namespace Sys2Proof.Machine

/-- FW_VAULT_DATA_ACCESS: A read or write of FW_VAULT_DATA accesses 8 bytes of the vault at FW_VAULT_ADDR, or is discarded with ERR. (spec/15 R403) -/
def execFwVaultDataAccess (wr : Bool) (value : W64) (s : State) : Host.Outcome State Fault Refusal :=
  .next (s.run fun s => hPort s 0x110020 wr 8 255 (toBytes 8 value.toNat))

/-- VAULT_ZEROED: Vault zeroing after reset completes and VAULT_READY sets. (spec/15 R403) -/
def execVaultZeroed (s : State) : Host.Outcome State Fault Refusal :=
  .next (s.run fun s => Machine.vaultZeroed s)

/-- GO: FW_BOOT GO starts verification of the image in the named slot. (spec/15 R407) -/
def execGo (value : Nat) (s : State) : Host.Outcome State Fault Refusal :=
  .next (s.run fun s => hostCmd s 0x110008 (fun s => goWrite s (value % 4)))

/-- VERIFICATION_DONE: Verification ends; a passing image is made active and the cores start, or the image is rejected. (spec/15 R408) -/
def execVerificationDone (s : State) : Host.Outcome State Fault Refusal :=
  .next (s.run fun s => Machine.verificationDone s)

/-- CORE_WATCHDOG_EXPIRY: A core has not served its watchdog for FW_WDT.PERIOD µs and crashes. (spec/15 R414) -/
def execCoreWatchdogExpiry (k : Nat) (s : State) : Host.Outcome State Fault Refusal :=
  .next (s.run fun s => coreWatchdog s k)

/-- CORE_CRASH: A core crashes on memory error or exception; it becomes RESTARTING and its code is reloaded from the active slot. (spec/15 R415) -/
def execCoreCrash (k : Nat) (cause : Nat) (s : State) : Host.Outcome State Fault Refusal :=
  .next (s.run fun s => Machine.coreCrash s k cause)

/-- LOCKSTEP: Postmaster A and B produce different results and the FATAL fault LOCKSTEP is raised. (spec/15 R414) -/
def execLockstep (s : State) : Host.Outcome State Fault Refusal :=
  .next (s.run fun s => Machine.lockstep s)

/-- CORE_RELOAD_COMPLETE: A restarting core's reload completes; it runs again and writes CORE_RESTARTED, or halts after a second vault failure. (spec/15 R415) -/
def execCoreReloadComplete (k : Nat) (s : State) : Host.Outcome State Fault Refusal :=
  .next (s.run fun s => reloadComplete s k)

/-- STAGE: FW_UPDATE STAGE verifies the staging slot and makes the update PENDING or REJECTED. (spec/15 R421) -/
def execStage (s : State) : Host.Outcome State Fault Refusal :=
  .next (s.run fun s => hostCmd s 0x110028 Machine.stage)

/-- UPDATE_CANCEL: FW_UPDATE CANCEL returns a verifying, pending or deferred update to NONE. (spec/15 R423) -/
def execUpdateCancel (s : State) : Host.Outcome State Fault Refusal :=
  .next (s.run fun s => hostCmd s 0x110028 Machine.updateCancel)

/-- QUIET_POINT: At the first cycle all activation conditions hold, a pending update runs the activation sequence. (spec/15 R424) -/
def execQuietPoint (s : State) : Host.Outcome State Fault Refusal :=
  .next (s.run fun s => Machine.quietPoint s)

/-- POSTMARK: Firmware writes a postmark into the log ring, or it is dropped when the ring is full. (spec/15 R412) -/
def execPostmark (core : Nat) (level : Nat) (point : Nat) (a0 : W64) (a1 : W64) (s : State) : Host.Outcome State Fault Refusal :=
  .next (s.run fun s => firmwareMark s core level point a0 a1)

end Sys2Proof.Machine
end

