-- ==== Sys2Proof/Machine/GalleryRows.lean ====
section
/-! DEFINITION. Commands of the gallery: slots, ownership, wheels, drop windows, seal regions, franking counters, chambers (spec/07). -/

namespace Sys2Proof.Machine

/-- HALL_SLOT_ACCESS: A request enters its hall in a slot, passes the checks at hall entry and seal decision, and accesses the chambers at stage 6. (spec/07 R190) -/
def execHallSlotAccess (h : Nat) (s : State) : Host.Outcome State Fault Refusal :=
  .next (s.run fun s => if hallRuns s h then hallSlot s h else s)

/-- FRANK_COUNTER_INCREMENT: An increment from a write admitted through a drop window crosses to its franking counter and wakes waiters it satisfies. (spec/07 R200) -/
def execFrankCounterIncrement (s : State) : Host.Outcome State Fault Refusal :=
  .next (s.run fun s => frankCross s)

/-- GATHER_ENTRY_DUE: A gather entry has waited 64 hall cycles without its requester's slot and becomes due for the next free slot. (spec/07 R193) -/
def execGatherEntryDue (req : Nat) (line : Nat) (s : State) : Host.Outcome State Fault Refusal :=
  .next (s.run fun s => gatherDue s req line)

/-- CHANGE_OF_OWNER: A write to GAL_OWN changing an ownership entry marks the block SCRUBBING and starts a scrub in every hall. (spec/07 R185) -/
def execChangeOfOwner (blk : Nat) (value : Nat) (s : State) : Host.Outcome State Fault Refusal :=
  .next (s.run fun s => hostCmd s (0x48000 + 4 * blk) (fun s => if blk < 8192 then writeOwn s blk (value % 2 ^ 32) else s))

/-- OWNER_SCRUB_DONE: Every hall has zeroed the block; the held values take effect and STATE becomes READY. (spec/07 R185) -/
def execOwnerScrubDone (blk : Nat) (s : State) : Host.Outcome State Fault Refusal :=
  .next (s.run fun s => if scrubbedAll s blk then ownDone s blk else s)

/-- WHEEL_SWAP: GAL_WHEEL_MODE SWAP sets PEND for a hall's shadow wheel. (spec/07 R188) -/
def execWheelSwap (h : Nat) (s : State) : Host.Outcome State Fault Refusal :=
  .next (s.run fun s => hostCmd s (0x40400 + 8 * h) (fun s => Machine.wheelSwap s h))

/-- WHEEL_CANCEL: GAL_WHEEL_MODE CANCEL clears a pending wheel swap that has not yet taken effect. (spec/07 R188) -/
def execWheelCancel (h : Nat) (s : State) : Host.Outcome State Fault Refusal :=
  .next (s.run fun s => hostCmd s (0x40400 + 8 * h) (fun s => Machine.wheelCancel s h))

/-- TURN_BOUNDARY: At a hall's turn boundary a pending wheel swap, drop window change or change of owner takes effect in that hall. (spec/07 R188) -/
def execTurnBoundary (h : Nat) (s : State) : Host.Outcome State Fault Refusal :=
  .next (s.run fun s => if hallRuns s h then turnStart s h else s)

/-- DROP_WINDOW_OPEN: A write of OPEN = 1 to GAL_PW_DROP_CTL is checked and opens the drop window or sets ERRC. (spec/07 R199) -/
def execDropWindowOpen (p : Nat) (value : Nat) (s : State) : Host.Outcome State Fault Refusal :=
  .next (s.run fun s => windowCmd s p 0xF220 false (fun s => if value.testBit 63 ∧ windowReplayed s p = false then dropCtl s p value else s))

/-- DROP_WINDOW_CLOSE: A write of OPEN = 0 closes a drop window in each hall at its next turn boundary. (spec/07 R199) -/
def execDropWindowClose (p : Nat) (value : Nat) (s : State) : Host.Outcome State Fault Refusal :=
  .next (s.run fun s => windowCmd s p 0xF220 false (fun s => if value.testBit 63 ∨ windowReplayed s p = true then s else dropCtl s p value))

/-- FORCE_CLOSE: The hypervisor's FORCE_CLOSE closes a drop window as the owner's close does. (spec/07 R199) -/
def execForceClose (w : Nat) (s : State) : Host.Outcome State Fault Refusal :=
  .next (s.run fun s => hostCmd s (0x44000 + 16 * w) (fun s => Machine.forceClose s w))

/-- DISARM: A write of DISARM = 1 to GAL_SEAL_MODE disarms the region as UNSEAL does. (spec/07 R194) -/
def execDisarm (rg : Nat) (s : State) : Host.Outcome State Fault Refusal :=
  .next (s.run fun s => hostCmd s (0x42810 + 32 * rg) (fun s => disarmRegion s rg))

/-- GAL_FRANK_PART_WRITE: A write of EN = 1 to GAL_FRANK_PART is checked for order and overlap and applied or refused with GAL_ERR. (spec/07 R198) -/
def execGalFrankPartWrite (p : Nat) (value : Nat) (s : State) : Host.Outcome State Fault Refusal :=
  .next (s.run fun s => hostCmd s (0x45000 + 8 * p) (fun s => if p < 64 then frankPartWrite s p value else s))

/-- GAL_HOST_DATA_ACCESS: A read or write of GAL_HOST_DATA makes an 8-byte narrow gallery access at GAL_HOST_ADDR as requester 112, unchecked against ownership. (spec/07 R184) -/
def execGalHostDataAccess (wr : Bool) (value : W64) (s : State) : Host.Outcome State Fault Refusal :=
  .next (s.run fun s => hPort s 0x40030 wr 8 255 (toBytes 8 value.toNat))

/-- GAL_PW_DATA_ACCESS: A read or write of GAL_PW_DATA makes an 8-byte narrow gallery access checked with the partition's identity. (spec/07 R184) -/
def execGalPwDataAccess (p : Nat) (wr : Bool) (value : W64) (s : State) : Host.Outcome State Fault Refusal :=
  .next (s.run fun s => if p < 64 then hPort s (0x100F208 + 0x10000 * p) wr 8 255 (toBytes 8 value.toNat) else s)

/-- GAL_CPWR_REQ_WRITE: A chamber power request takes chambers through CLOSING toward DIM or DARK, or through OPENING toward LIT. (spec/07 R204) -/
def execGalCpwrReqWrite (h : Nat) (value : Nat) (s : State) : Host.Outcome State Fault Refusal :=
  .next (s.run fun s => hostCmd s (0x42000 + 16 * h) (fun s => if h < s.b.halls then cpwrWrite s h value else s))

/-- CHAMBER_OPENING_END: A chamber's OPENING time passes; from DIM it becomes LIT, from DARK it enters ZEROING. (spec/07 R205) -/
def execChamberOpeningEnd (h : Nat) (c : Nat) (s : State) : Host.Outcome State Fault Refusal :=
  .next (s.run fun s => openingEnd s h c)

/-- CHAMBER_ZEROING_END: 16 µs of ZEROING pass and the chamber becomes LIT, or is requested RETAIN to settle in DIM. (spec/07 R205) -/
def execChamberZeroingEnd (h : Nat) (c : Nat) (s : State) : Host.Outcome State Fault Refusal :=
  .next (s.run fun s => zeroingEnd s h c)

/-- PATROL_PASS_START: A new patrol period begins and requester 121 starts reading and correcting every line of every hall. (spec/07 R203) -/
def execPatrolPassStart (s : State) : Host.Outcome State Fault Refusal :=
  .next (s.run fun s => patrolStart s)

end Sys2Proof.Machine
end

