-- ==== Sys2Proof/Machine/ObserveRows.lean ====
section
/-! DEFINITION. Commands of observation, the letterbook and replay (spec/17). -/

namespace Sys2Proof.Machine

/-- OBS_PLC_TIME_READ: A read of a placement TIME register samples TIME, BYTES and ENERGY in one cycle. (spec/17 R452) -/
def execObsPlcTimeRead (k : Nat) (s : State) : Host.Outcome State Fault Refusal :=
  .next (s.run fun s => if k = 64 then hPort s 0x130018 false 8 0 [] else if k < 64 then hPort s (0x100F620 + 0x10000 * k) false 8 0 [] else s)

/-- OBS_PW_CTL_WRITE: A write of VIEW selects whose counters a partition window presents while OPEN_LAB is on. (spec/17 R451) -/
def execObsPwCtlWrite (p : Nat) (value : Nat) (s : State) : Host.Outcome State Fault Refusal :=
  .next (s.run fun s => windowCmd s p 0xF600 false (fun s => viewWrite s p value))

/-- TRACE_SAMPLE: Every PERIOD µs a counter sample item is placed in the trace FIFO. (spec/17 R453) -/
def execTraceSample (s : State) : Host.Outcome State Fault Refusal :=
  .next (s.run fun s => Machine.traceSample s)

/-- LETTERBOOK_RECORD: A decision or input makes a letterbook record, which enters staging or is dropped or held. (spec/17 R455) -/
def execLetterbookRecord (s : State) : Host.Outcome State Fault Refusal :=
  .next (s.run fun s => Machine.letterbookRecord s)

/-- LETTERBOOK_HEAD_WRITE: A write to OBS_LB_HEAD frees letterbook ring space for staged records. (spec/17 R457) -/
def execLetterbookHeadWrite (head : Nat) (s : State) : Host.Outcome State Fault Refusal :=
  .next (s.run fun s => hostCmd s 0x130818 (fun s => lbHeadWrite s head))

/-- REPLAY_GO: OBS_RP_CTL GO checks the first record and starts a replay run or refuses it. (spec/17 R461) -/
def execReplayGo (s : State) : Host.Outcome State Fault Refusal :=
  .next (s.run fun s => hostCmd s 0x130920 (fun s => if hostOk s then rpGo s else s))

/-- REPLAY_STOP: OBS_RP_CTL STOP ends a running replay run with STATE STOPPED. (spec/17 R464) -/
def execReplayStop (s : State) : Host.Outcome State Fault Refusal :=
  .next (s.run fun s => hostCmd s 0x130920 rpStop)

/-- REPLAY_WAIT_EXPIRY: A decision point has waited OBS_RP_CFG.WAIT ms for its record and the run diverges. (spec/17 R463) -/
def execReplayWaitExpiry (q : Nat) (s : State) : Host.Outcome State Fault Refusal :=
  .next (s.run fun s => replayExpiry s q)

end Sys2Proof.Machine
end

