-- ==== Sys2Proof/Machine/PartitionRows.lean ====
section
/-! DEFINITION. Commands of partitions, mailboxes and commits (spec/16). -/

namespace Sys2Proof.Machine

/-- PARTITION_ENABLE: PRT_CTL ENABLE moves a DISABLED partition to ENABLED or refuses with MAX. (spec/16 R427) -/
def execPartitionEnable (p : Nat) (s : State) : Host.Outcome State Fault Refusal :=
  .next (s.run fun s => hostCmd s (0x120000 + 1024 * p) (fun s => if p < 64 then partEnable s p else s))

/-- PARTITION_DISABLE_DRAIN: PRT_CTL DISABLE_DRAIN starts the disable sequence in drain mode. (spec/16 R435) -/
def execPartitionDisableDrain (p : Nat) (s : State) : Host.Outcome State Fault Refusal :=
  .next (s.run fun s => hostCmd s (0x120000 + 1024 * p) (fun s => if p < 64 then partDisable s p false else s))

/-- PARTITION_DISABLE_ABORT: PRT_CTL DISABLE_ABORT starts the disable sequence in abort mode or switches a drain to abort mode. (spec/16 R436) -/
def execPartitionDisableAbort (p : Nat) (s : State) : Host.Outcome State Fault Refusal :=
  .next (s.run fun s => hostCmd s (0x120000 + 1024 * p) (fun s => if p < 64 then partDisable s p true else s))

/-- DISABLE_STEP_END: The condition ending a step of the disable sequence holds and the next step begins. (spec/16 R435) -/
def execDisableStepEnd (p : Nat) (s : State) : Host.Outcome State Fault Refusal :=
  .next (s.run fun s => Machine.disableStepEnd s p)

/-- DRAINLIM_EXPIRY: A drain-mode disable has spent DRAINLIM ms in step 3 and continues in abort mode. (spec/16 R436) -/
def execDrainlimExpiry (p : Nat) (s : State) : Host.Outcome State Fault Refusal :=
  .next (s.run fun s => Machine.drainlimExpiry s p)

/-- MAILBOX_SEND: PRT_PW_MBOX_CTL SEND moves the mailbox to CHECKING. (spec/16 R434) -/
def execMailboxSend (p : Nat) (s : State) : Host.Outcome State Fault Refusal :=
  .next (s.run fun s => windowCmd s p 0xFC08 true (fun s => mboxSend s p))

/-- MAILBOX_CHECK: The postmaster checks a mailbox request and makes it PENDING or answers MALFORMED. (spec/16 R434) -/
def execMailboxCheck (p : Nat) (s : State) : Host.Outcome State Fault Refusal :=
  .next (s.run fun s => mboxCheck s p)

/-- REPLY: PRT_MBOX_CTL REPLY makes the mailbox DONE and raises INTREQ. (spec/16 R434) -/
def execReply (p : Nat) (s : State) : Host.Outcome State Fault Refusal :=
  .next (s.run fun s => hostCmd s (0x120018 + 1024 * p) (fun s => if p < 64 then mboxReply s p else s))

/-- ACK: PRT_PW_MBOX_CTL ACK returns the mailbox to IDLE. (spec/16 R434) -/
def execAck (p : Nat) (s : State) : Host.Outcome State Fault Refusal :=
  .next (s.run fun s => windowCmd s p 0xFC08 true (fun s => mboxAck s p))

/-- CMT_ARM: A write of CMT_ARM checks a commit request and arms it. (spec/16 R440) -/
def execCmtArm (value : Nat) (s : State) : Host.Outcome State Fault Refusal :=
  .next (s.run fun s => hostCmd s 0x140008 (fun s => armWrite s value))

/-- CMT_COMMIT: A write of CMT_COMMIT checks against the ARM and starts programming the OTP log slot. (spec/16 R440) -/
def execCmtCommit (value : Nat) (s : State) : Host.Outcome State Fault Refusal :=
  .next (s.run fun s => hostCmd s 0x140010 (fun s => commitWrite s value))

/-- K_ACK: The OTP store acknowledges a K-port read or program, completing the word access. (spec/18 R490) -/
def execKAck (value : W64) (err : Bool) (s : State) : Host.Outcome State Fault Refusal :=
  .next (s.run fun s => Machine.kAck s value err)

/-- LANE_REPAIR: An adapter reports a lane repair on LREP and the postmaster commits LANE_REPAIR or raises OTP_ERROR. (spec/16 R443) -/
def execLaneRepair (l : Nat) (rep : Nat) (s : State) : Host.Outcome State Fault Refusal :=
  .next (s.run fun s => Machine.laneRepair s l rep)

end Sys2Proof.Machine
end

