-- ==== Sys2Proof/Machine/PortRows.lean ====
section
/-! DEFINITION. Commands of the ports, clocks, resets and the register path (spec/18, spec/19). -/

namespace Sys2Proof.Machine

/-- PORESET_N: PORESET_N is asserted and resets the power-on scope. (spec/18 R471) -/
def execPoresetN (s : State) : Host.Outcome State Fault Refusal :=
  .next (s.run fun s => poreset s)

/-- WRESET_N: WRESET_N is asserted and resets the warm scope. (spec/18 R471) -/
def execWresetN (s : State) : Host.Outcome State Fault Refusal :=
  .next (s.run fun s => warmReset s false)

/-- SAFE_RESET_N: SAFE_RESET_N is asserted and resets the warm scope, recorded in INT_RST. (spec/18 R471) -/
def execSafeResetN (s : State) : Host.Outcome State Fault Refusal :=
  .next (s.run fun s => warmReset s true)

/-- RESET_RELEASE: A reset is released and the start-up sequence runs to the ready state. (spec/18 R494) -/
def execResetRelease (s : State) : Host.Outcome State Fault Refusal :=
  .next (s.run fun s => resetReleased s)

/-- TRST_N: TRST_N resets the TAP controller and closes open segments. (spec/18 R470) -/
def execTrstN (s : State) : Host.Outcome State Fault Refusal :=
  .next (s.run fun s => trst s)

/-- H_PORT_REQUEST: An H-port request is taken whole and performed or refused, with its response sent. (spec/18 R476) -/
def execHPortRequest (off : Nat) (wr : Bool) (len : Nat) (strb : Nat) (data : List Byte) (s : State) : Host.Outcome State Fault Refusal :=
  .next (s.run fun s => hPort s off wr len strb data)

/-- M_PORT_READ_DATA: Read data returns on an M-port and completes the access it answers. (spec/18 R481) -/
def execMPortReadData (tag : Nat) (resp : Resp) (data : List Byte) (s : State) : Host.Outcome State Fault Refusal :=
  .next (s.run fun s => mReadData s tag resp data)

/-- M_PORT_WRITE_RESPONSE: A write response returns on an M-port, completing the write and re-reading overlapping watches. (spec/18 R481) -/
def execMPortWriteResponse (tag : Nat) (resp : Resp) (s : State) : Host.Outcome State Fault Refusal :=
  .next (s.run fun s => mWriteResp s tag resp)

/-- GALLERY_REQUEST: An engine's gallery request on its E-port is queued for the port's slots. (spec/18 R485) -/
def execGalleryRequest (k : Nat) (utag : Nat) (gtag : Nat) (addr : Nat) (col : Bool) (mask : Nat) (wr : Bool) (sealed : Bool) (trn : Bool) (data : List Byte) (s : State) : Host.Outcome State Fault Refusal :=
  .next (s.run fun s => galleryReq s k utag gtag addr col mask wr sealed trn data)

/-- CAPS: An engine reports its class, interface revision and compression modes. (spec/18 R486) -/
def execCaps (k : Nat) (w0 : W64) (s : State) : Host.Outcome State Fault Refusal :=
  .next (s.run fun s => capsMsg s k w0)

/-- READY: An engine reports READY and units may be admitted to its port. (spec/18 R486) -/
def execReady (k : Nat) (s : State) : Host.Outcome State Fault Refusal :=
  .next (s.run fun s => readyMsg s k)

/-- REGISTER_WRITE: A write to a register that has no row of its own updates its fields under their access codes. (spec/19 R500) -/
def execRegisterWrite (off : Nat) (value : Nat) (s : State) : Host.Outcome State Fault Refusal :=
  .next (s.run fun s => hWrite s off value)

/-- M_PORT_ERROR_ITEM: An item arrives on an M-port error channel and supplies ADDR for the BUS_ERROR fault of the access it names. (spec/18 R481) -/
def execMPortErrorItem (port : Nat) (addr : Nat) (s : State) : Host.Outcome State Fault Refusal :=
  .next (s.run fun s => mErrorItem s port addr)

/-- BUS_ERROR_ADDR_WAIT_EXPIRY: No matching error item has arrived within 1,000 CLK_CTL cycles, and the BUS_ERROR detail takes ADDR 0. (spec/18 R481) -/
def execBusErrorAddrWaitExpiry (tag : Nat) (s : State) : Host.Outcome State Fault Refusal :=
  .next (s.run fun s => mErrorExpiry s tag)

/-- TAP_ACCESS: A TCK-clocked TAP operation runs IDCODE, BYPASS or an IJTAG instrument access, the latter subject to the gates of R492. (spec/18 R491) -/
def execTapAccess (ir : Nat) (inst : Nat) (off : Nat) (wr : Bool) (value : W64) (s : State) : Host.Outcome State Fault Refusal :=
  .next (s.run fun s => Machine.tapAccess s ir inst off wr value)

/-- REMOVAL_OF_POWER: The always-on supply is removed, the block enters OFF and its ports show the unpowered harmless state until PORESET_N. (spec/18 R472) -/
def execRemovalOfPower (s : State) : Host.Outcome State Fault Refusal :=
  .next (s.run fun s => powerGone s)

end Sys2Proof.Machine
end

