-- ==== Sys2Proof/Machine/PowerRows.lean ====
section
/-! DEFINITION. Commands of power and heat (spec/14). -/

namespace Sys2Proof.Machine

/-- POWER_ACTIVE: PWR_CMD ACTIVE moves the block to ACTIVE. (spec/14 R376) -/
def execPowerActive (s : State) : Host.Outcome State Fault Refusal :=
  .next (s.run fun s => hostCmd s 0x100000 (fun s => powerCmd s 1))

/-- POWER_IDLE: PWR_CMD IDLE moves the block to IDLE, where idle islands gate their clocks. (spec/14 R376) -/
def execPowerIdle (s : State) : Host.Outcome State Fault Refusal :=
  .next (s.run fun s => hostCmd s 0x100000 (fun s => powerCmd s 2))

/-- NAP: PWR_CMD NAP checks the conditions and runs the entry sequence into NAP. (spec/14 R378) -/
def execNap (s : State) : Host.Outcome State Fault Refusal :=
  .next (s.run fun s => hostCmd s 0x100000 (fun s => powerCmd s 3))

/-- DORMANT: PWR_CMD DORMANT checks the conditions and runs the entry sequence into DORMANT, saving the dormant image. (spec/14 R378) -/
def execDormant (s : State) : Host.Outcome State Fault Refusal :=
  .next (s.run fun s => hostCmd s 0x100000 (fun s => powerCmd s 4))

/-- WAKE: A wake event crossing in NAP or DORMANT runs the wake sequence back to ACTIVE. (spec/14 R381) -/
def execWake (src : Nat) (s : State) : Host.Outcome State Fault Refusal :=
  .next (s.run fun s => wakeEvent s src)

/-- WAKE_TIMER: Fabric time reaches PWR_WAKE_TIME and the fabric wakes. (spec/14 R380) -/
def execWakeTimer (s : State) : Host.Outcome State Fault Refusal :=
  .next (s.run fun s => Machine.wakeTimer s)

/-- LWAKE: An L-port or echo wake input rises and wakes the fabric. (spec/14 R380) -/
def execLwake (l : Nat) (s : State) : Host.Outcome State Fault Refusal :=
  .next (s.run fun s => wakeEvent s (if l < s.b.links then l else if s.b.echo then 6 else 10))

/-- PWAKE: A P-port wake request wakes the fabric. (spec/14 R380) -/
def execPwake (s : State) : Host.Outcome State Fault Refusal :=
  .next (s.run fun s => wakeEvent s 8)

/-- ISLAND_GATE: In IDLE, an island without work for PWR_CFG.GATE µs requests level 0 and gates its clock. (spec/14 R376) -/
def execIslandGate (i : Nat) (s : State) : Host.Outcome State Fault Refusal :=
  .next (s.run fun s => Machine.islandGate s i)

/-- DOMAIN_ACK: The integrator acknowledges a domain request on PD_ACK and the domain settles. (spec/14 R373) -/
def execDomainAck (d : Nat) (s : State) : Host.Outcome State Fault Refusal :=
  .next (s.run fun s => Machine.domainAck s d)

/-- DOMAIN_TIMEOUT: No acknowledgement within DOMTMO µs; the domain becomes FAILED and a fault names it. (spec/14 R373) -/
def execDomainTimeout (d : Nat) (s : State) : Host.Outcome State Fault Refusal :=
  .next (s.run fun s => Machine.domainTimeout s d)

/-- DOMAIN_RETRY: A FAILED core, bank or miscellaneous domain is requested again 1 ms after its timeout. (spec/14 R373) -/
def execDomainRetry (d : Nat) (s : State) : Host.Outcome State Fault Refusal :=
  .next (s.run fun s => Machine.domainRetry s d)

/-- PWR_DOM_FAILED_WRITE: Writing 1 to PWR_DOM.FAILED requests the domain again. (spec/14 R373) -/
def execPwrDomFailedWrite (d : Nat) (s : State) : Host.Outcome State Fault Refusal :=
  .next (s.run fun s => hostCmd s (0x102000 + 8 * d) (fun s => domFailedWrite s d))

/-- GOVERNOR_INTERVAL: Each 10 µs interval the governor computes the envelope and sets caps and SHARE holds. (spec/14 R385) -/
def execGovernorInterval (s : State) : Host.Outcome State Fault Refusal :=
  .next (s.run fun s => Machine.governorInterval s)

/-- FORECAST_PUBLICATION: Every 1 ms the postmaster publishes a 16-bin forecast on the P-port. (spec/14 R388) -/
def execForecastPublication (s : State) : Host.Outcome State Fault Refusal :=
  .next (s.run fun s => forecast s)

/-- THERMAL_MODEL_STEP: Every 1 ms the postmaster updates each zone's model and thermal cap. (spec/14 R397) -/
def execThermalModelStep (s : State) : Host.Outcome State Fault Refusal :=
  .next (s.run fun s => thermalStep s)

/-- SENSOR_SAMPLE: An on-block sensor sample updates sensor and zone thermal states. (spec/14 R393) -/
def execSensorSample (n : Nat) (temp : Nat) (s : State) : Host.Outcome State Fault Refusal :=
  .next (s.run fun s => Machine.sensorSample s n temp)

/-- EXTERNAL_SAMPLE: A new external temperature sample arrives on PS_TEMP, marked by PS_TGL. (spec/14 R391) -/
def execExternalSample (n : Nat) (temp : Nat) (s : State) : Host.Outcome State Fault Refusal :=
  .next (s.run fun s => Machine.externalSample s n temp)

/-- EXTERNAL_SENSOR_TIMEOUT: An enabled external input has had no sample for 10 ms and is failed with SENSOR_FAIL. (spec/14 R391) -/
def execExternalSensorTimeout (n : Nat) (s : State) : Host.Outcome State Fault Refusal :=
  .next (s.run fun s => externalTimeout s n)

/-- SUPPLY_LOW_RISE: SUPPLY_LOW rises; BROWNOUT is raised and every island is clamped. (spec/14 R394) -/
def execSupplyLowRise (s : State) : Host.Outcome State Fault Refusal :=
  .next (s.run fun s => supplyRise s)

/-- SUPPLY_LOW_FALL: SUPPLY_LOW falls and the clamp releases zones below ALERT. (spec/14 R395) -/
def execSupplyLowFall (s : State) : Host.Outcome State Fault Refusal :=
  .next (s.run fun s => supplyFall s)

/-- PCEIL_CHANGE: The P-port ceiling or slew input changes and the effective ceiling or slew is recomputed. (spec/14 R384) -/
def execPceilChange (ceil : Nat) (slew : Nat) (s : State) : Host.Outcome State Fault Refusal :=
  .next (s.run fun s => Machine.pceilChange s ceil slew)

/-- FALLBACK_RAMP_STEP: The fallback governor lowers zone caps one step toward the SAFE levels over PWR_SAFE.RAMP µs. (spec/14 R396) -/
def execFallbackRampStep (s : State) : Host.Outcome State Fault Refusal :=
  .next (s.run fun s => fallbackStep s)

/-- LEVEL_GRANT: PL_GNT rises for an island, granting its requested level so that a wake or a level rise can continue. (spec/18 R489) -/
def execLevelGrant (i : Nat) (s : State) : Host.Outcome State Fault Refusal :=
  .next (s.run fun s => Machine.levelGrant s i)

end Sys2Proof.Machine
end

