-- ==== Sys2Proof/Machine/QueueRows.lean ====
section
/-! DEFINITION. Commands of the queues: doorbells, the commands of QE_QCTL, batches, descriptors, completion records, parcels' claims, pins, publications (spec/02, spec/04). -/

namespace Sys2Proof.Machine

/-- An ENQUEUE of the queue waits at step 3. -/
def enqWaits (q : Nat) (c : Cmd) : Bool :=
  c.q == q && c.aux == 1 && c.st == .running && (match c.body with
    | .enqueue .. => true
    | _ => false)

/-- An ENQUEUE of a queue that waits at step 3 tries again. -/
def enqAgain (s : State) (q : Nat) : State :=
  match s.cmds.find? (enqWaits q) with
  | some c => enqGo s c.id c.buf
  | none => s

/-- DOORBELL_WRITE: A write of any size to a queue doorbell location sets the queue's pending bit, or is discarded and counted in QE_DB_STRAY. (spec/02 R44) -/
def execDoorbellWrite (p : Nat) (off : Nat) (s : State) : Host.Outcome State Fault Refusal :=
  .next (s.run fun s => hDoorbell s p off)

/-- ENABLE: QE_QCTL ENABLE checks the configuration, translates both rings and moves a DISABLED queue to IDLE, or refuses with CONFIG or RING_XLATE. (spec/02 R52) -/
def execEnable (q : Nat) (off : Nat) (s : State) : Host.Outcome State Fault Refusal :=
  .next (s.run fun s => queueCmd s q 0x18 off false (fun s => qctlWrite s q off 1))

/-- DISABLE_DRAIN: QE_QCTL DISABLE_DRAIN moves the queue to DRAINING; no further descriptor is taken and outstanding descriptors run to their end. (spec/02 R56) -/
def execDisableDrain (q : Nat) (off : Nat) (s : State) : Host.Outcome State Fault Refusal :=
  .next (s.run fun s => queueCmd s q 0x18 off false (fun s => qctlWrite s q off 2))

/-- DISABLE_ABORT: QE_QCTL DISABLE_ABORT moves the queue to DRAINING and completes every outstanding descriptor in count order, aborting commands that have not completed. (spec/02 R57) -/
def execDisableAbort (q : Nat) (off : Nat) (s : State) : Host.Outcome State Fault Refusal :=
  .next (s.run fun s => queueCmd s q 0x18 off false (fun s => qctlWrite s q off 3))

/-- RESUME: QE_QCTL RESUME returns a STOPPED_ERROR queue to ACTIVE and restarts scanning at QE_QPOS.SQ. (spec/02 R55) -/
def execResume (q : Nat) (off : Nat) (s : State) : Host.Outcome State Fault Refusal :=
  .next (s.run fun s => queueCmd s q 0x18 off false (fun s => qctlWrite s q off 4))

/-- QE_CQ_HEAD_WRITE: The driver writes its completion-ring consumer count, which frees entries and releases waiting reservations. (spec/02 R50) -/
def execQeCqHeadWrite (q : Nat) (off : Nat) (head : Nat) (s : State) : Host.Outcome State Fault Refusal :=
  .next (s.run fun s => queueCmd s q 0x30 off true (fun s => qheadWrite s q off (head % 2 ^ 32)))

/-- BATCH_READ_ISSUE: The queue engine issues the next batch read of a pending queue, in round-robin order, and clears its pending bit. (spec/02 R42) -/
def execBatchReadIssue (s : State) : Host.Outcome State Fault Refusal :=
  .next (s.run fun s => batchIssue s)

/-- SCAN: A batch read returns and the queue engine takes each owned descriptor that passes the checks at scan, stopping at the first it does not own. (spec/02 R42) -/
def execScan (tag : Nat) (resp : Resp) (data : List Byte) (s : State) : Host.Outcome State Fault Refusal :=
  .next (s.run fun s => mReadFor s (fun | .batch _ => true | _ => false) tag resp data)

/-- DESCRIPTOR_START: The sorter starts a taken RUN descriptor once the previous program has ended and any FENCE condition holds, loading G1 to G3 and G16 to G31. (spec/04 R108) -/
def execDescriptorStart (q : Nat) (s : State) : Host.Outcome State Fault Refusal :=
  .next (s.run fun s => Machine.descriptorStart s q)

/-- RECORD_WRITE_RESPONSE: The M-port write response of a completion record returns, after which the partition interrupt is raised when requested and queue state moves as R52 states. (spec/01 R28) -/
def execRecordWriteResponse (tag : Nat) (resp : Resp) (s : State) : Host.Outcome State Fault Refusal :=
  .next (s.run fun s => mWriteFor s (fun | .record .. => true | _ => false) tag resp)

/-- ENQUEUE_SPACE_AVAILABLE: An ENQUEUE waiting at step 3 for ring space or ring translation proceeds once space appears or the target becomes DISABLED or DRAINING. (spec/04 R119) -/
def execEnqueueSpaceAvailable (q : Nat) (s : State) : Host.Outcome State Fault Refusal :=
  .next (s.run fun s => enqAgain s q)

/-- ENQUEUE_IMAGE_WRITE_RESPONSE: The write response of an enqueued image returns; the target's pending bit sets and ENQUEUE completes with DONE or UNCORRECTED. (spec/04 R119) -/
def execEnqueueImageWriteResponse (tag : Nat) (resp : Resp) (s : State) : Host.Outcome State Fault Refusal :=
  .next (s.run fun s => mWriteFor s (fun | .enqWrite .. => true | _ => false) tag resp)

/-- PARCEL_CLAIM: A PDEF, PPATCH or PFREE waiting for a parcel's claim receives it when the previous claim is released. (spec/04 R124) -/
def execParcelClaim (p : Nat) (n : Nat) (s : State) : Host.Outcome State Fault Refusal :=
  .next (s.run fun s => giveClaim s p n)

/-- PUBLICATION: A new edition with every word written becomes the newest, or PFREE ends the definition, and the claim is released. (spec/04 R124) -/
def execPublication (p : Nat) (n : Nat) (s : State) : Host.Outcome State Fault Refusal :=
  .next (s.run fun s => publish s p n)

/-- EDITION_PIN: A CALLP pin request reaches the parcel table and pins the edition that is newest then. (spec/04 R125) -/
def execEditionPin (q : Nat) (s : State) : Host.Outcome State Fault Refusal :=
  .next (s.run fun s => pinNewest s q)

end Sys2Proof.Machine
end

