-- ==== Sys2Proof/Machine/SchedRows.lean ====
section
/-! DEFINITION. Commands of the scheduler, the placements and the pigeonholes (spec/04, spec/05, spec/06). -/

namespace Sys2Proof.Machine

/-- UNIT_ADMISSION: The scheduler admits a held or new unit of work to a placement when every group it needs admits it. (spec/06 R170) -/
def execUnitAdmission (courier : Nat) (s : State) : Host.Outcome State Fault Refusal :=
  .next (s.run fun s => Machine.unitAdmission s courier)

/-- COMPLETION_ITEM: An engine's completion item crosses into the control island and completes its unit, freeing the port. (spec/18 R484) -/
def execCompletionItem (k : Nat) (w0 : W64) (w1 : W64) (w2 : W64) (w3 : W64) (s : State) : Host.Outcome State Fault Refusal :=
  .next (s.run fun s => Machine.completionItem s k w0 w1 w2 w3)

/-- TILE_LAUNCH_START: A per-tile launch of a TILEPASS starts once the resolve write of tile k − NSLOT has completed. (spec/04 R134) -/
def execTileLaunchStart (q : Nat) (s : State) : Host.Outcome State Fault Refusal :=
  .next (s.run fun s => tileStart s q)

/-- TILE_RESOLVE_WRITE: After a per-tile launch completes with DONE, a courier writes the tile's 32 colour rows to the resolve target. (spec/04 R135) -/
def execTileResolveWrite (q : Nat) (courier : Nat) (s : State) : Host.Outcome State Fault Refusal :=
  .next (s.run fun s => resolveStart s q courier)

/-- COLLECTIVE_END: A relay core reports the end of a member's part of a collective and the COLLECT completes. (spec/04 R104) -/
def execCollectiveEnd (q : Nat) (s : State) : Host.Outcome State Fault Refusal :=
  .next (s.run fun s => Machine.collectiveEnd s q)

/-- MIGRATION: The postmaster closes a placement to a queue, increments the placement epoch and sends later admissions to a new placement. (spec/04 R127) -/
def execMigration (q : Nat) (kind : Nat) (old : Nat) (new : Nat) (s : State) : Host.Outcome State Fault Refusal :=
  .next (s.run fun s => migrate s q kind old new)

/-- LINK_SIGNAL_ARRIVAL: A link signal from another chip matching an enabled IN entry is applied as MAX to the local pigeonhole, or is discarded. (spec/05 R153) -/
def execLinkSignalArrival (src : Nat) (w0 : W64) (value : W64) (s : State) : Host.Outcome State Fault Refusal :=
  .next (s.run fun s => linkSignal s src w0.toNat value)

/-- WAITGE_TIMEOUT_EXPIRY: A WAITGE with a timeout still waiting after T µs completes with TIMEOUT. (spec/05 R145) -/
def execWaitgeTimeoutExpiry (q : Nat) (s : State) : Host.Outcome State Fault Refusal :=
  .next (s.run fun s => waitTimeout s q)

/-- WATCH_FREE: A memory-fence WAITGE waiting for a watch receives one freed by another, joins it and reads the fence. (spec/05 R147) -/
def execWatchFree (s : State) : Host.Outcome State Fault Refusal :=
  .next (s.run fun s => Machine.watchFree s)

/-- WATCH_READ_RETURN: A read of a watched memory fence returns and wakes each waiter whose threshold the value meets, or completes them with UNCORRECTED. (spec/05 R148) -/
def execWatchReadReturn (tag : Nat) (resp : Resp) (data : List Byte) (s : State) : Host.Outcome State Fault Refusal :=
  .next (s.run fun s => mReadFor s (fun | .watchRead _ => true | _ => false) tag resp data)

/-- FENCE_DOORBELL: A write to a partition's fence doorbell re-reads every watch of the partition. (spec/05 R150) -/
def execFenceDoorbell (p : Nat) (s : State) : Host.Outcome State Fault Refusal :=
  .next (s.run fun s => Machine.hDoorbell s p 0xF00)

/-- POLL_INTERVAL_EXPIRY: The partition's poll interval passes since a watch's last read and the fence is read again. (spec/05 R148) -/
def execPollIntervalExpiry (w : Nat) (s : State) : Host.Outcome State Fault Refusal :=
  .next (s.run fun s => pollExpiry s w)

/-- WAIT_CYCLE_SCAN: A partition stalled beyond PH_CYCLE_SCAN.SCAN µs is scanned by sorter firmware for cycles of waits. (spec/05 R156) -/
def execWaitCycleScan (p : Nat) (texts : List (Nat × List W64)) (s : State) : Host.Outcome State Fault Refusal :=
  .next (s.run fun s => Machine.waitCycleScan s p texts)

/-- PIGEONHOLE_SCRUB_STEP: A scrub step marks a row SCRUBBING, completes its waiters with PARTITION_DISABLED and rewrites it to 0 and NORMAL. (spec/05 R142) -/
def execPigeonholeScrubStep (n : Nat) (s : State) : Host.Outcome State Fault Refusal :=
  .next (s.run fun s => disableRow s n)

/-- WAITREQ: An engine's wait request is checked against allotment, quota and pool and joins a waiter list or is answered WAITREF. (spec/18 R486) -/
def execWaitreq (k : Nat) (w0 : W64) (w1 : W64) (s : State) : Host.Outcome State Fault Refusal :=
  .next (s.run fun s => waitReq s k w0 w1)

/-- WAITCANCEL: An engine cancels a wait it requested. (spec/18 R486) -/
def execWaitcancel (k : Nat) (w0 : W64) (s : State) : Host.Outcome State Fault Refusal :=
  .next (s.run fun s => waitCancel s k w0)

/-- PH_ALLOTMENT_WRITE: A write to PH_PART_BASE or PH_PART_LIMIT is checked against order and overlap and is applied or refused with PH_ERR. (spec/05 R141) -/
def execPhAllotmentWrite (p : Nat) (limit : Bool) (value : Nat) (s : State) : Host.Outcome State Fault Refusal :=
  .next (s.run fun s => hostCmd s ((if limit then 0x21008 else 0x21000) + 16 * p) (fun s => if p < 64 then phAllotWrite s p limit value else s))

/-- PH_LINK_WRITE: A write to a PH_LINK entry is applied, or a write of EN = 1 naming an invalid local pigeonhole or chip is refused with LINK_RANGE. (spec/05 R153) -/
def execPhLinkWrite (i : Nat) (value : Nat) (s : State) : Host.Outcome State Fault Refusal :=
  .next (s.run fun s => hostCmd s (0x28000 + 8 * i) (fun s => if i < 4096 then Machine.phLinkWrite s i value else s))

/-- WINDOW_BOUNDARY: The timetable position reaches the end of a window and the next window becomes current. (spec/06 R165) -/
def execWindowBoundary (s : State) : Host.Outcome State Fault Refusal :=
  .next (s.run fun s => Machine.windowBoundary s)

/-- MAJOR_CYCLE_BOUNDARY: The last window ends; a pending swap makes the shadow timetable and masks active and the position restarts at window 0. (spec/06 R166) -/
def execMajorCycleBoundary (s : State) : Host.Outcome State Fault Refusal :=
  .next (s.run fun s => majorBoundary s)

/-- SWAP: SCH_TTCTL SWAP checks the shadow timetable and masks and sets PEND or records SCH_ERR. (spec/06 R166) -/
def execSwap (s : State) : Host.Outcome State Fault Refusal :=
  .next (s.run fun s => hostCmd s 0x30008 (fun s => if hostOk s then swapCmd (hostWr s none 0x30008 1) else s))

/-- CANCEL: SCH_TTCTL CANCEL clears a pending timetable swap. (spec/06 R166) -/
def execCancel (s : State) : Host.Outcome State Fault Refusal :=
  .next (s.run fun s => hostCmd s 0x30008 (fun s => cancelCmd (hostWr s none 0x30008 2)))

/-- EXCLUSIVE_RUN_END: LEN µs of the RUN phase of an EXCLUSIVE window pass and the window enters TAIL. (spec/06 R175) -/
def execExclusiveRunEnd (s : State) : Host.Outcome State Fault Refusal :=
  .next (s.run fun s => Machine.exclusiveRunEnd s)

/-- WATCHDOG_EXPIRY: A unit not completed D µs after it was sent is ended with WATCHDOG, its placement reset or halted and a fault reported. (spec/06 R176) -/
def execWatchdogExpiry (u : Nat) (s : State) : Host.Outcome State Fault Refusal :=
  .next (s.run fun s => Machine.watchdogExpiry s u)

/-- ENGINE_RESET_LIMIT_EXPIRY: An engine reset by the watchdog has not reported ready within SCH_WD.RLIMIT µs and the port is reported failed. (spec/06 R176) -/
def execEngineResetLimitExpiry (k : Nat) (s : State) : Host.Outcome State Fault Refusal :=
  .next (s.run fun s => engineResetLimit s k)

end Sys2Proof.Machine
end

