-- ==== Sys2Proof/Machine/StationRows.lean ====
section
/-! DEFINITION. Commands of the stations and the instructions of passage programs (spec/08, spec/09). -/

namespace Sys2Proof.Machine

/-- STATION_LOADED: A station's loaded report crosses into the control island; when all positions have reported, the start crosses to every station. (spec/09 R258) -/
def execStationLoaded (first : Nat) (pos : Nat) (s : State) : Host.Outcome State Fault Refusal :=
  .next (s.run fun s => Machine.stationLoaded s first pos)

/-- STATION_END: A station's end report crosses into the control island; the PASSAGE completes when the last one crosses. (spec/09 R259) -/
def execStationEnd (first : Nat) (pos : Nat) (s : State) : Host.Outcome State Fault Refusal :=
  .next (s.run fun s => Machine.stationEnd s first pos)

/-- STREAM_FAILURE_REPORT: A failed gallery access of a stream is reported and every station of the passage halts. (spec/09 R260) -/
def execStreamFailureReport (first : Nat) (s : State) : Host.Outcome State Fault Refusal :=
  .next (s.run fun s => streamFailure s first)

/-- STN_NOP: The passage instruction NOP does nothing. (spec/09 R251) -/
def execStnNop (n : Nat) (s : State) : Host.Outcome State Fault Refusal :=
  .next (s.run fun s => stnSeq s n 0x00 (fun s _ => some s))

/-- END: END waits for earlier instructions and streams, then ends the station's program. (spec/09 R259) -/
def execEnd (n : Nat) (s : State) : Host.Outcome State Fault Refusal :=
  .next (s.run fun s => stnSeq s n 0x01 (fun s w => insEnd s n w))

/-- STN_LOOP: The passage instruction LOOP repeats the following BODY instructions a count of times. (spec/09 R251) -/
def execStnLoop (n : Nat) (s : State) : Host.Outcome State Fault Refusal :=
  .next (s.run fun s => stnSeq s n 0x02 (fun s w => insLoop s n w))

/-- XMOVI: XMOVI writes a sign-extended immediate into a scalar register. (spec/09 R251) -/
def execXmovi (n : Nat) (s : State) : Host.Outcome State Fault Refusal :=
  .next (s.run fun s => stnSeq s n 0x03 (fun s w => insXmovi s n w))

/-- XADD: XADD adds a register or immediate to a scalar register. (spec/09 R251) -/
def execXadd (n : Nat) (s : State) : Host.Outcome State Fault Refusal :=
  .next (s.run fun s => stnSeq s n 0x04 (fun s w => insXadd s n w))

/-- XFLG: XFLG waits for earlier instructions, reads the passage flags into a scalar register and optionally clears them. (spec/09 R251) -/
def execXflg (n : Nat) (s : State) : Host.Outcome State Fault Refusal :=
  .next (s.run fun s => stnSeq s n 0x05 (fun s w => insXflg s n w))

/-- FSTART: FSTART starts a stream on a feeder. (spec/09 R252) -/
def execFstart (n : Nat) (s : State) : Host.Outcome State Fault Refusal :=
  .next (s.run fun s => stnUnit s n 0x08 (fun s q => insFstart s n q))

/-- FPOP: FPOP pops beats from a feeder into a lane register. (spec/09 R252) -/
def execFpop (n : Nat) (s : State) : Host.Outcome State Fault Refusal :=
  .next (s.run fun s => stnUnit s n 0x09 (fun s q => insFpop s n q.w))

/-- ESTART: ESTART starts a stream on the emitter. (spec/09 R252) -/
def execEstart (n : Nat) (s : State) : Host.Outcome State Fault Refusal :=
  .next (s.run fun s => stnUnit s n 0x0C (fun s q => insEstart s n q))

/-- EPUSH: EPUSH pushes a lane register into the emitter queue. (spec/09 R252) -/
def execEpush (n : Nat) (s : State) : Host.Outcome State Fault Refusal :=
  .next (s.run fun s => stnUnit s n 0x0D (fun s q => insEpush s n q.w))

/-- EWAIT: EWAIT waits until every earlier emitter stream has ended. (spec/09 R252) -/
def execEwait (n : Nat) (s : State) : Host.Outcome State Fault Refusal :=
  .next (s.run fun s => stnUnit s n 0x0E (fun s q => insEwait s n q.w))

/-- TCLR: TCLR clears an accumulator tile and sets its mode and scale origin. (spec/09 R253) -/
def execTclr (n : Nat) (s : State) : Host.Outcome State Fault Refusal :=
  .next (s.run fun s => stnUnit s n 0x10 (fun s q => insTclr s n q.w))

/-- MMA: MMA adds K k-steps of A × B into an accumulator tile. (spec/09 R253) -/
def execMma (n : Nat) (s : State) : Host.Outcome State Fault Refusal :=
  .next (s.run fun s => stnMma s n)

/-- EMIT: EMIT reads a tile out in rows or columns to lane registers or the emitter queue. (spec/09 R253) -/
def execEmit (n : Nat) (s : State) : Host.Outcome State Fault Refusal :=
  .next (s.run fun s => stnUnit s n 0x12 (fun s q => insEmit s n q))

/-- VADD: VADD adds two operands per lane. (spec/09 R254) -/
def execVadd (n : Nat) (s : State) : Host.Outcome State Fault Refusal :=
  .next (s.run fun s => stnUnit s n 0x18 (fun s q => insVarith .add s n q))

/-- VSUB: VSUB subtracts two operands per lane. (spec/09 R254) -/
def execVsub (n : Nat) (s : State) : Host.Outcome State Fault Refusal :=
  .next (s.run fun s => stnUnit s n 0x19 (fun s q => insVarith .sub s n q))

/-- VMUL: VMUL multiplies two operands per lane. (spec/09 R254) -/
def execVmul (n : Nat) (s : State) : Host.Outcome State Fault Refusal :=
  .next (s.run fun s => stnUnit s n 0x1A (fun s q => insVarith .mul s n q))

/-- VFMA: VFMA computes A × B + C with one rounding per lane. (spec/09 R254) -/
def execVfma (n : Nat) (s : State) : Host.Outcome State Fault Refusal :=
  .next (s.run fun s => stnUnit s n 0x1B (fun s q => insVfma s n q))

/-- VMIN: VMIN takes the IEEE minimum per lane. (spec/09 R254) -/
def execVmin (n : Nat) (s : State) : Host.Outcome State Fault Refusal :=
  .next (s.run fun s => stnUnit s n 0x1C (fun s q => insVminmax false s n q.w))

/-- VMAX: VMAX takes the IEEE maximum per lane. (spec/09 R254) -/
def execVmax (n : Nat) (s : State) : Host.Outcome State Fault Refusal :=
  .next (s.run fun s => stnUnit s n 0x1D (fun s q => insVminmax true s n q.w))

/-- VCMP: VCMP writes all ones or 0 per lane from a comparison. (spec/09 R254) -/
def execVcmp (n : Nat) (s : State) : Host.Outcome State Fault Refusal :=
  .next (s.run fun s => stnUnit s n 0x1E (fun s q => insVcmp s n q.w))

/-- VSEL: VSEL selects A or B per lane by C. (spec/09 R254) -/
def execVsel (n : Nat) (s : State) : Host.Outcome State Fault Refusal :=
  .next (s.run fun s => stnUnit s n 0x1F (fun s q => insVsel s n q.w))

/-- VAND: VAND computes bitwise AND on 32-bit lanes. (spec/09 R254) -/
def execVand (n : Nat) (s : State) : Host.Outcome State Fault Refusal :=
  .next (s.run fun s => stnUnit s n 0x20 (fun s q => insVlogic Nat.land s n q.w))

/-- VOR: VOR computes bitwise OR on 32-bit lanes. (spec/09 R254) -/
def execVor (n : Nat) (s : State) : Host.Outcome State Fault Refusal :=
  .next (s.run fun s => stnUnit s n 0x21 (fun s q => insVlogic Nat.lor s n q.w))

/-- VXOR: VXOR computes bitwise XOR on 32-bit lanes. (spec/09 R254) -/
def execVxor (n : Nat) (s : State) : Host.Outcome State Fault Refusal :=
  .next (s.run fun s => stnUnit s n 0x22 (fun s q => insVlogic Nat.xor s n q.w))

/-- VSHL: VSHL shifts 32-bit lanes left. (spec/09 R254) -/
def execVshl (n : Nat) (s : State) : Host.Outcome State Fault Refusal :=
  .next (s.run fun s => stnUnit s n 0x23 (fun s q => insVshl s n q.w))

/-- VSHR: VSHR shifts 32-bit lanes right, logically or arithmetically. (spec/09 R254) -/
def execVshr (n : Nat) (s : State) : Host.Outcome State Fault Refusal :=
  .next (s.run fun s => stnUnit s n 0x24 (fun s q => insVshr s n q.w))

/-- VCVT: VCVT converts lanes between formats, including to and from MX blocks. (spec/09 R254) -/
def execVcvt (n : Nat) (s : State) : Host.Outcome State Fault Refusal :=
  .next (s.run fun s => stnUnit s n 0x25 (fun s q => insVcvt s n q))

/-- VFN: VFN applies EXP2, LOG2, RCP, RSQRT, SINPI or COSPI per lane. (spec/09 R254) -/
def execVfn (n : Nat) (s : State) : Host.Outcome State Fault Refusal :=
  .next (s.run fun s => stnUnit s n 0x26 (fun s q => insVfn s n q))

/-- VSUM: VSUM writes the binary-tree sum of the 256 lanes into lane 0. (spec/09 R254) -/
def execVsum (n : Nat) (s : State) : Host.Outcome State Fault Refusal :=
  .next (s.run fun s => stnUnit s n 0x27 (fun s q => insVsum s n q.w))

/-- VBC: VBC broadcasts bits [31:0] of a scalar register to every lane. (spec/09 R254) -/
def execVbc (n : Nat) (s : State) : Host.Outcome State Fault Refusal :=
  .next (s.run fun s => stnUnit s n 0x28 (fun s q => insVbc s n q))

/-- RCLR: RCLR clears a run of long accumulators. (spec/09 R255) -/
def execRclr (n : Nat) (s : State) : Host.Outcome State Fault Refusal :=
  .next (s.run fun s => stnUnit s n 0x30 (fun s q => insRclr s n q.w))

/-- RADD: RADD adds 256 elements exactly into long accumulators in column or total form. (spec/09 R255) -/
def execRadd (n : Nat) (s : State) : Host.Outcome State Fault Refusal :=
  .next (s.run fun s => stnUnit s n 0x31 (fun s q => insRadd s n q.w))

/-- TOLONG: TOLONG adds a row of a narrow tile into W0 to W31 with weight 2^42. (spec/09 R255) -/
def execTolong (n : Nat) (s : State) : Host.Outcome State Fault Refusal :=
  .next (s.run fun s => stnUnit s n 0x32 (fun s q => insTolong s n q))

/-- RESOLVE: RESOLVE rounds long accumulators once into lanes of a lane register. (spec/09 R255) -/
def execResolve (n : Nat) (s : State) : Host.Outcome State Fault Refusal :=
  .next (s.run fun s => stnUnit s n 0x33 (fun s q => insResolve s n q))

/-- EXPORT: EXPORT pushes long forms of accumulators into the emitter queue. (spec/09 R255) -/
def execExport (n : Nat) (s : State) : Host.Outcome State Fault Refusal :=
  .next (s.run fun s => stnUnit s n 0x34 (fun s q => insExport s n q.w))

/-- IMPORT: IMPORT pops long forms from a feeder and adds them to or replaces accumulators. (spec/09 R255) -/
def execImport (n : Nat) (s : State) : Host.Outcome State Fault Refusal :=
  .next (s.run fun s => stnUnit s n 0x35 (fun s q => insImport s n q.w))

end Sys2Proof.Machine
end

