-- ==== Sys2Proof/Machine/XltRows.lean ====
section
/-! DEFINITION. Commands of translation and of the set-aside commands (spec/10). -/

namespace Sys2Proof.Machine

/-- TRANSLATION_REQUEST: An engine's translation request is served for its running unit's context, or answered with a PROTECTION fault response. (spec/10 R280) -/
def execTranslationRequest (k : Nat) (utag : Nat) (rtag : Nat) (ctx : Nat) (va : Nat) (acc : Nat) (s : State) : Host.Outcome State Fault Refusal :=
  .next (s.run fun s => engRequest s k utag rtag ctx va acc)

/-- INVALIDATION_GO: A write of GO = 1 to XLT_PW_INV_CTL starts a partition-window invalidation or is refused with ERR. (spec/10 R285) -/
def execInvalidationGo (p : Nat) (value : Nat) (s : State) : Host.Outcome State Fault Refusal :=
  .next (s.run fun s => windowCmd s p 0xF308 false (fun s => if hostOk s then invCtlWrite s p value else s))

/-- INVALIDATION_BEGIN: An invalidation waiting for one of the 16 slots begins: DRAINING sets, EPOCH increments and invalidate messages are sent. (spec/10 R282) -/
def execInvalidationBegin (s : State) : Host.Outcome State Fault Refusal :=
  .next (s.run fun s => invBegin s)

/-- DRAINED: An engine reports drained for a context on its translation request channel. (spec/10 R282) -/
def execDrained (k : Nat) (ctx : Nat) (epoch : Nat) (s : State) : Host.Outcome State Fault Refusal :=
  .next (s.run fun s => Machine.drained s k ctx epoch)

/-- INVALIDATION_COMPLETE: Every engine and fabric agent has drained; DRAINING clears, rings and watches are re-translated and the invalidation completes. (spec/10 R282) -/
def execInvalidationComplete (id : Nat) (s : State) : Host.Outcome State Fault Refusal :=
  .next (s.run fun s => match s.xlt.invs.find? (·.id == id) with
    | some v => if invReady s v then invComplete s id else s
    | none => s)

/-- ELIMIT_EXPIRY: An engine has not reported drained within ELIMIT µs; a fault is reported and the engine is reset. (spec/10 R284) -/
def execElimitExpiry (id : Nat) (k : Nat) (s : State) : Host.Outcome State Fault Refusal :=
  .next (s.run fun s => Machine.elimitExpiry s id k)

/-- PAGE_FAULT: A NOT_PRESENT translation stops the command, sets the queue aside or stops it, and issues a page-fault notice or fault. (spec/10 R286) -/
def execPageFault (s : State) : Host.Outcome State Fault Refusal :=
  .next (s.run fun s => Machine.pageFault s)

/-- RETRY: XLT_PW_RESUME with ACTION RETRY runs every set-aside command of the queue again from its beginning. (spec/10 R287) -/
def execRetry (p : Nat) (value : Nat) (s : State) : Host.Outcome State Fault Refusal :=
  .next (s.run fun s => windowCmd s p 0xF300 false (fun s => if value / 2 ^ 62 % 4 = 1 ∧ inputsReplayed s (value % 4096) = false then resumeWrite s p value else s))

/-- FAIL: XLT_PW_RESUME with ACTION FAIL completes set-aside commands with XLATE_FAULT and stops the queue. (spec/10 R287) -/
def execFail (p : Nat) (value : Nat) (s : State) : Host.Outcome State Fault Refusal :=
  .next (s.run fun s => windowCmd s p 0xF300 false (fun s => if value / 2 ^ 62 % 4 = 2 ∧ inputsReplayed s (value % 4096) = false then resumeWrite s p value else s))

/-- SET_ASIDE_LIMIT_EXPIRY: A command set aside for XLT_PFCFG.LIMIT ms without resume is handled as FAIL. (spec/10 R288) -/
def execSetAsideLimitExpiry (q : Nat) (s : State) : Host.Outcome State Fault Refusal :=
  .next (s.run fun s => asideExpiry s q)

/-- ACCESS_COUNTER_DECAY: Every DECAY ms every access counter is halved. (spec/10 R290) -/
def execAccessCounterDecay (s : State) : Host.Outcome State Fault Refusal :=
  .next (s.run fun s => acntDecay s)

/-- XLT_MIGR_POP: A write of POP = 1 removes the oldest migration notice and clears LOST. (spec/10 R290) -/
def execXltMigrPop (s : State) : Host.Outcome State Fault Refusal :=
  .next (s.run fun s => hostCmd s 0xC0050 migrPop)

/-- XLT_CTX_WRITE: A write to XLT_CTX is applied, except a clear of EN while a queue uses the context, which is ignored with CTX_BUSY. (spec/10 R266) -/
def execXltCtxWrite (ctx : Nat) (word : Nat) (value : Nat) (s : State) : Host.Outcome State Fault Refusal :=
  .next (s.run fun s => hostCmd s (0xC8000 + 32 * ctx + 8 * word) (fun s => if ctx < 1024 then ctxWrite s ctx word value else s))

end Sys2Proof.Machine
end

