-- ==== Sys2Proof/Machine/Dispatch.lean ====
section
/-! DEFINITION. The dispatch of the commands: one arm each. -/

namespace Sys2Proof.Machine

/-- The effect of a command on everything but the queue of commands. -/
def exec (i : Instr) (s : State) : Host.Outcome State Fault Refusal :=
  match i with
  | .doorbellWrite p off => Sys2Proof.Machine.execDoorbellWrite p off s
  | .enable q off => Sys2Proof.Machine.execEnable q off s
  | .disableDrain q off => Sys2Proof.Machine.execDisableDrain q off s
  | .disableAbort q off => Sys2Proof.Machine.execDisableAbort q off s
  | .resume q off => Sys2Proof.Machine.execResume q off s
  | .qeCqHeadWrite q off head => Sys2Proof.Machine.execQeCqHeadWrite q off head s
  | .batchReadIssue => Sys2Proof.Machine.execBatchReadIssue s
  | .scan tag resp data => Sys2Proof.Machine.execScan tag resp data s
  | .descriptorStart q => Sys2Proof.Machine.execDescriptorStart q s
  | .recordWriteResponse tag resp => Sys2Proof.Machine.execRecordWriteResponse tag resp s
  | .nop q => Sys2Proof.Machine.execNop q s
  | .jump q => Sys2Proof.Machine.execJump q s
  | .branch q => Sys2Proof.Machine.execBranch q s
  | .loop q => Sys2Proof.Machine.execLoop q s
  | .callp q => Sys2Proof.Machine.execCallp q s
  | .ret q => Sys2Proof.Machine.execRet q s
  | .movi q => Sys2Proof.Machine.execMovi q s
  | .add q => Sys2Proof.Machine.execAdd q s
  | .sub q => Sys2Proof.Machine.execSub q s
  | .and q => Sys2Proof.Machine.execAnd q s
  | .or q => Sys2Proof.Machine.execOr q s
  | .xor q => Sys2Proof.Machine.execXor q s
  | .shl q => Sys2Proof.Machine.execShl q s
  | .shr q => Sys2Proof.Machine.execShr q s
  | .cmp q => Sys2Proof.Machine.execCmp q s
  | .ld q => Sys2Proof.Machine.execLd q s
  | .st q => Sys2Proof.Machine.execSt q s
  | .waitge q => Sys2Proof.Machine.execWaitge q s
  | .signal q => Sys2Proof.Machine.execSignal q s
  | .memsignal q => Sys2Proof.Machine.execMemsignal q s
  | .barrier q => Sys2Proof.Machine.execBarrier q s
  | .launch q => Sys2Proof.Machine.execLaunch q s
  | .dispatch q => Sys2Proof.Machine.execDispatch q s
  | .tilepass q => Sys2Proof.Machine.execTilepass q s
  | .copy q => Sys2Proof.Machine.execCopy q s
  | .fill q => Sys2Proof.Machine.execFill q s
  | .dma q => Sys2Proof.Machine.execDma q s
  | .seal q => Sys2Proof.Machine.execSeal q s
  | .unseal q => Sys2Proof.Machine.execUnseal q s
  | .frank q => Sys2Proof.Machine.execFrank q s
  | .passage q => Sys2Proof.Machine.execPassage q s
  | .pstop q => Sys2Proof.Machine.execPstop q s
  | .enqueue q => Sys2Proof.Machine.execEnqueue q s
  | .enqueueSpaceAvailable q => Sys2Proof.Machine.execEnqueueSpaceAvailable q s
  | .enqueueImageWriteResponse tag resp => Sys2Proof.Machine.execEnqueueImageWriteResponse tag resp s
  | .collect q => Sys2Proof.Machine.execCollect q s
  | .stamp q => Sys2Proof.Machine.execStamp q s
  | .snap q => Sys2Proof.Machine.execSnap q s
  | .pdef q => Sys2Proof.Machine.execPdef q s
  | .ppatch q => Sys2Proof.Machine.execPpatch q s
  | .pfree q => Sys2Proof.Machine.execPfree q s
  | .parcelClaim p n => Sys2Proof.Machine.execParcelClaim p n s
  | .publication p n => Sys2Proof.Machine.execPublication p n s
  | .editionPin q => Sys2Proof.Machine.execEditionPin q s
  | .xinval q => Sys2Proof.Machine.execXinval q s
  | .phreset q => Sys2Proof.Machine.execPhreset q s
  | .unitAdmission courier => Sys2Proof.Machine.execUnitAdmission courier s
  | .completionItem k w0 w1 w2 w3 => Sys2Proof.Machine.execCompletionItem k w0 w1 w2 w3 s
  | .tileLaunchStart q => Sys2Proof.Machine.execTileLaunchStart q s
  | .tileResolveWrite q courier => Sys2Proof.Machine.execTileResolveWrite q courier s
  | .collectiveEnd q => Sys2Proof.Machine.execCollectiveEnd q s
  | .migration q kind old new => Sys2Proof.Machine.execMigration q kind old new s
  | .linkSignalArrival src w0 value => Sys2Proof.Machine.execLinkSignalArrival src w0 value s
  | .waitgeTimeoutExpiry q => Sys2Proof.Machine.execWaitgeTimeoutExpiry q s
  | .watchFree => Sys2Proof.Machine.execWatchFree s
  | .watchReadReturn tag resp data => Sys2Proof.Machine.execWatchReadReturn tag resp data s
  | .fenceDoorbell p => Sys2Proof.Machine.execFenceDoorbell p s
  | .pollIntervalExpiry w => Sys2Proof.Machine.execPollIntervalExpiry w s
  | .waitCycleScan p texts => Sys2Proof.Machine.execWaitCycleScan p texts s
  | .pigeonholeScrubStep n => Sys2Proof.Machine.execPigeonholeScrubStep n s
  | .waitreq k w0 w1 => Sys2Proof.Machine.execWaitreq k w0 w1 s
  | .waitcancel k w0 => Sys2Proof.Machine.execWaitcancel k w0 s
  | .phAllotmentWrite p limit value => Sys2Proof.Machine.execPhAllotmentWrite p limit value s
  | .phLinkWrite entry value => Sys2Proof.Machine.execPhLinkWrite entry value s
  | .windowBoundary => Sys2Proof.Machine.execWindowBoundary s
  | .majorCycleBoundary => Sys2Proof.Machine.execMajorCycleBoundary s
  | .swap => Sys2Proof.Machine.execSwap s
  | .cancel => Sys2Proof.Machine.execCancel s
  | .exclusiveRunEnd => Sys2Proof.Machine.execExclusiveRunEnd s
  | .watchdogExpiry u => Sys2Proof.Machine.execWatchdogExpiry u s
  | .engineResetLimitExpiry k => Sys2Proof.Machine.execEngineResetLimitExpiry k s
  | .hallSlotAccess h => Sys2Proof.Machine.execHallSlotAccess h s
  | .frankCounterIncrement => Sys2Proof.Machine.execFrankCounterIncrement s
  | .gatherEntryDue req line => Sys2Proof.Machine.execGatherEntryDue req line s
  | .changeOfOwner blk value => Sys2Proof.Machine.execChangeOfOwner blk value s
  | .ownerScrubDone blk => Sys2Proof.Machine.execOwnerScrubDone blk s
  | .wheelSwap h => Sys2Proof.Machine.execWheelSwap h s
  | .wheelCancel h => Sys2Proof.Machine.execWheelCancel h s
  | .turnBoundary h => Sys2Proof.Machine.execTurnBoundary h s
  | .dropWindowOpen p value => Sys2Proof.Machine.execDropWindowOpen p value s
  | .dropWindowClose p value => Sys2Proof.Machine.execDropWindowClose p value s
  | .forceClose w => Sys2Proof.Machine.execForceClose w s
  | .disarm rg => Sys2Proof.Machine.execDisarm rg s
  | .galFrankPartWrite p value => Sys2Proof.Machine.execGalFrankPartWrite p value s
  | .galHostDataAccess wr value => Sys2Proof.Machine.execGalHostDataAccess wr value s
  | .galPwDataAccess p wr value => Sys2Proof.Machine.execGalPwDataAccess p wr value s
  | .galCpwrReqWrite h value => Sys2Proof.Machine.execGalCpwrReqWrite h value s
  | .chamberOpeningEnd h c => Sys2Proof.Machine.execChamberOpeningEnd h c s
  | .chamberZeroingEnd h c => Sys2Proof.Machine.execChamberZeroingEnd h c s
  | .patrolPassStart => Sys2Proof.Machine.execPatrolPassStart s
  | .stationLoaded first pos => Sys2Proof.Machine.execStationLoaded first pos s
  | .stationEnd first pos => Sys2Proof.Machine.execStationEnd first pos s
  | .streamFailureReport first => Sys2Proof.Machine.execStreamFailureReport first s
  | .stnNop n => Sys2Proof.Machine.execStnNop n s
  | .end_ n => Sys2Proof.Machine.execEnd n s
  | .stnLoop n => Sys2Proof.Machine.execStnLoop n s
  | .xmovi n => Sys2Proof.Machine.execXmovi n s
  | .xadd n => Sys2Proof.Machine.execXadd n s
  | .xflg n => Sys2Proof.Machine.execXflg n s
  | .fstart n => Sys2Proof.Machine.execFstart n s
  | .fpop n => Sys2Proof.Machine.execFpop n s
  | .estart n => Sys2Proof.Machine.execEstart n s
  | .epush n => Sys2Proof.Machine.execEpush n s
  | .ewait n => Sys2Proof.Machine.execEwait n s
  | .tclr n => Sys2Proof.Machine.execTclr n s
  | .mma n => Sys2Proof.Machine.execMma n s
  | .emit n => Sys2Proof.Machine.execEmit n s
  | .vadd n => Sys2Proof.Machine.execVadd n s
  | .vsub n => Sys2Proof.Machine.execVsub n s
  | .vmul n => Sys2Proof.Machine.execVmul n s
  | .vfma n => Sys2Proof.Machine.execVfma n s
  | .vmin n => Sys2Proof.Machine.execVmin n s
  | .vmax n => Sys2Proof.Machine.execVmax n s
  | .vcmp n => Sys2Proof.Machine.execVcmp n s
  | .vsel n => Sys2Proof.Machine.execVsel n s
  | .vand n => Sys2Proof.Machine.execVand n s
  | .vor n => Sys2Proof.Machine.execVor n s
  | .vxor n => Sys2Proof.Machine.execVxor n s
  | .vshl n => Sys2Proof.Machine.execVshl n s
  | .vshr n => Sys2Proof.Machine.execVshr n s
  | .vcvt n => Sys2Proof.Machine.execVcvt n s
  | .vfn n => Sys2Proof.Machine.execVfn n s
  | .vsum n => Sys2Proof.Machine.execVsum n s
  | .vbc n => Sys2Proof.Machine.execVbc n s
  | .rclr n => Sys2Proof.Machine.execRclr n s
  | .radd n => Sys2Proof.Machine.execRadd n s
  | .tolong n => Sys2Proof.Machine.execTolong n s
  | .resolve n => Sys2Proof.Machine.execResolve n s
  | .export_ n => Sys2Proof.Machine.execExport n s
  | .import_ n => Sys2Proof.Machine.execImport n s
  | .translationRequest k utag rtag ctx va acc => Sys2Proof.Machine.execTranslationRequest k utag rtag ctx va acc s
  | .invalidationGo p value => Sys2Proof.Machine.execInvalidationGo p value s
  | .invalidationBegin => Sys2Proof.Machine.execInvalidationBegin s
  | .drained k ctx epoch => Sys2Proof.Machine.execDrained k ctx epoch s
  | .invalidationComplete id => Sys2Proof.Machine.execInvalidationComplete id s
  | .elimitExpiry id k => Sys2Proof.Machine.execElimitExpiry id k s
  | .pageFault => Sys2Proof.Machine.execPageFault s
  | .retry p value => Sys2Proof.Machine.execRetry p value s
  | .fail p value => Sys2Proof.Machine.execFail p value s
  | .setAsideLimitExpiry q => Sys2Proof.Machine.execSetAsideLimitExpiry q s
  | .accessCounterDecay => Sys2Proof.Machine.execAccessCounterDecay s
  | .xltMigrPop => Sys2Proof.Machine.execXltMigrPop s
  | .xltCtxWrite ctx word value => Sys2Proof.Machine.execXltCtxWrite ctx word value s
  | .linkEnable l => Sys2Proof.Machine.execLinkEnable l s
  | .park l => Sys2Proof.Machine.execPark l s
  | .linkDisable l => Sys2Proof.Machine.execLinkDisable l s
  | .adapterLinkUp l => Sys2Proof.Machine.execAdapterLinkUp l s
  | .adapterLinkDown l => Sys2Proof.Machine.execAdapterLinkDown l s
  | .neg l w0 w1 => Sys2Proof.Machine.execNeg l w0 w1 s
  | .negotiationTimeout l => Sys2Proof.Machine.execNegotiationTimeout l s
  | .parkReceived l => Sys2Proof.Machine.execParkReceived l s
  | .flitReceive l flit => Sys2Proof.Machine.execFlitReceive l flit s
  | .mrd l hdr addr => Sys2Proof.Machine.execMrd l hdr addr s
  | .mwr l hdr addr data => Sys2Proof.Machine.execMwr l hdr addr data s
  | .phsig l hdr w0 value => Sys2Proof.Machine.execPhsig l hdr w0 value s
  | .coll l hdr w0 data => Sys2Proof.Machine.execColl l hdr w0 data s
  | .cbrk l hdr w0 => Sys2Proof.Machine.execCbrk l hdr w0 s
  | .rdata l hdr w1 data => Sys2Proof.Machine.execRdata l hdr w1 data s
  | .wack l hdr w1 => Sys2Proof.Machine.execWack l hdr w1 s
  | .routeHoldExpiry tag => Sys2Proof.Machine.execRouteHoldExpiry tag s
  | .tsyncExchange => Sys2Proof.Machine.execTsyncExchange s
  | .tsyncResponse l t1 t2 t3 => Sys2Proof.Machine.execTsyncResponse l t1 t2 t3 s
  | .tsyncLoss => Sys2Proof.Machine.execTsyncLoss s
  | .fabGrpWrite g value => Sys2Proof.Machine.execFabGrpWrite g value s
  | .steplimExpiry q => Sys2Proof.Machine.execSteplimExpiry q s
  | .pairMirror => Sys2Proof.Machine.execPairMirror s
  | .pairCompare => Sys2Proof.Machine.execPairCompare s
  | .solo => Sys2Proof.Machine.execSolo s
  | .echoFlitReceive flit => Sys2Proof.Machine.execEchoFlitReceive flit s
  | .echoResendExpiry => Sys2Proof.Machine.execEchoResendExpiry s
  | .heartbeat mode role tb healthy => Sys2Proof.Machine.execHeartbeat mode role tb healthy s
  | .heartbeatSend => Sys2Proof.Machine.execHeartbeatSend s
  | .qstate q qst pend sq cq head pr pc epoch g loc stack => Sys2Proof.Machine.execQstate q qst pend sq cq head pr pc epoch g loc stack s
  | .phval ph v => Sys2Proof.Machine.execPhval ph v s
  | .fkval c v => Sys2Proof.Machine.execFkval c v s
  | .line addr data full => Sys2Proof.Machine.execLine addr data full s
  | .parcel p n gen ed dram addr len freed => Sys2Proof.Machine.execParcel p n gen ed dram addr len freed s
  | .sealreg rg base size mode => Sys2Proof.Machine.execSealreg rg base size mode s
  | .hinge q sq ord hst res tq pcount => Sys2Proof.Machine.execHinge q sq ord hst res tq pcount s
  | .decision w0 w1 w2 w3 => Sys2Proof.Machine.execDecision w0 w1 w2 w3 s
  | .hostwr q isHead head => Sys2Proof.Machine.execHostwr q isHead head s
  | .retire q sq ord => Sys2Proof.Machine.execRetire q sq ord s
  | .digest q sq ord dig => Sys2Proof.Machine.execDigest q sq ord dig s
  | .heartbeatLoss => Sys2Proof.Machine.execHeartbeatLoss s
  | .digestWaitExpiry q sq ord => Sys2Proof.Machine.execDigestWaitExpiry q sq ord s
  | .tiebreakRise => Sys2Proof.Machine.execTiebreakRise s
  | .tiebreakFall => Sys2Proof.Machine.execTiebreakFall s
  | .faultRaised => Sys2Proof.Machine.execFaultRaised s
  | .faultRingWriteError tag => Sys2Proof.Machine.execFaultRingWriteError tag s
  | .latchAcknowledge grp cls => Sys2Proof.Machine.execLatchAcknowledge grp cls s
  | .autoackExpiry grp => Sys2Proof.Machine.execAutoackExpiry grp s
  | .faultRingHeadWrite r head => Sys2Proof.Machine.execFaultRingHeadWrite r head s
  | .holdBudgetExpiry id => Sys2Proof.Machine.execHoldBudgetExpiry id s
  | .faultRingDeadWrite r => Sys2Proof.Machine.execFaultRingDeadWrite r s
  | .fatalHalt => Sys2Proof.Machine.execFatalHalt s
  | .lanternPeriod => Sys2Proof.Machine.execLanternPeriod s
  | .healthEcho => Sys2Proof.Machine.execHealthEcho s
  | .fltInjArm value => Sys2Proof.Machine.execFltInjArm value s
  | .powerActive => Sys2Proof.Machine.execPowerActive s
  | .powerIdle => Sys2Proof.Machine.execPowerIdle s
  | .nap => Sys2Proof.Machine.execNap s
  | .dormant => Sys2Proof.Machine.execDormant s
  | .wake src => Sys2Proof.Machine.execWake src s
  | .wakeTimer => Sys2Proof.Machine.execWakeTimer s
  | .lwake l => Sys2Proof.Machine.execLwake l s
  | .pwake => Sys2Proof.Machine.execPwake s
  | .islandGate isl => Sys2Proof.Machine.execIslandGate isl s
  | .domainAck d => Sys2Proof.Machine.execDomainAck d s
  | .domainTimeout d => Sys2Proof.Machine.execDomainTimeout d s
  | .domainRetry d => Sys2Proof.Machine.execDomainRetry d s
  | .pwrDomFailedWrite d => Sys2Proof.Machine.execPwrDomFailedWrite d s
  | .governorInterval => Sys2Proof.Machine.execGovernorInterval s
  | .forecastPublication => Sys2Proof.Machine.execForecastPublication s
  | .thermalModelStep => Sys2Proof.Machine.execThermalModelStep s
  | .sensorSample n temp => Sys2Proof.Machine.execSensorSample n temp s
  | .externalSample n temp => Sys2Proof.Machine.execExternalSample n temp s
  | .externalSensorTimeout n => Sys2Proof.Machine.execExternalSensorTimeout n s
  | .supplyLowRise => Sys2Proof.Machine.execSupplyLowRise s
  | .supplyLowFall => Sys2Proof.Machine.execSupplyLowFall s
  | .pceilChange ceil slew => Sys2Proof.Machine.execPceilChange ceil slew s
  | .fallbackRampStep => Sys2Proof.Machine.execFallbackRampStep s
  | .fwVaultDataAccess wr value => Sys2Proof.Machine.execFwVaultDataAccess wr value s
  | .vaultZeroed => Sys2Proof.Machine.execVaultZeroed s
  | .go value => Sys2Proof.Machine.execGo value s
  | .verificationDone => Sys2Proof.Machine.execVerificationDone s
  | .coreWatchdogExpiry k => Sys2Proof.Machine.execCoreWatchdogExpiry k s
  | .coreCrash k cause => Sys2Proof.Machine.execCoreCrash k cause s
  | .lockstep => Sys2Proof.Machine.execLockstep s
  | .coreReloadComplete k => Sys2Proof.Machine.execCoreReloadComplete k s
  | .stage => Sys2Proof.Machine.execStage s
  | .updateCancel => Sys2Proof.Machine.execUpdateCancel s
  | .quietPoint => Sys2Proof.Machine.execQuietPoint s
  | .postmark core level point a0 a1 => Sys2Proof.Machine.execPostmark core level point a0 a1 s
  | .partitionEnable p => Sys2Proof.Machine.execPartitionEnable p s
  | .partitionDisableDrain p => Sys2Proof.Machine.execPartitionDisableDrain p s
  | .partitionDisableAbort p => Sys2Proof.Machine.execPartitionDisableAbort p s
  | .disableStepEnd p => Sys2Proof.Machine.execDisableStepEnd p s
  | .drainlimExpiry p => Sys2Proof.Machine.execDrainlimExpiry p s
  | .mailboxSend p => Sys2Proof.Machine.execMailboxSend p s
  | .mailboxCheck p => Sys2Proof.Machine.execMailboxCheck p s
  | .reply p => Sys2Proof.Machine.execReply p s
  | .ack p => Sys2Proof.Machine.execAck p s
  | .cmtArm value => Sys2Proof.Machine.execCmtArm value s
  | .cmtCommit value => Sys2Proof.Machine.execCmtCommit value s
  | .kAck value err => Sys2Proof.Machine.execKAck value err s
  | .laneRepair l rep => Sys2Proof.Machine.execLaneRepair l rep s
  | .obsPlcTimeRead k => Sys2Proof.Machine.execObsPlcTimeRead k s
  | .obsPwCtlWrite p value => Sys2Proof.Machine.execObsPwCtlWrite p value s
  | .traceSample => Sys2Proof.Machine.execTraceSample s
  | .letterbookRecord => Sys2Proof.Machine.execLetterbookRecord s
  | .letterbookHeadWrite head => Sys2Proof.Machine.execLetterbookHeadWrite head s
  | .replayGo => Sys2Proof.Machine.execReplayGo s
  | .replayStop => Sys2Proof.Machine.execReplayStop s
  | .replayWaitExpiry q => Sys2Proof.Machine.execReplayWaitExpiry q s
  | .poresetN => Sys2Proof.Machine.execPoresetN s
  | .wresetN => Sys2Proof.Machine.execWresetN s
  | .safeResetN => Sys2Proof.Machine.execSafeResetN s
  | .resetRelease => Sys2Proof.Machine.execResetRelease s
  | .trstN => Sys2Proof.Machine.execTrstN s
  | .hPortRequest off wr len strb data => Sys2Proof.Machine.execHPortRequest off wr len strb data s
  | .mPortReadData tag resp data => Sys2Proof.Machine.execMPortReadData tag resp data s
  | .mPortWriteResponse tag resp => Sys2Proof.Machine.execMPortWriteResponse tag resp s
  | .galleryRequest k utag gtag addr col mask wr sealed trn data => Sys2Proof.Machine.execGalleryRequest k utag gtag addr col mask wr sealed trn data s
  | .caps k w0 => Sys2Proof.Machine.execCaps k w0 s
  | .ready k => Sys2Proof.Machine.execReady k s
  | .registerWrite off value => Sys2Proof.Machine.execRegisterWrite off value s
  | .fabricTimeAdvance => Sys2Proof.Machine.execFabricTimeAdvance s
  | .echoLinkUp ident edition cfg tb sec => Sys2Proof.Machine.execEchoLinkUp ident edition cfg tb sec s
  | .levelGrant isl => Sys2Proof.Machine.execLevelGrant isl s
  | .mPortErrorItem port addr => Sys2Proof.Machine.execMPortErrorItem port addr s
  | .busErrorAddrWaitExpiry tag => Sys2Proof.Machine.execBusErrorAddrWaitExpiry tag s
  | .tapAccess ir inst off wr value => Sys2Proof.Machine.execTapAccess ir inst off wr value s
  | .removalOfPower => Sys2Proof.Machine.execRemovalOfPower s

end Sys2Proof.Machine
end

