-- ==== Sys2Proof/WellFormed.lean ====
section
/-! DEFINITION. Well-formed commands: every operand lies in the range its field or its count of instances has (spec/00 R6, R9; spec/18). A check of what a sender can send, not of what the block does with it. -/

namespace Sys2Proof

/-- A command's operands lie in their ranges, on a build. -/
def Instr.wf (b : Build) : Instr → Bool
  | .doorbellWrite p off => decide (p < 64) && decide (off < 4096)
  | .enable q off => decide (q < 4096) && decide (off < 2 ^ 24)
  | .disableDrain q off => decide (q < 4096) && decide (off < 2 ^ 24)
  | .disableAbort q off => decide (q < 4096) && decide (off < 2 ^ 24)
  | .resume q off => decide (q < 4096) && decide (off < 2 ^ 24)
  | .qeCqHeadWrite q off head => decide (q < 4096) && decide (off < 2 ^ 24) && decide (head < 2 ^ 32)
  | .batchReadIssue => true
  | .scan _ _ data => decide (data.length ≤ 512)
  | .descriptorStart q => decide (q < 4096)
  | .recordWriteResponse _ _ => true
  | .nop q => decide (q < 4096)
  | .jump q => decide (q < 4096)
  | .branch q => decide (q < 4096)
  | .loop q => decide (q < 4096)
  | .callp q => decide (q < 4096)
  | .ret q => decide (q < 4096)
  | .movi q => decide (q < 4096)
  | .add q => decide (q < 4096)
  | .sub q => decide (q < 4096)
  | .and q => decide (q < 4096)
  | .or q => decide (q < 4096)
  | .xor q => decide (q < 4096)
  | .shl q => decide (q < 4096)
  | .shr q => decide (q < 4096)
  | .cmp q => decide (q < 4096)
  | .ld q => decide (q < 4096)
  | .st q => decide (q < 4096)
  | .waitge q => decide (q < 4096)
  | .signal q => decide (q < 4096)
  | .memsignal q => decide (q < 4096)
  | .barrier q => decide (q < 4096)
  | .launch q => decide (q < 4096)
  | .dispatch q => decide (q < 4096)
  | .tilepass q => decide (q < 4096)
  | .copy q => decide (q < 4096)
  | .fill q => decide (q < 4096)
  | .dma q => decide (q < 4096)
  | .seal q => decide (q < 4096)
  | .unseal q => decide (q < 4096)
  | .frank q => decide (q < 4096)
  | .passage q => decide (q < 4096)
  | .pstop q => decide (q < 4096)
  | .enqueue q => decide (q < 4096)
  | .enqueueSpaceAvailable q => decide (q < 4096)
  | .enqueueImageWriteResponse _ _ => true
  | .collect q => decide (q < 4096)
  | .stamp q => decide (q < 4096)
  | .snap q => decide (q < 4096)
  | .pdef q => decide (q < 4096)
  | .ppatch q => decide (q < 4096)
  | .pfree q => decide (q < 4096)
  | .parcelClaim p n => decide (p < 64) && decide (n < 4096)
  | .publication p n => decide (p < 64) && decide (n < 4096)
  | .editionPin q => decide (q < 4096)
  | .xinval q => decide (q < 4096)
  | .phreset q => decide (q < 4096)
  | .unitAdmission courier => decide (courier < 16)
  | .completionItem k _ _ _ _ => decide (k < b.eports)
  | .tileLaunchStart q => decide (q < 4096)
  | .tileResolveWrite q courier => decide (q < 4096) && decide (courier < 16)
  | .collectiveEnd q => decide (q < 4096)
  | .migration q kind old new => decide (q < 4096) && decide (kind < 4) && decide (old < 64) && decide (new < 64)
  | .linkSignalArrival src _ _ => decide (src < 16)
  | .waitgeTimeoutExpiry q => decide (q < 4096)
  | .watchFree => true
  | .watchReadReturn _ _ data => decide (data.length ≤ 512)
  | .fenceDoorbell p => decide (p < 64)
  | .pollIntervalExpiry _ => true
  | .waitCycleScan p _ => decide (p < 64)
  | .pigeonholeScrubStep n => decide (n < 2 ^ 21)
  | .waitreq k _ _ => decide (k < b.eports)
  | .waitcancel k _ => decide (k < b.eports)
  | .phAllotmentWrite p _ value => decide (p < 64) && decide (value < 2 ^ 64)
  | .phLinkWrite i value => decide (i < 4096) && decide (value < 2 ^ 64)
  | .windowBoundary => true
  | .majorCycleBoundary => true
  | .swap => true
  | .cancel => true
  | .exclusiveRunEnd => true
  | .watchdogExpiry _ => true
  | .engineResetLimitExpiry k => decide (k < b.eports)
  | .hallSlotAccess h => decide (h < b.halls)
  | .frankCounterIncrement => true
  | .gatherEntryDue req _ => decide (req < 128)
  | .changeOfOwner blk value => decide (blk < b.galleryBytes / 65536) && decide (value < 2 ^ 64)
  | .ownerScrubDone blk => decide (blk < b.galleryBytes / 65536)
  | .wheelSwap h => decide (h < b.halls)
  | .wheelCancel h => decide (h < b.halls)
  | .turnBoundary h => decide (h < b.halls)
  | .dropWindowOpen p value => decide (p < 64) && decide (value < 2 ^ 64)
  | .dropWindowClose p value => decide (p < 64) && decide (value < 2 ^ 64)
  | .forceClose w => decide (w < 256)
  | .disarm rg => decide (rg < 64)
  | .galFrankPartWrite p value => decide (p < 64) && decide (value < 2 ^ 64)
  | .galHostDataAccess _ _ => true
  | .galPwDataAccess p _ _ => decide (p < 64)
  | .galCpwrReqWrite h value => decide (h < b.halls) && decide (value < 2 ^ 64)
  | .chamberOpeningEnd h c => decide (h < b.halls) && decide (c < 16)
  | .chamberZeroingEnd h c => decide (h < b.halls) && decide (c < 16)
  | .patrolPassStart => true
  | .stationLoaded first pos => decide (first < b.stations) && decide (pos < 64)
  | .stationEnd first pos => decide (first < b.stations) && decide (pos < 64)
  | .streamFailureReport first => decide (first < b.stations)
  | .stnNop n => decide (n < b.stations)
  | .end_ n => decide (n < b.stations)
  | .stnLoop n => decide (n < b.stations)
  | .xmovi n => decide (n < b.stations)
  | .xadd n => decide (n < b.stations)
  | .xflg n => decide (n < b.stations)
  | .fstart n => decide (n < b.stations)
  | .fpop n => decide (n < b.stations)
  | .estart n => decide (n < b.stations)
  | .epush n => decide (n < b.stations)
  | .ewait n => decide (n < b.stations)
  | .tclr n => decide (n < b.stations)
  | .mma n => decide (n < b.stations)
  | .emit n => decide (n < b.stations)
  | .vadd n => decide (n < b.stations)
  | .vsub n => decide (n < b.stations)
  | .vmul n => decide (n < b.stations)
  | .vfma n => decide (n < b.stations)
  | .vmin n => decide (n < b.stations)
  | .vmax n => decide (n < b.stations)
  | .vcmp n => decide (n < b.stations)
  | .vsel n => decide (n < b.stations)
  | .vand n => decide (n < b.stations)
  | .vor n => decide (n < b.stations)
  | .vxor n => decide (n < b.stations)
  | .vshl n => decide (n < b.stations)
  | .vshr n => decide (n < b.stations)
  | .vcvt n => decide (n < b.stations)
  | .vfn n => decide (n < b.stations)
  | .vsum n => decide (n < b.stations)
  | .vbc n => decide (n < b.stations)
  | .rclr n => decide (n < b.stations)
  | .radd n => decide (n < b.stations)
  | .tolong n => decide (n < b.stations)
  | .resolve n => decide (n < b.stations)
  | .export_ n => decide (n < b.stations)
  | .import_ n => decide (n < b.stations)
  | .translationRequest k utag rtag ctx va acc => decide (k < b.eports) && decide (utag < 2 ^ 16) && decide (rtag < 2 ^ 12) && decide (ctx < 1024) && decide (va < 2 ^ 64) && decide (acc < 2)
  | .invalidationGo p value => decide (p < 64) && decide (value < 2 ^ 64)
  | .invalidationBegin => true
  | .drained k ctx epoch => decide (k < b.eports) && decide (ctx < 1024) && decide (epoch < 2 ^ 32)
  | .invalidationComplete _ => true
  | .elimitExpiry _ k => decide (k < b.eports)
  | .pageFault => true
  | .retry p value => decide (p < 64) && decide (value < 2 ^ 64)
  | .fail p value => decide (p < 64) && decide (value < 2 ^ 64)
  | .setAsideLimitExpiry q => decide (q < 4096)
  | .accessCounterDecay => true
  | .xltMigrPop => true
  | .xltCtxWrite ctx word value => decide (ctx < 1024) && decide (word < 4) && decide (value < 2 ^ 64)
  | .linkEnable l => decide (l < b.links)
  | .park l => decide (l < b.links)
  | .linkDisable l => decide (l < b.links)
  | .adapterLinkUp l => decide (l < b.links)
  | .adapterLinkDown l => decide (l < b.links)
  | .neg l _ _ => decide (l < b.links)
  | .negotiationTimeout l => decide (l < b.links)
  | .parkReceived l => decide (l < b.links)
  | .flitReceive l flit => decide (l < b.links) && decide (flit.length = 256)
  | .mrd l _ _ => decide (l < b.links)
  | .mwr l _ _ data => decide (l < b.links) && decide (data.length ≤ 512)
  | .phsig l _ _ _ => decide (l < b.links)
  | .coll l _ _ data => decide (l < b.links) && decide (data.length ≤ 512)
  | .cbrk l _ _ => decide (l < b.links)
  | .rdata l _ _ data => decide (l < b.links) && decide (data.length ≤ 512)
  | .wack l _ _ => decide (l < b.links)
  | .routeHoldExpiry _ => true
  | .tsyncExchange => true
  | .tsyncResponse l t1 t2 t3 => decide (l < b.links) && decide (t1 < 2 ^ 64) && decide (t2 < 2 ^ 64) && decide (t3 < 2 ^ 64)
  | .tsyncLoss => true
  | .fabGrpWrite g value => decide (g < 256) && decide (value < 2 ^ 64)
  | .steplimExpiry q => decide (q < 4096)
  | .pairMirror => true
  | .pairCompare => true
  | .solo => true
  | .echoFlitReceive flit => decide (flit.length = 256)
  | .echoResendExpiry => true
  | .heartbeat mode role _ _ => decide (mode < 4) && decide (role < 6)
  | .heartbeatSend => true
  | .qstate q qst _ sq cq head pr pc epoch _ _ _ => decide (q < 4096) && decide (qst < 6) && decide (sq < 2 ^ 32) && decide (cq < 2 ^ 32) && decide (head < 2 ^ 32) && decide (pr < 256) && decide (pc < 2 ^ 20) && decide (epoch < 2 ^ 16)
  | .phval ph _ => decide (ph < 2 ^ 21)
  | .fkval c _ => decide (c < 4096)
  | .line addr data _ => decide (addr < 2 ^ 29) && decide (data.length ≤ 512)
  | .parcel p n _ ed _ addr len _ => decide (p < 64) && decide (n < 4096) && decide (ed < 2 ^ 32) && decide (addr < 2 ^ 56) && decide (len < 2 ^ 20)
  | .sealreg rg base size mode => decide (rg < 64) && decide (base < 2 ^ 29) && decide (size < 2 ^ 29 + 1) && decide (mode < 2 ^ 64)
  | .hinge q sq ord hst _ tq pcount => decide (q < 4096) && decide (sq < 2 ^ 32) && decide (ord < 2 ^ 20) && decide (hst < 256) && decide (tq < 4097) && decide (pcount < 2 ^ 32)
  | .decision _ _ _ _ => true
  | .hostwr q _ head => decide (q < 4096) && decide (head < 2 ^ 32)
  | .retire q sq ord => decide (q < 4096) && decide (sq < 2 ^ 32) && decide (ord < 2 ^ 20)
  | .digest q sq ord _ => decide (q < 4096) && decide (sq < 2 ^ 32) && decide (ord < 2 ^ 20)
  | .heartbeatLoss => true
  | .digestWaitExpiry q sq ord => decide (q < 4096) && decide (sq < 2 ^ 32) && decide (ord < 2 ^ 20)
  | .tiebreakRise => true
  | .tiebreakFall => true
  | .faultRaised => true
  | .faultRingWriteError _ => true
  | .latchAcknowledge grp cls => decide (grp < 64) && decide (cls < 3)
  | .autoackExpiry grp => decide (grp < 16)
  | .faultRingHeadWrite r head => decide (r < 65) && decide (head < 2 ^ 32)
  | .holdBudgetExpiry _ => true
  | .faultRingDeadWrite r => decide (r < 65)
  | .fatalHalt => true
  | .lanternPeriod => true
  | .healthEcho => true
  | .fltInjArm value => decide (value < 2 ^ 64)
  | .powerActive => true
  | .powerIdle => true
  | .nap => true
  | .dormant => true
  | .wake src => decide (src < 16)
  | .wakeTimer => true
  | .lwake l => decide (l < b.links + 1)
  | .pwake => true
  | .islandGate i => decide (i < b.islands)
  | .domainAck d => decide (d < b.domains)
  | .domainTimeout d => decide (d < b.domains)
  | .domainRetry d => decide (d < b.domains)
  | .pwrDomFailedWrite d => decide (d < b.domains)
  | .governorInterval => true
  | .forecastPublication => true
  | .thermalModelStep => true
  | .sensorSample n temp => decide (n < 64) && decide (temp < 2 ^ 16)
  | .externalSample n temp => decide (n < 16) && decide (temp < 2 ^ 16)
  | .externalSensorTimeout n => decide (n < 16)
  | .supplyLowRise => true
  | .supplyLowFall => true
  | .pceilChange ceil slew => decide (ceil < 2 ^ 32) && decide (slew < 2 ^ 32)
  | .fallbackRampStep => true
  | .fwVaultDataAccess _ _ => true
  | .vaultZeroed => true
  | .go value => decide (value < 2 ^ 64)
  | .verificationDone => true
  | .coreWatchdogExpiry k => decide (k < 6)
  | .coreCrash k cause => decide (k < 6) && decide (cause < 16)
  | .lockstep => true
  | .coreReloadComplete k => decide (k < 6)
  | .stage => true
  | .updateCancel => true
  | .quietPoint => true
  | .postmark core level point _ _ => decide (core < 6) && decide (level < 4) && decide (point < 2 ^ 16)
  | .partitionEnable p => decide (p < 64)
  | .partitionDisableDrain p => decide (p < 64)
  | .partitionDisableAbort p => decide (p < 64)
  | .disableStepEnd p => decide (p < 64)
  | .drainlimExpiry p => decide (p < 64)
  | .mailboxSend p => decide (p < 64)
  | .mailboxCheck p => decide (p < 64)
  | .reply p => decide (p < 64)
  | .ack p => decide (p < 64)
  | .cmtArm value => decide (value < 2 ^ 64)
  | .cmtCommit value => decide (value < 2 ^ 64)
  | .kAck _ _ => true
  | .laneRepair l rep => decide (l < b.links) && decide (rep < 256)
  | .obsPlcTimeRead k => decide (k < 65)
  | .obsPwCtlWrite p value => decide (p < 64) && decide (value < 2 ^ 64)
  | .traceSample => true
  | .letterbookRecord => true
  | .letterbookHeadWrite head => decide (head < 2 ^ 32)
  | .replayGo => true
  | .replayStop => true
  | .replayWaitExpiry q => decide (q < 4096)
  | .poresetN => true
  | .wresetN => true
  | .safeResetN => true
  | .resetRelease => true
  | .trstN => true
  | .hPortRequest off _ len strb data => decide (off < 2 ^ 25) && decide (len < 129) && decide (strb < 2 ^ 128) && decide (data.length ≤ 512)
  | .mPortReadData _ _ data => decide (data.length ≤ 512)
  | .mPortWriteResponse _ _ => true
  | .galleryRequest k utag _ addr _ mask _ _ _ data => decide (k < b.eports) && decide (utag < 2 ^ 16) && decide (addr < 2 ^ 56) && decide (mask < 2 ^ 16) && decide (data.length ≤ 512)
  | .caps k _ => decide (k < b.eports)
  | .ready k => decide (k < b.eports)
  | .registerWrite off value => decide (off < 2 ^ 25) && decide (value < 2 ^ 64)
  | .fabricTimeAdvance => true
  | .echoLinkUp _ edition _ _ _ => decide (edition < 2 ^ 32)
  | .levelGrant i => decide (i < b.islands)
  | .mPortErrorItem port addr => decide (port < 8) && decide (addr < 2 ^ 56)
  | .busErrorAddrWaitExpiry _ => true
  | .tapAccess ir inst off _ _ => decide (ir < 2 ^ 8) && decide (inst < 6) && decide (off < 2 ^ 24)
  | .removalOfPower => true

end Sys2Proof
end

