-- ==== Sys2Proof/Safety.lean ====
section
/-! DEFINITION. What counts as a safe state, and the conditions under which the porter, the control island and a partition's window take a command, in the terms the statements use. -/

namespace Sys2Proof.Machine

/-- The invariant of the model: the build is a permitted one (spec/00 R6) and every waiting command has its operands in their ranges. -/
abbrev State.Inv (s : State) : Prop := s.b.Permitted ∧ ∀ c ∈ s.pending, c.wf s.b = true

/-- The porter hands a register write on to its register: no reset is asserted, the block is not asleep and the control island runs (spec/18 R472, R494, spec/14 R382). -/
abbrev HostReady (s : State) : Prop := s.rst = 0 ∧ s.f F.PWR_STATE_STATE ≤ 1 ∧ 2 ≤ s.f F.INT_STARTUP_STEP

/-- The porter hands a register write on, and a register that starts work may do so: the control island has power and the fabric has not halted (spec/13 R366). -/
abbrev WorkReady (s : State) : Prop := HostReady s ∧ hostOk s = true

/-- The state after a register write has been answered with OKAY (spec/18 R477). -/
abbrev State.ok (s : State) : State := s.emit (.hRsp true .okay [])

/-- A partition's window takes every write: the partition is ENABLED (spec/16 R431). -/
abbrev Enabled (s : State) (p : Nat) : Prop := p < 64 ∧ s.f F.PRT_STAT_STATE p = 1

/-- The ready command of queue `q` is `b` and it starts: `t` is the state right after its start, `c` the started command (spec/03 R63, R71). Identifiers of commands are not used twice, and it has no done mark of a takeover (spec/12 R342). -/
abbrev Starts (s : State) (q : Nat) (b : Body) (t : State) (c : Cmd) : Prop :=
  ∃ h, ready s.clear q = some (h, b) ∧ mayStart s.clear q h b = true ∧ startOk s.clear q b = true ∧
    s.cmd? s.nid = none ∧ startCmd s.clear q h b = (t, c.id) ∧ t.cmd? c.id = some c ∧ c.q = q ∧ c.body = b ∧ markOf t c = none

/-- The answer with a tag is the last one that access `o` waits for: it is translated whole and every other part of it has been answered without an error (spec/10 R269, spec/18 R481); its completion does not wait in a full completion buffer (spec/15 R417). -/
abbrev LastAnswer (s : State) (tag : Nat) (wr : Bool) (r : MReq) (o : Op) : Prop :=
  mreqOf s tag wr = some r ∧ s.op? r.op = some o ∧ o.walk = none ∧ o.fail = none ∧ o.len ≤ o.cur ∧ (o.parts.any fun p => p.tag == tag) = true ∧
    (∀ p ∈ o.parts, p.tag ≠ tag → p.done = some .done) ∧ waitsToCross s o = false

/-- The bytes of a read answer as its request takes them: as many as it asked for. -/
def MReq.bytes (r : MReq) (data : List Byte) : List Byte := data.take r.len ++ List.replicate (r.len - data.length) 0

/-- The access with the part of a tag answered, the bytes of a read at their place. -/
def Op.given (o : Op) (tag : Nat) (bytes : List Byte) : Op :=
  { o with
    parts := o.parts.map fun x => if x.tag = tag then { x with done := some .done } else x
    data := match o.parts.find? (·.tag == tag) with
      | some p => if o.wr then o.data else splice o.data p.off (bytes.take p.len)
      | none => o.data }

/-- The state in which access `o` has had its last answer and is over; requests that waited behind it leave. -/
def State.over (s : State) (tag : Nat) (o : Op) : State :=
  let t := mDrop (s.setOp o) tag
  { t with ops := t.ops.filter (·.id != o.id) }

/-- Station `n` is live and its sequencer, once every instruction that finds room has been dispatched, which gives `v`, stands at the instruction `w` of opcode `op`, one of its own (spec/09 R247, R248, R251). -/
abbrev AtSeq (s : State) (n op : Nat) (v : State) (w : W64) : Prop := n < 64 ∧ v = dispatch s.clear n ∧ stnIns v n = some w ∧ fieldOf w 63 58 = op

/-- The sequencer's instruction of station `n` has been executed with the result `u`: the program counter moves on, instructions are dispatched and the streams go on (spec/09 R247, R248). -/
def State.seqDone (u : State) (n : Nat) : State := stnGo (setPc u n ((u.stn n).pc + 1) (u.stn n).loops) n

/-- An instruction of a unit that its feeders, or a full emitter queue, hold back, or EWAIT before an earlier emitter stream has ended (spec/09 R246, R249, R252). -/
def insStalls (t : Stn) (w : W64) : Bool :=
  let f := iFmt w
  let need (l : List (Nat × Nat)) : Bool := !canPop t l
  match fieldOf w 63 58 with
  | 0x09 => need [(iA w, if iMod w % 2 = 1 then 64 * (iMod w / 2) else lane256 f)]
  | 0x0D | 0x34 => t.push != []
  | 0x0E => t.se != []
  | 0x12 => w.toNat.testBit 54 && t.push != []
  | 0x18 | 0x19 | 0x1A | 0x1C | 0x1D | 0x1E => need [(iA w, lane256 f), (iB w, lane256 f)]
  | 0x1B => need [(iA w, lane256 f), (iB w, lane256 f), (iC w, lane256 f)]
  | 0x1F => need [(iA w, lane256 0), (iB w, lane256 0), (iC w, lane256 0)]
  | 0x20 | 0x21 | 0x22 => need [(iA w, lane256 0), (iB w, lane256 0)]
  | 0x23 | 0x24 => need [(iA w, lane256 0)]
  | 0x25 => need [(iA w, if 16 ≤ iMod w then lane256 0 else lane256 f)]
  | 0x26 | 0x27 | 0x31 => need [(iA w, lane256 f)]
  | 0x35 => need [(iA w, 40 * (iC w + 1))]
  | _ => false

/-- No instruction of opcode `op` between the queues' instructions `pre` can be executed: each waits for an earlier one, or stalls (spec/09 R247 to R249). -/
abbrev NoneGoes (t : Stn) (op : Nat) (pre : List QIns) : Prop :=
  ∀ (a : List QIns) (x : QIns) (b : List QIns), pre = a ++ x :: b → fieldOf x.w 63 58 = op → a.all (freeOf x) = false ∨ insStalls t x.w = true

/-- Station `n` is live and, once every instruction that finds room has been dispatched, which gives `v`, the units' queues hold `pre`, then `q` of opcode `op`, then `r`, where `q` waits for none of `pre` and none of that opcode in `pre` can be executed (spec/09 R247, R248). -/
abbrev AtIns (s : State) (n op : Nat) (v : State) (pre r : List QIns) (q : QIns) : Prop :=
  n < 64 ∧ v = dispatch s.clear n ∧ stnLive v n = true ∧ (v.stn n).dq = pre ++ q :: r ∧ fieldOf q.w 63 58 = op ∧ pre.all (freeOf q) = true ∧ NoneGoes (v.stn n) op pre

/-- The instruction between `pre` and `r` of the queues of station `n` has been executed with the result `u`: it leaves its queue, instructions are dispatched and the streams go on (spec/09 R247). -/
def State.insDone (u : State) (n : Nat) (pre r : List QIns) : State := stnGo (u.setStn n { u.stn n with dq := pre ++ r }) n

/-- `u` differs from `v` at station `n` in what the vector unit may write alone: its lane registers, its passage flags and the bytes of its feeders; no other station, register of the station, tile, accumulator, byte of its store or of its emitter, no byte of the gallery, no queue and no command is changed (spec/09 R254). -/
abbrev LanesOnly (u v : State) (n : Nat) : Prop :=
  (u.stn n).tiles = (v.stn n).tiles ∧ (u.stn n).w = (v.stn n).w ∧ (u.stn n).store = (v.stn n).store ∧ (u.stn n).eq = (v.stn n).eq ∧ (u.stn n).push = (v.stn n).push ∧
    (∀ k, k < 16 → xreg u n k = xreg v n k) ∧ (∀ m, m ≠ n → u.stn m = v.stn m) ∧ u.gal = v.gal ∧ u.qs = v.qs ∧ u.cmds = v.cmds

/-- The passage flags of station `n` in `u` are those in `v` joined with `fl` (spec/08 R234). -/
abbrev FlagsJoin (u v : State) (n fl : Nat) : Prop :=
  u.f F.STN_PFLAGS_FLAGS n = (if fl = 0 then v.f F.STN_PFLAGS_FLAGS n else (v.f F.STN_PFLAGS_FLAGS n ||| fl) % 2 ^ F.STN_PFLAGS_FLAGS.w)

/-- Row `i` executes an instruction, between `pre` and `r` of the queues, that writes every lane of register `d` of station `n` with the lanes of `g` and joins their flags, after the pops that lead from `v` to `p`, and changes nothing else (spec/09 R246, R254). -/
abbrev LanesGo (s : State) (i : Sys2Proof.Instr) (n d : Nat) (v p : State) (pre r : List QIns) (g : Nat → Nat × Nat) : Prop :=
  ∃ u : State, exec i s = .next (s.close (u.insDone n pre r)) ∧ (u.stn n).lane d = ofLanes ((List.range 256).map fun k => (g k).1) ∧
    (∀ k, k ≠ d → (u.stn n).lane k = (v.stn n).lane k) ∧ FlagsJoin u v n (joinFlags ((List.range 256).map g)).2 ∧
    (u.stn n).f0 = (p.stn n).f0 ∧ (u.stn n).f1 = (p.stn n).f1 ∧ LanesOnly u v n

/-- Nothing goes on of itself: no access, request, message, command, unit, station, collective or fault record is under way, every queue is empty, no timetable phase, replay run, update, start-up or power sequence runs, and there is no echo pair. -/
abbrev AtRest (s : State) : Prop :=
  s.ops = [] ∧ s.mreqs = [] ∧ s.ltx = [] ∧ s.lret = [] ∧ s.cyc = [] ∧ s.qs = [] ∧ s.cmds = [] ∧ s.units = [] ∧ s.stns = [] ∧ s.colls = [] ∧ s.sch.bal = [] ∧ s.lsigs = [] ∧ s.flt.recs = [] ∧ s.stall = [] ∧ s.ech.mine = [] ∧
    s.b.echo = false ∧ s.f F.SCH_TTSTAT_PHASE ≠ 1 ∧ s.f F.OBS_RP_STAT_STATE ≠ 1 ∧ s.setIdx F.GAL_CPWR_STAT_HELD = [] ∧ busyIslands s = [] ∧
    s.f F.PWR_STATE_STATE ≤ 3 ∧ s.f F.INT_STARTUP_STEP ≠ 1 ∧ s.f F.FW_UPDATE_STATE ≠ 2 ∧ s.f F.FW_UPDATE_STATE ≠ 3

/-- The row of the opcode table that starts a command of queue `q` with a body (spec/03 R66). -/
def Body.row (q : Nat) : Body → Sys2Proof.Instr
  | .nop _ => .nop q
  | .jump _ => .jump q
  | .branch .. => .branch q
  | .loop .. => .loop q
  | .callp _ => .callp q
  | .ret => .ret q
  | .movi .. => .movi q
  | .movil .. => .movi q
  | .alu .add .. => .add q
  | .alu .sub .. => .sub q
  | .alu .and .. => .and q
  | .alu .or .. => .or q
  | .alu .xor .. => .xor q
  | .alu .shl .. => .shl q
  | .alu (.shr _) .. => .shr q
  | .cmp .. => .cmp q
  | .ld .. => .ld q
  | .st .. => .st q
  | .waitge .. => .waitge q
  | .signal .. => .signal q
  | .memsignal .. => .memsignal q
  | .barrier => .barrier q
  | .launch .. => .launch q
  | .dispatch .. => .dispatch q
  | .tilepass .. => .tilepass q
  | .copy .. => .copy q
  | .fill .. => .fill q
  | .dma .. => .dma q
  | .seal .. => .seal q
  | .unseal _ => .unseal q
  | .frank .. => .frank q
  | .passage .. => .passage q
  | .pstop _ => .pstop q
  | .enqueue .. => .enqueue q
  | .collect .. => .collect q
  | .stamp _ => .stamp q
  | .stampm _ => .stamp q
  | .snap .. => .snap q
  | .pdef .. => .pdef q
  | .ppatch .. => .ppatch q
  | .pfree _ => .pfree q
  | .xinval .. => .xinval q
  | .phreset .. => .phreset q

end Sys2Proof.Machine
end

