-- ==== Sys2Proof/Certificates/Slice0/Obligations.lean ====
section
/-! DEFINITION. The statements for the provers. A command's own effect is stated as the state `e` of `s.close e`: what follows from the state alone (`settle`) has happened to it too; `s.clear` is `s` without the outputs of the step before. -/

open Sys2Proof Sys2Proof.Machine

/-- A step runs the command at the front of the queue; on an empty queue the block idles (a choice of the model, log 1). For every state and command: a step of a state with that command at the front of its queue is the command's effect on the state with the rest of the queue, and a step of a state whose queue is empty answers the state unchanged, which is a choice of the model (log 1). (spec/01 R24) -/
def Obligations.StepRunsTheFrontCommand : Prop :=
  ∀ (s : State) (c : Sys2Proof.Instr) (l : List Sys2Proof.Instr),
    (s.pending = c :: l → Sys2Proof.Machine.step s = Sys2Proof.Machine.exec c { s with pending := l }) ∧
    (s.pending = [] → Sys2Proof.Machine.step s = .next s)

/-- The reset state meets the invariant: a permitted build, no command waiting; it is at rest but for its domains, with every queue DISABLED. The state right after reset has a permitted build and no waiting command; fabric time is 0, every queue is DISABLED, every partition is DISABLED, no memory byte of the gallery is set, the start-up sequence stands at step 1 until the control island runs, and nothing is out but the requests of the domains. (spec/18 R470, spec/18 R471, spec/18 R494, spec/00 R6) -/
def Obligations.ResetStateIsPermitted : Prop :=
  State.Inv State.reset ∧ State.reset.pending = [] ∧ State.reset.time = 0 ∧ (∀ q, (State.reset.q q).st = .disabled) ∧ (∀ p, p < 64 → State.reset.f F.PRT_STAT_STATE p = 0) ∧
    State.reset.gal.cells = [] ∧ State.reset.rst = 0 ∧ State.reset.ops = [] ∧ State.reset.cmds = [] ∧ State.reset.units = [] ∧ State.reset.mreqs = [] ∧
    State.reset.f F.INT_STARTUP_STEP = 1 ∧ State.reset.f F.PWR_STATE_STATE = 0 ∧ State.reset.f F.FLT_FATAL_VALID = 0

/-- Every step keeps the build a permitted one and every waiting command well-formed, and never stops. For every state that meets the invariant: a step answers a next state, whatever command is at the front of the queue, that state meets the invariant too, its build is the same, and its queue is what was left behind the command that ran. (spec/00 R6, spec/18 R471, spec/18 R472) -/
def Obligations.InvIsKeptByEveryStep : Prop :=
  ∀ s : State, s.Inv → ∃ t, Sys2Proof.Machine.step s = .next t ∧ t.Inv ∧ t.b = s.b ∧ t.pending = s.pending.tail

/-- The words of a program's commands: decode of encode is the command, and encode of decode gives the words back. For every header and every body whose fields are in their ranges, of each of the commands of the set: the decoder of revision 4 reads from the encoded words exactly that header and that body; and whatever it reads from a list of words has its fields in their ranges and encodes to those very words, so that every reserved bit is 0 and no two commands share a word. (spec/03 R66, spec/03 R67, spec/03 R70, spec/03 R73, spec/03 R75, spec/03 R76, spec/03 R77, spec/03 R78, spec/03 R79, spec/03 R88, spec/03 R95, spec/03 R99) -/
def Obligations.DecodingIsExact : Prop :=
  (∀ (h : Hdr) (b : Body), h.wf = true → b.wf = true → decodeWords false (encodeCmd h b) = some (h, b)) ∧
  (∀ (ws : List W64) (h : Hdr) (b : Body), decodeWords false ws = some (h, b) → h.wf = true ∧ b.wf = true ∧ encodeCmd h b = ws)

/-- In a state at rest nothing follows a command's own effect, so that its frame is that effect's. For every state at rest, and every state in a reset: the moves that follow from the state alone change nothing, so that a command whose own effect ends in such a state gives exactly that effect; TRST_N there changes the TAP alone and clears the outputs of the step before, and every register, every byte of memory and every queue is as before. (spec/01 R22, spec/18 R472, spec/18 R491) -/
def Obligations.NothingFollowsAtRest : Prop :=
  (∀ s : State, AtRest s ∨ s.rst ≠ 0 → settle s = s) ∧
  (∀ (s : State) (f : State → State), AtRest (f s.clear) ∨ (f s.clear).rst ≠ 0 → s.run f = { f s.clear with b := s.b, pending := s.pending }) ∧
  (∀ s : State, AtRest s ∨ s.rst ≠ 0 → Sys2Proof.Machine.exec .trstN s = .next { s with out := [], tap := ([], 0) })

/-- A doorbell write rings the queue of its slot, is latched while the block wakes, or is counted as stray. For every state in which the porter hands writes on and no fatal halt has begun, and every location of a doorbell page: with the sorter cores up, a ring of an assigned slot sets the pending bit of its queue, an IDLE queue becomes ACTIVE, and no other queue, no command, no pigeonhole and no byte of the gallery changes; a ring of a DISABLED or DRAINING queue, of a slot of no queue, of a location above 0xF00, or of a partition that is being disabled counts in QE_DB_STRAY and changes no queue; location 0xF00 has the partition's watches read again; before the sorter cores are up the ring is latched, once. Rings that a replay run with INPUTS makes itself are left to it. (spec/02 R43, spec/02 R44, spec/02 R46, spec/01 R33, spec/16 R435, spec/05 R150) -/
def Obligations.DoorbellsSetPendingBits : Prop :=
  ∀ (s : State) (p off q : Nat), HostReady s → p < 64 → off < 4096 → s.flt.halt = 0 →
    (ringsDelivered s = false →
      (s.latch.contains (p, off / 4 * 4) = true → Sys2Proof.Machine.exec (.doorbellWrite p off) s = .next (s.close s.clear.ok)) ∧
      (s.latch.contains (p, off / 4 * 4) = false →
        Sys2Proof.Machine.exec (.doorbellWrite p off) s = .next (s.close ({ s.clear with latch := s.latch ++ [(p, off / 4 * 4)] } : State).ok))) ∧
    (ringsDelivered s = true → s.f F.PRT_STAT_STATE p = 2 → Sys2Proof.Machine.exec (.doorbellWrite p off) s = .next (s.close (stray s.clear).ok)) ∧
    (ringsDelivered s = true → s.f F.PRT_STAT_STATE p ≠ 2 →
      (off / 4 = 960 → Sys2Proof.Machine.exec (.doorbellWrite p off) s = .next (s.close (Machine.fenceDoorbell s.clear p).ok)) ∧
      (960 < off / 4 ∨ (off / 4 < 960 ∧ queueOfSlot s p (off / 4) = none) → Sys2Proof.Machine.exec (.doorbellWrite p off) s = .next (s.close (stray s.clear).ok)) ∧
      (off / 4 < 960 → queueOfSlot s p (off / 4) = some q → inputsReplayed s q = false →
        ((s.q q).st = .disabled ∨ (s.q q).st = .draining → Sys2Proof.Machine.exec (.doorbellWrite p off) s = .next (s.close (stray s.clear).ok)) ∧
        ((s.q q).st ≠ .disabled → (s.q q).st ≠ .draining → ∃ e : State, Sys2Proof.Machine.exec (.doorbellWrite p off) s = .next (s.close e.ok) ∧
          (e.q q).pend = true ∧ (e.q q).st = (if (s.q q).st = .idle then .active else (s.q q).st) ∧ (∀ x, x ≠ q → e.q x = s.q x) ∧
          (e.q q).descs = (s.q q).descs ∧ (e.q q).g = (s.q q).g ∧ (e.q q).sq = (s.q q).sq ∧ e.cmds = s.cmds ∧ e.gal = s.gal ∧ e.ph = s.ph))) ∧
    (stray s).f F.QE_DB_STRAY_COUNT = (s.f F.QE_DB_STRAY_COUNT + 1) % 2 ^ F.QE_DB_STRAY_COUNT.w ∧ (stray s).qs = s.qs

/-- ENABLE, DISABLE_DRAIN, DISABLE_ABORT and RESUME by the state of the queue. For every state in which work may start, and a write of the queue's QE_QCTL in its view or its window that the letterbook notes: ENABLE of a DISABLED queue puts its counts and registers at 0 and clears its error cause, and then translates its rings, or refuses with cause CONFIG when a check of ENABLE fails; ENABLE of a queue in another state does nothing. A disable request moves an IDLE or ACTIVE queue, and a STOPPED_ERROR queue with its rings, to DRAINING, and at once to DISABLED in drain mode when nothing is outstanding, keeping its descriptors; RESUME makes a STOPPED_ERROR queue with its rings ACTIVE. For a queue whose rings are broken each of the three first translates the rings again, unless a disable request already waits for them. While the queue is FROZEN each is held; a disable request of a DISABLED or DRAINING queue, and RESUME of any queue that is neither STOPPED_ERROR nor FROZEN, do nothing. (spec/02 R52, spec/02 R55, spec/02 R56, spec/02 R57, spec/02 R59, spec/02 R60, spec/02 R61) -/
def Obligations.QueuesAreEnabledDrainedAndResumed : Prop :=
  ∀ (s : State) (q off : Nat), WorkReady s → q < 4096 → viewAt s.clear q 0x18 off = true → off < 0x1000000 ∨ Enabled s ((off - 0x1000000) / 0x10000) → inputsReplayed s q = false →
    let n (v : Nat) : State := hostWr s.clear (some q) off v
    ((s.q q).st = .disabled → ∃ e : State, e.q q = ({} : Queue) ∧ e.f F.QE_CQ_HEAD_HEAD q = 0 ∧ e.f F.QE_ENQ_PCOUNT q = 0 ∧
      (∀ x, x ≠ q → e.q x = s.q x) ∧
      (enableOk s q = true → e.f F.QE_ERR_INDEX_CAUSE q = 0 ∧ Sys2Proof.Machine.exec (.enable q off) s = .next (s.close (ringsXl e q 0).ok)) ∧
      (enableOk s q = false → e.f F.QE_ERR_INDEX_CAUSE q = 10 ∧ Sys2Proof.Machine.exec (.enable q off) s = .next (s.close e.ok))) ∧
    ((s.q q).st ≠ .disabled → Sys2Proof.Machine.exec (.enable q off) s = .next (s.close (n 1).ok)) ∧
    ((s.q q).st = .idle ∨ (s.q q).st = .active ∨ ((s.q q).st = .stoppedError ∧ ringBroken s q = false) →
      Sys2Proof.Machine.exec (.disableDrain q off) s = .next (s.close (startDisable (n 2) q false).ok) ∧
      Sys2Proof.Machine.exec (.disableAbort q off) s = .next (s.close (startDisable (n 3) q true).ok) ∧
      ((startDisable (n 2) q false).q q).st = (if (s.q q).descs = [] ∧ (s.q q).recs = [] ∧ (s.q q).recsOut = 0 then .disabled else .draining) ∧
      ((startDisable (n 2) q false).q q).scanning = false ∧ ((startDisable (n 2) q false).q q).descs = (s.q q).descs) ∧
    ((s.q q).st = .stoppedError → ringBroken s q = false →
      Sys2Proof.Machine.exec (.resume q off) s = .next (s.close (queueSettle ((n 4).setQ q { s.q q with st := .active }) q).ok)) ∧
    (ringBroken s q = true → (s.q q).ringReq ≠ 3 → (s.q q).ringReq ≠ 4 → Sys2Proof.Machine.exec (.resume q off) s = .next (s.close (ringsXl (n 4) q 4).ok) ∧
      Sys2Proof.Machine.exec (.disableDrain q off) s = .next (s.close (ringsXl (n 2) q 2).ok) ∧
      Sys2Proof.Machine.exec (.disableAbort q off) s = .next (s.close (ringsXl (n 3) q 3).ok)) ∧
    (ringBroken s q = true → (s.q q).ringReq = 3 ∨ (s.q q).ringReq = 4 → Sys2Proof.Machine.exec (.resume q off) s = .next (s.close (n 4).ok) ∧
      Sys2Proof.Machine.exec (.disableDrain q off) s = .next (s.close (n 2).ok) ∧ Sys2Proof.Machine.exec (.disableAbort q off) s = .next (s.close (n 3).ok)) ∧
    ((s.q q).st = .frozen → Sys2Proof.Machine.exec (.disableDrain q off) s = .next (s.close ((n 2).setQ q { s.q q with held := some 2 }).ok) ∧
      Sys2Proof.Machine.exec (.disableAbort q off) s = .next (s.close ((n 3).setQ q { s.q q with held := some 3 }).ok) ∧
      Sys2Proof.Machine.exec (.resume q off) s = .next (s.close ((n 4).setQ q { s.q q with held := some 4 }).ok)) ∧
    ((s.q q).st = .disabled ∨ (s.q q).st = .draining → Sys2Proof.Machine.exec (.disableDrain q off) s = .next (s.close (n 2).ok) ∧
      Sys2Proof.Machine.exec (.disableAbort q off) s = .next (s.close (n 3).ok)) ∧
    ((s.q q).st ≠ .stoppedError → (s.q q).st ≠ .frozen → Sys2Proof.Machine.exec (.resume q off) s = .next (s.close (n 4).ok))

/-- A batch read is issued, its answer is examined descriptor by descriptor, and the driver's head count lets a waiting examination go on. For every state: the next queue in round-robin order that wants a batch, which is ACTIVE with its descriptor ring translated, pending or scanning, with room for a descriptor, gets a read at its scan count of as many descriptors as the group of four and its DEPTH allow; the pending bit clears when this begins a scan. The last answer of that read, while the queue is ACTIVE, has its descriptors examined from the first. The examination ends at a descriptor that the queue does not own; it waits at an owned one while no completion entry is free; an owned one that fails a check is taken as malformed; an owned SKIP descriptor is taken, at the next count, and has ended; an owned RUN descriptor has its command buffer translated, and is taken when that translation is done. A write of QE_CQ_HEAD stores the count and lets the examination go on, and with no descriptor left to examine changes nothing else of a queue. (spec/02 R41, spec/02 R42, spec/02 R47, spec/02 R50, spec/02 R53, spec/02 R55) -/
def Obligations.BatchesAreReadAndScanned : Prop :=
  ∀ (s : State) (q tag head off k cause : Nat) (r : MReq) (o : Op) (data : List Byte) (w : List W64) (rest : List (List W64)),
    (nextBatch s = none → Sys2Proof.Machine.exec .batchReadIssue s = .next (s.close s.clear)) ∧
    (nextBatch s = some q → (s.q q).st = .active ∧ (s.q q).sqOk = true ∧ ((s.q q).pend = true ∨ (s.q q).scanning = true) ∧ heldCount s q < s.f F.QE_QCFG_DEPTH q ∧
      ∃ e : State, Sys2Proof.Machine.exec .batchReadIssue s = .next (s.close (e.startOp (mkOp (.batch q) (s.qIdent q) 112 (.spans (s.q q).sqRing)
          (64 * ((s.q q).sq.toNat % 2 ^ s.sqLog q)) (64 * min (4 - (s.q q).sq.toNat % 4) (s.f F.QE_QCFG_DEPTH q - heldCount s q)) false []))) ∧
        e.q q = { s.q q with pend := (s.q q).scanning && (s.q q).pend, scanning := true, batchOut := true, scanFirst := (s.q q).sq } ∧ (∀ x, x ≠ q → e.q x = s.q x) ∧
        e.rr = q) ∧
    (LastAnswer s tag false r o → o.pur = .batch q → (s.q q).st = .active →
      let e := s.clear.over tag (o.given tag (r.bytes data))
      Sys2Proof.Machine.exec (.scan tag .okay data) s = .next (s.close (scanGo 8 (e.setQ q { s.q q with
        batchOut := false, scanWords := (List.range (o.len / 64)).map fun i => wordsOf 8 ((o.given tag (r.bytes data)).data.drop (64 * i)) }) q))) ∧
    ((s.q q).st = .active → (s.q q).scanXl = false → (s.q q).scanning = true → scanLimit s q = some (4, none) → (s.q q).scanWords = w :: rest →
      ((s.q q).sq - (s.q q).scanFirst).toNat < 4 →
      ((w.getD 0 0).toNat.testBit 63 ≠ phaseOf (s.sqLog q) (s.q q).sq → scanGo (k + 1) s q = batchEnd s q true) ∧
      ((w.getD 0 0).toNat.testBit 63 = phaseOf (s.sqLog q) (s.q q).sq →
        (cqFree s q = false → scanGo (k + 1) s q = s) ∧
        (cqFree s q = true → scanCheck s q w = some cause → scanGo (k + 1) s q = takeMalformed s q w cause none) ∧
        (cqFree s q = true → scanCheck s q w = none → fieldOf (w.getD 0 0) 59 56 = 2 →
          let d := takenDesc s q w 0 [] [] 2 none
          let e := takeDesc s q d
          (e.q q).descs = (s.q q).descs ++ [d] ∧ (e.q q).sq = (s.q q).sq + 1 ∧ d.st = 2 ∧ d.count = (s.q q).sq.toNat ∧
          scanGo (k + 1) s q = (if rest = [] then batchEnd (pushEnds (e.q q).descs.length e q) q false else scanGo k (pushEnds (e.q q).descs.length e q) q)) ∧
        (cqFree s q = true → scanCheck s q w = none → fieldOf (w.getD 0 0) 59 56 = 1 → scanGo (k + 1) s q = scanXlStart s q w false))) ∧
    ((s.q q).scanXl = true → (s.q q).scanWords = w :: rest → o.xfail = none → (w.getD 0 0).toNat.testBit 50 = false → rest ≠ [] →
      let d := takenDesc s q w o.epoch o.spans [] 0 none
      scanXlDone s q false o = scanGo 8 (takeDesc s q d) q ∧ ((takeDesc s q d).q q).descs = (s.q q).descs ++ [d] ∧ ((takeDesc s q d).q q).sq = (s.q q).sq + 1) ∧
    (HostReady s → s.ctlOn = true → q < 4096 → viewAt s.clear q 0x30 off = true → off < 0x1000000 ∨ Enabled s ((off - 0x1000000) / 0x10000) → inputsReplayed s q = false →
      s.mirrored q = false →
      ∃ e : State, Sys2Proof.Machine.exec (.qeCqHeadWrite q off head) s = .next (s.close (scanGo 8 e q).ok) ∧
        e.f F.QE_CQ_HEAD_HEAD q = head % 2 ^ 32 ∧ e.q q = { s.q q with head := BitVec.ofNat 32 head } ∧ (∀ x, x ≠ q → e.q x = s.q x) ∧ e.cmds = s.cmds ∧ e.ops = s.ops ∧
        ((s.q q).scanning = false → scanGo 8 e q = e))

/-- The start of a descriptor, and the write response of a completion record. For every state: a queue that has no descriptor to start starts none. A descriptor starts only when no other of its queue runs and, with FENCE, no command of the queue is left; its program begins at word 0. One whose translation is marked stale or of another epoch is translated again first; one with an argument block has that block read first; another begins at once, with words 4 to 6 in G1 to G3 and every other register as it was. The last answer of a record's write frees the outstanding record, removes the descriptor at an end record and no other, raises the partition's interrupt when the record asks for it and no fatal halt has passed step 6, and changes no other queue. (spec/02 R39, spec/02 R48, spec/02 R51, spec/04 R108, spec/01 R28, spec/10 R283) -/
def Obligations.DescriptorsStartAndRecordsAreWritten : Prop :=
  ∀ (s : State) (q tag sq : Nat) (d : Desc) (r : MReq) (o : Op) (irq isEnd : Bool),
    (startable s q = none → Sys2Proof.Machine.exec (.descriptorStart q) s = .next (s.close s.clear)) ∧
    (startable s q = some d → (s.cmds.any (·.q == q) = true → descFence d = false) ∧ curDesc s q = none ∧
      ∃ e : State, (e.q q).pc = 0 ∧ (e.q q).loc = none ∧ (e.q q).stack = [] ∧ (e.q q).g = (s.q q).g ∧ (e.q q).p = (s.q q).p ∧ (∀ x, x ≠ q → e.q x = s.q x) ∧
        (descFresh s q d = false → Sys2Proof.Machine.exec (.descriptorStart q) s = .next (s.close (startXl e q d false))) ∧
        (descFresh s q d = true → descArgv d = true → ∃ a : Op, a.pur = .argBlock q ∧ a.len = 128 ∧ a.wr = false ∧
          Sys2Proof.Machine.exec (.descriptorStart q) s = .next (s.close ((e.setQ q { e.q q with blk := .starting }).startOp a))) ∧
        (descFresh s q d = true → descArgv d = false → (s.q q).resumeAt = none →
          ∃ e', Sys2Proof.Machine.exec (.descriptorStart q) s = .next (s.close (advance e' q)) ∧ (e'.q q).blk = .ready ∧ (e'.q q).pc = 0 ∧
            e'.greg q 1 = d.words.getD 4 0 ∧ e'.greg q 2 = d.words.getD 5 0 ∧ e'.greg q 3 = d.words.getD 6 0 ∧ (∀ g, g ≠ 1 → g ≠ 2 → g ≠ 3 → e'.greg q g = s.greg q g))) ∧
    (LastAnswer s tag true r o → o.pur = .record q irq isEnd sq →
      ∃ e, Sys2Proof.Machine.exec (.recordWriteResponse tag .okay) s = .next (s.close (watchesHit (queueSettle e q) r.pa r.len)) ∧ (e.q q).recsOut = (s.q q).recsOut - 1 ∧
        (e.q q).descs = (if isEnd then (s.q q).descs.filter (fun d => !(d.count == sq && d.st == 3)) else (s.q q).descs) ∧
        (irq = true → s.flt.halt < 6 → .intreq (s.qPart q) ∈ e.out) ∧ (∀ x, x ≠ q → e.q x = s.q x) ∧ e.cmds = s.cmds ∧ e.gal = s.gal)

/-- ENQUEUE at steps 3 to 6, the claim of a parcel, the publication of an edition, and the pin of a CALLP. For every state: an ENQUEUE that waits at step 3 is tried again: with its target DISABLED or DRAINING the image is lost, counted, and the ENQUEUE is done; without space or translation it waits on; with space, and as the first that arrived, it takes the next count and writes its image, where no replay or partner decides. The last answer of the image's write sets the target's pending bit, but for one that is DRAINING and may end with it, and the ENQUEUE is done. A free claim goes to the command that has waited longest, which goes on; a claim that is held, or that none waits for, does not move. A claimant that is not ready publishes nothing; PFREE's publication ends the definition; PDEF's makes its edition the newest; PPATCH's does too and writes the edition to GD; each frees the claim and ends its command. CALLP's pin, in its own program, takes the newest edition and goes on at its word 0, with the way back on the call stack; where no CALLP asks for a pin nothing happens. (spec/04 R119, spec/04 R120, spec/04 R123, spec/04 R124, spec/04 R125, spec/04 R126) -/
def Obligations.EnqueuesAndParcelsWaitTheirTurn : Prop :=
  ∀ (s : State) (q p n id tag t ed : Nat) (c : Cmd) (r : MReq) (o : Op) (l : List Nat) (a : W64) (e : Edition),
    (s.cmds.find? (enqWaits q) = none → Sys2Proof.Machine.exec (.enqueueSpaceAvailable q) s = .next (s.close s.clear)) ∧
    (s.cmds.find? (enqWaits q) = some c → s.cmd? c.id = some c → c.body = .enqueue t a → s.f F.PRT_STAT_STATE (s.qPart t) ≠ 2 →
      ((s.q t).st = .disabled ∨ (s.q t).st = .draining → Sys2Proof.Machine.exec (.enqueueSpaceAvailable q) s
        = .next (s.close (endCmd (s.clear.setF F.QE_ENQ_LOST t (s.f F.QE_ENQ_LOST t + 1)) c.id .done))) ∧
      ((s.q t).st ≠ .disabled → (s.q t).st ≠ .draining → enqRoom s t = false →
        Sys2Proof.Machine.exec (.enqueueSpaceAvailable q) s = .next (s.close (enqWait s.clear c c.buf))) ∧
      ((s.q t).st ≠ .disabled → (s.q t).st ≠ .draining → enqRoom s t = true → s.verdict (s.qPart c.q) (some c.q) (.target t) = .free → enqFirst s c t = true →
        Sys2Proof.Machine.exec (.enqueueSpaceAvailable q) s = .next (s.close (enqPut s.clear c t c.buf)))) ∧
    (LastAnswer s tag true r o → o.pur = .enqWrite id t →
      let e := ring (s.clear.over tag (o.given tag [])) t 1
      Sys2Proof.Machine.exec (.enqueueImageWriteResponse tag .okay) s = .next (s.close (watchesHit (endCmd e id .done) r.pa r.len)) ∧
        ((s.q t).st ≠ .draining → (e.q t).pend = true) ∧ (∀ x, x ≠ t → e.q x = s.q x)) ∧
    ((getParcel s p n).claim = none → (getParcel s p n).waiting = id :: l → Sys2Proof.Machine.exec (.parcelClaim p n) s
      = .next (s.close (parcelGo (setParcel s.clear { getParcel s p n with claim := some id, waiting := l }) id))) ∧
    ((getParcel s p n).claim ≠ none ∨ (getParcel s p n).waiting = [] → Sys2Proof.Machine.exec (.parcelClaim p n) s = .next (s.close s.clear)) ∧
    ((getParcel s p n).claim = some id → s.cmd? id = some c → c.id = id → s.mirPart p = false →
      (c.aux ≠ 4 → Sys2Proof.Machine.exec (.publication p n) s = .next (s.close s.clear)) ∧
      (c.aux = 4 → c.body = .pfree n → ∃ x, Sys2Proof.Machine.exec (.publication p n) s = .next (s.close (endCmd x id .done)) ∧
        defined x p n = false ∧ (getParcel x p n).claim = none ∧ x.qs = s.qs ∧ x.cmds = s.cmds) ∧
      (c.aux = 4 → (∃ loc src len, c.body = .pdef loc n src len) → makingOf s id = some e → ∃ x, Sys2Proof.Machine.exec (.publication p n) s = .next (s.close (endCmd x id .done)) ∧
        (getParcel x p n).newest = some e.key.ed ∧ (getParcel x p n).gen = e.key.gen ∧ (getParcel x p n).claim = none ∧ x.qs = s.qs ∧ x.gal = s.gal) ∧
      (∀ gd off src cnt, c.aux = 4 → c.body = .ppatch gd off n src cnt → makingOf s id = some e → ∃ x, Sys2Proof.Machine.exec (.publication p n) s = .next (s.close (endCmd x id .done)) ∧
        (getParcel x p n).newest = some e.key.ed ∧ (getParcel x p n).gen = e.key.gen ∧ (getParcel x p n).claim = none ∧
        x.greg c.q gd = (if gd = 0 then 0 else BitVec.ofNat 64 e.key.ed) ∧ (∀ g, g ≠ gd → x.greg c.q g = s.greg c.q g) ∧ x.gal = s.gal)) ∧
    (s.cmds.find? (asksPin q) = none → Sys2Proof.Machine.exec (.editionPin q) s = .next (s.close s.clear)) ∧
    (s.cmds.find? (asksPin q) = some c → c.body = .callp n → (curDesc s q).map (·.count) = some c.sq → s.verdict (s.qPart q) (some q) (.queue q) = .free →
      (getParcel s (s.qPart q) n).newest = some ed →
      ∃ x, Sys2Proof.Machine.exec (.editionPin q) s = .next (s.close (endCmd x c.id .done)) ∧ (x.q q).pc = 0 ∧
        (x.q q).loc = some ⟨s.qPart q, n, (getParcel s (s.qPart q) n).gen, ed⟩ ∧ (x.q q).stack.tail = (s.q q).stack ∧ (x.q q).stack.head?.map (·.pc) = some (s.q q).pc ∧
        (x.q q).stack.head?.map (·.loc) = some (s.q q).loc ∧ (x.q q).g = (s.q q).g ∧ (∀ y, y ≠ q → x.q y = s.q y))

/-- MOVI: its fields, and the value that it writes to GD. A word whose opcode is that of MOVI, with bits b below bit 45, is a MOVI exactly when bits 44 to 37 are 0, and then GD is bits 36 to 32: with no further word its immediate is bits 31 to 0, with one further word those bits are 0 and the immediate is that word; nothing else is a MOVI. For every state in which a MOVI starts, its row writes GD with the immediate sign-extended to 64 bits, or with the word, and completes; G0 keeps 0. (spec/03 R75) -/
def Obligations.MoviWritesItsImmediate : Prop :=
  (∀ (r3 : Bool) (b : Nat) (ws : List W64) (body : Body), b < 2 ^ 45 → (decodeBody r3 0x10 b ws = some body ↔
    (∃ gd i, gd < 32 ∧ i < 2 ^ 32 ∧ b = gd * 2 ^ 32 + i ∧ ws = [] ∧ body = .movi gd i) ∨ (∃ gd v, gd < 32 ∧ b = gd * 2 ^ 32 ∧ ws = [v] ∧ body = .movil gd v))) ∧
  (∀ (s t : State) (q gd i : Nat) (v : W64) (c : Cmd),
    (Starts s q (.movi gd i) t c → ∃ e : State, Sys2Proof.Machine.exec (.movi q) s = .next (s.close (endCmd e c.id .done)) ∧
      e.greg q gd = (if gd = 0 then 0 else BitVec.signExtend 64 (BitVec.ofNat 32 i)) ∧ (∀ g, g ≠ gd → e.greg q g = s.greg q g)) ∧
    (Starts s q (.movil gd v) t c → ∃ e : State, Sys2Proof.Machine.exec (.movi q) s = .next (s.close (endCmd e c.id .done)) ∧
      e.greg q gd = (if gd = 0 then 0 else v) ∧ (∀ g, g ≠ gd → e.greg q g = s.greg q g)))

/-- BARRIER has no fields and completes when every command of its program before it has completed. A word with the opcode of BARRIER is a BARRIER exactly when bits 44 to 0 are 0 and no word follows. For every state in which a BARRIER starts, it completes with DONE when no command of its program with a lower ordinal is left, and waits otherwise; and when a command of its queue completes and a waiting BARRIER finds none before it left, that completion completes it with DONE as well. (spec/03 R82) -/
def Obligations.BarrierWaitsForEarlierCommands : Prop :=
  (∀ (r3 : Bool) (b : Nat) (ws : List W64) (body : Body), decodeBody r3 0x23 b ws = some body ↔ b = 0 ∧ ws = [] ∧ body = .barrier) ∧
  (∀ (s t : State) (q : Nat) (c : Cmd), Starts s q .barrier t c →
    ((∀ x ∈ s.cmds, x.q = q → x.sq = c.sq → c.ord ≤ x.ord) → Sys2Proof.Machine.exec (.barrier q) s = .next (s.close (endCmd t c.id .done))) ∧
    ((∃ x ∈ s.cmds, x.q = q ∧ x.sq = c.sq ∧ x.ord < c.ord) → Sys2Proof.Machine.exec (.barrier q) s = .next (s.close t) ∧ c ∈ t.cmds)) ∧
  (∀ (s : State) (c x : Cmd) (st : Status), s.cmd? c.id = some c →
    let e := completeOne s c st
    e.cmds.find? (fun x => x.q == c.q && x.body == .barrier && barrierDone e x) = some x →
      ∃ e' : State, completeNow s c.id st = queueSettle (advance e' c.q) c.q ∧ e' = pushEnds ((completeOne e x .done).q c.q).descs.length (completeOne e x .done) c.q)

/-- The timetable and the group masks after reset, and the start of the first major cycle. In the reset state of every permitted build the active timetable is one window of 65,535 microseconds, not EXCLUSIVE, in which every engine group and every station group is SHARE; both copies of every engine group mask are 0; both copies of station group g name exactly the present stations 4g to 4g + 3; no major cycle has begun. When the sorter cores start, the major cycle begins at position 0 in window 0. (spec/06 R167) -/
def Obligations.TimetableAfterReset : Prop :=
  (∀ (b : Build) (go : Bool), b.Permitted → let s := State.init b go
    (∃ w, s.sch.active = [w] ∧ winLen w = 65535 ∧ winExcl w = false ∧ ∀ eng g, g < 16 → winOwner w eng (some g) = .share) ∧ s.sch.started = false ∧
    (∀ g, g < 16 → s.f F.SCH_EGRP_ACT_PORTS g = 0 ∧ s.f F.SCH_EGRP_PORTS g = 0) ∧
    (∀ g n, g < 16 → ((s.f F.SCH_SGRP_ACT_STATIONS g).testBit n = true ↔ n / 4 = g ∧ n < b.stations) ∧
      ((s.f F.SCH_SGRP_STATIONS g).testBit n = true ↔ n / 4 = g ∧ n < b.stations))) ∧
  (∀ s : State, s.sch.active = [(0, 65535)] → (readyState s).sch.started = true ∧ (readyState s).sch.pos = 0 ∧ (readyState s).sch.posAt = s.time ∧
    (readyState s).sch.win = 0 ∧ (readyState s).sch.still = false)

/-- What the start of a command does, and a row for each command of a program. For every state, queue and ready command that starts: the row of that command runs it; right after the start the registers and predicates are those of before, the program counter has moved past the command, the started command stands last in the list with the word it stood at and the time, a record's entry is reserved when it writes one, and other queues, the gallery, pigeonholes, units, accesses, parcels and waiters are untouched. A command that an echo takeover executes again and that has a done mark ends by the mark instead. A command whose check at start fails is malformed. Where a queue has no ready command, where it may not start yet, or where the ready command is another row's, a row has no effect. (spec/03 R63, spec/03 R65, spec/03 R68, spec/03 R71, spec/04 R104, spec/02 R50, spec/12 R344) -/
def Obligations.ReadyCommandsStart : Prop :=
  ∀ (s t : State) (q : Nat) (b : Body) (c : Cmd) (h : Hdr),
    (Starts s q b t c → Sys2Proof.Machine.exec (b.row q) s = .next (s.close (runCmd t c.id)) ∧
      c.word = (s.q q).pc ∧ c.start = s.time ∧ c.ord = (s.q q).ord ∧ c.placed = isPlaced b ∧
      (t.q q).g = (s.q q).g ∧ (t.q q).p = (s.q q).p ∧ (t.q q).pc = (s.q q).pc + readyLen s q ∧ (t.q q).resv = (s.q q).resv + (if c.rpt = 0 then 0 else 1) ∧
      (t.q q).blk = (if isPlaced b then .ready else .cmd c.id) ∧ (∀ x, x ≠ q → t.q x = s.q x) ∧
      (t.q q).descs = (s.q q).descs ∧ t.cmds = s.cmds ++ [c] ∧ t.ph = s.ph ∧ t.gal = s.gal ∧ t.units = s.units ∧ t.ops = s.ops ∧ t.pcls = s.pcls ∧ t.waits = s.waits) ∧
    (∀ m, ready s.clear q = some (h, b) → mayStart s.clear q h b = true → startOk s.clear q b = true → s.cmd? s.nid = none → startCmd s.clear q h b = (t, c.id) → t.cmd? c.id = some c →
      markOf t c = some m → Sys2Proof.Machine.exec (b.row q) s = .next (s.close (doMarked t c m))) ∧
    (ready s.clear q = some (h, b) → mayStart s.clear q h b = true → startOk s.clear q b = false →
      Sys2Proof.Machine.exec (b.row q) s = .next (s.close (malformedCmd s.clear q))) ∧
    (ready s.clear q = none ∨ (ready s.clear q = some (h, b) ∧ mayStart s.clear q h b = false) →
      Sys2Proof.Machine.exec (b.row q) s = .next (s.close s.clear)) ∧
    (∀ b' : Body, ready s.clear q = some (h, b) → b'.row q ≠ b.row q → Sys2Proof.Machine.exec (b'.row q) s = .next (s.close s.clear))

/-- NOP, JUMP, BRANCH, LOOP, CALLP, RET and BARRIER. For every state in which the command starts: NOP completes; JUMP sets the program counter to its target; BRANCH does so when its condition holds for the values of its registers; LOOP takes 1 from its register and jumps while the result is not 0; CALLP asks for its edition, which EDITION_PIN gives; RET takes the place on top of the call stack, which it removes, or ends the program when the stack is empty; BARRIER completes when no command of its program before it is left, and waits otherwise. Each but CALLP and a waiting BARRIER completes with DONE. (spec/03 R73, spec/03 R74, spec/03 R82, spec/04 R125) -/
def Obligations.ControlCommandsSetTheProgramCounter : Prop :=
  ∀ (s t : State) (q wc off k ga gb gc p : Nat) (c : Cmd),
    (Starts s q (.nop wc) t c → Sys2Proof.Machine.exec (.nop q) s = .next (s.close (endCmd t c.id .done))) ∧
    (Starts s q (.jump off) t c → Sys2Proof.Machine.exec (.jump q) s
      = .next (s.close (endCmd (t.setQ q { t.q q with pc := (((s.q q).pc : Int) + toSigned 32 off).toNat }) c.id .done))) ∧
    (Starts s q (.branch k ga gb off) t c → condOf k (s.greg q ga) (s.greg q gb) = true → Sys2Proof.Machine.exec (.branch q) s
      = .next (s.close (endCmd (t.setQ q { t.q q with pc := (((s.q q).pc : Int) + toSigned 32 off).toNat }) c.id .done))) ∧
    (Starts s q (.branch k ga gb off) t c → condOf k (s.greg q ga) (s.greg q gb) = false →
      Sys2Proof.Machine.exec (.branch q) s = .next (s.close (endCmd t c.id .done))) ∧
    (Starts s q (.loop gc off) t c → ∃ e, Sys2Proof.Machine.exec (.loop q) s = .next (s.close (endCmd e c.id .done)) ∧
      e.greg q gc = (if gc = 0 then 0 else s.greg q gc - 1) ∧ (∀ g, g ≠ gc → e.greg q g = s.greg q g) ∧
      (e.q q).pc = (if gc ≠ 0 ∧ s.greg q gc ≠ 1 then (((s.q q).pc : Int) + toSigned 32 off).toNat else (t.q q).pc)) ∧
    (Starts s q (.callp p) t c → defined s (s.qPart q) p = true ∧ (s.q q).stack.length < 8 ∧
      Sys2Proof.Machine.exec (.callp q) s = .next (s.close (t.setCmd { c with aux := 1 }))) ∧
    (Starts s q .ret t c → ∃ e : State, Sys2Proof.Machine.exec (.ret q) s = .next (s.close (endCmd e c.id .done)) ∧
      (∀ f r, (s.q q).stack = f :: r → (e.q q).stack = r ∧ (e.q q).pc = f.pc ∧ (e.q q).loc = f.loc ∧ (e.q q).g = (s.q q).g ∧ (∀ x, x ≠ q → e.q x = s.q x)) ∧
      ((s.q q).stack = [] → e = endProgram t q)) ∧
    (Starts s q .barrier t c → ((s.cmds.any fun x => x.q == q && x.sq == c.sq && x.ord < c.ord) = false →
        Sys2Proof.Machine.exec (.barrier q) s = .next (s.close (endCmd t c.id .done))) ∧
      ((s.cmds.any fun x => x.q == q && x.sq == c.sq && x.ord < c.ord) = true → Sys2Proof.Machine.exec (.barrier q) s = .next (s.close t)))

/-- MOVI, the arithmetic and logic commands, CMP, FRANK and STAMP give their results. For every state in which the command starts, with A the value of GA and B that of its second operand: MOVI writes its immediate, sign-extended, or its word; ADD and SUB wrap modulo 2^64; AND, OR and XOR are bitwise; SHL and SHR shift by B modulo 64, SHR logically or arithmetically; CMP combines its condition into its predicate; FRANK reads its counter, or sets it to 0; STAMP writes fabric time. Each completes with DONE once the result stands. (spec/03 R75, spec/03 R76, spec/03 R77, spec/03 R91, spec/03 R96) -/
def Obligations.RegisterCommandsWriteTheirResult : Prop :=
  ∀ (s t : State) (q gd ga k pd comb i n : Nat) (x : Src) (w : W64) (c : Cmd),
    let done (v : W64) : State := endCmd (sumReg (t.setG q gd v) c.id gd v) c.id .done
    let A : W64 := s.greg q ga
    let B : W64 := srcVal s q x
    (Starts s q (.movi gd i) t c → Sys2Proof.Machine.exec (.movi q) s = .next (s.close (done (sext 32 i)))) ∧
    (Starts s q (.movil gd w) t c → Sys2Proof.Machine.exec (.movi q) s = .next (s.close (done w))) ∧
    (Starts s q (.alu .add gd ga x) t c → Sys2Proof.Machine.exec (.add q) s = .next (s.close (done (A + B)))) ∧
    (Starts s q (.alu .sub gd ga x) t c → Sys2Proof.Machine.exec (.sub q) s = .next (s.close (done (A - B)))) ∧
    (Starts s q (.alu .and gd ga x) t c → Sys2Proof.Machine.exec (.and q) s = .next (s.close (done (A &&& B)))) ∧
    (Starts s q (.alu .or gd ga x) t c → Sys2Proof.Machine.exec (.or q) s = .next (s.close (done (A ||| B)))) ∧
    (Starts s q (.alu .xor gd ga x) t c → Sys2Proof.Machine.exec (.xor q) s = .next (s.close (done (A ^^^ B)))) ∧
    (Starts s q (.alu .shl gd ga x) t c → Sys2Proof.Machine.exec (.shl q) s = .next (s.close (done (BitVec.ofNat 64 (A.toNat * 2 ^ (B.toNat % 64)))))) ∧
    (Starts s q (.alu (.shr false) gd ga x) t c → Sys2Proof.Machine.exec (.shr q) s = .next (s.close (done (BitVec.ofNat 64 (A.toNat / 2 ^ (B.toNat % 64)))))) ∧
    (Starts s q (.alu (.shr true) gd ga x) t c → Sys2Proof.Machine.exec (.shr q) s = .next (s.close (done (BitVec.ofInt 64 (A.toInt / 2 ^ (B.toNat % 64)))))) ∧
    (Starts s q (.cmp k pd ga x comb) t c → ∃ e, Sys2Proof.Machine.exec (.cmp q) s = .next (s.close (endCmd e c.id .done)) ∧
      e.pred q pd = (if comb = 0 then condOf k A B else if comb = 1 then s.pred q pd && condOf k A B else s.pred q pd || condOf k A B) ∧
      (∀ j, j ≠ pd → e.pred q j = s.pred q j) ∧ (e.q q).g = (s.q q).g ∧ (e.q q).pc = (t.q q).pc) ∧
    (Starts s q (.frank true gd n) t c → Sys2Proof.Machine.exec (.frank q) s = .next (s.close (done (s.frank n)))) ∧
    (Starts s q (.frank false gd n) t c → ∃ e, Sys2Proof.Machine.exec (.frank q) s = .next (s.close (endCmd e c.id .done)) ∧ e.frank n = 0 ∧
      (∀ m, m ≠ n → e.frank m = s.frank m) ∧ e.qs = t.qs ∧ e.gal.cells = s.gal.cells) ∧
    (Starts s q (.stamp gd) t c → Sys2Proof.Machine.exec (.stamp q) s = .next (s.close (done (BitVec.ofNat 64 s.time))))

/-- The frame of a command that writes one register: it changes that register alone; writes of G0 are discarded. For every state in which an arithmetic or logic command starts: its row gives a state in which its destination register holds the result, or reads 0 when it is G0, and every other register of that and of every other queue, every predicate, every byte of the gallery, every seal bit and franking counter, every pigeonhole and every parcel edition's place is as before, whatever the command's completion sets off. (spec/03 R62, spec/03 R63, spec/03 R76) -/
def Obligations.ResultsReachOneRegister : Prop :=
  ∀ (s t : State) (q gd ga : Nat) (o : AluOp) (x : Src) (c : Cmd), Starts s q (.alu o gd ga x) t c →
    ∃ e, Sys2Proof.Machine.exec (Body.row q (.alu o gd ga x)) s = .next (s.close e) ∧
      e.greg q gd = (if gd = 0 then 0 else o.eval (s.greg q ga) (srcVal s q x)) ∧
      (∀ q' g, q' ≠ q ∨ g ≠ gd → e.greg q' g = s.greg q' g) ∧ (∀ q' k, e.pred q' k = s.pred q' k) ∧
      e.gal.cells = s.gal.cells ∧ e.gal.full = s.gal.full ∧ e.gal.frank = s.gal.frank ∧ (∀ n, (e.row n).value = (s.row n).value) ∧
      (∀ d, d ∈ e.eds → ∃ d', d' ∈ s.eds ∧ d'.key = d.key ∧ d'.addr = d.addr)

/-- LD, ST, MEMSIGNAL, STAMP to memory, SNAP, ENQUEUE and TILEPASS begin the access the spec gives them. For every state in which the command starts: LD and ST begin a read, or a write of the low bytes of GS, of their size at the effective address, in memory or the gallery; STAMP to memory writes fabric time; SNAP writes the words of its set, all of one moment, and a set that is not the partition's ends it with UNSUPPORTED; MEMSIGNAL writes its value, or first reads the word when only a greater value is to be written; ENQUEUE reads its image of 64 bytes; TILEPASS its header of 64 bytes. Data of LD reach GD, filled with zeros. (spec/03 R78, spec/03 R81, spec/03 R96, spec/03 R97, spec/04 R119, spec/04 R131, spec/17 R449) -/
def Obligations.AccessCommandsMakeTheirAccess : Prop :=
  ∀ (s t : State) (q g ga size off set tq : Nat) (sp : Bool) (v : Val) (a : W64) (c : Cmd),
    let ea : W64 := s.greg q ga + sext 32 off
    let space : ASpace := if sp then .gal else .va
    (Starts s q (.ld sp g ga size off) t c → Sys2Proof.Machine.exec (.ld q) s
      = .next (s.close (t.startOp (mkOp (.ld c.id) (s.qIdent q) 112 space ea.toNat (2 ^ size) false [])))) ∧
    (Starts s q (.st sp g ga size off) t c → Sys2Proof.Machine.exec (.st q) s
      = .next (s.close (t.startOp (mkOp (.st c.id) (s.qIdent q) 112 space ea.toNat (2 ^ size) true (toBytes (2 ^ size) (s.greg q g).toNat))))) ∧
    (Starts s q (.stampm a) t c → Sys2Proof.Machine.exec (.stamp q) s
      = .next (s.close (t.startOp (mkOp (.stamp c.id) (s.qIdent q) 112 .va a.toNat 8 true (toBytes 8 s.time))))) ∧
    (Starts s q (.snap set a) t c → (snapRefused s q set = true → Sys2Proof.Machine.exec (.snap q) s = .next (s.close (endCmd t c.id .unsupported))) ∧
      (snapRefused s q set = false → Sys2Proof.Machine.exec (.snap q) s
        = .next (s.close (t.startOp (mkOp (.snap c.id) (s.qIdent q) 112 .va a.toNat (8 * (snapWords t (s.qPart q) set).length) true (bytesOf (snapWords t (s.qPart q) set))))))) ∧
    (Starts s q (.memsignal false v a) t c → Sys2Proof.Machine.exec (.memsignal q) s
      = .next (s.close ((t.setCmd { c with sumV := valOfQ s q v }).startOp
          { mkOp (.memsigWrite c.id) (s.qIdent q) 112 .va a.toNat 8 true (toBytes 8 (valOfQ s q v).toNat) with memOnly := true }))) ∧
    (Starts s q (.memsignal true v a) t c → Sys2Proof.Machine.exec (.memsignal q) s
      = .next (s.close ((t.setCmd { c with sumV := valOfQ s q v }).startOp
          { mkOp (.memsigRead c.id) (s.qIdent q) 112 .va a.toNat 8 false [] with memOnly := true }))) ∧
    (Starts s q (.enqueue tq a) t c → Sys2Proof.Machine.exec (.enqueue q) s
      = .next (s.close (t.startOp { mkOp (.enqRead c.id) (s.qIdent q) 112 .va a.toNat 64 false [] with memOnly := true }))) ∧
    (∀ np eg md tx ty tb pl rv, Starts s q (.tilepass np eg md a tx ty tb pl rv) t c → Sys2Proof.Machine.exec (.tilepass q) s
      = .next (s.close (t.startOp (mkOp (.tileHdr c.id) (s.qIdent q) 112 .va a.toNat 64 false [])))) ∧
    (∀ o, Starts s q (.ld sp g ga size off) t c → o.status = .done →
      ldDone t c.id o = endCmd (sumReg (t.setG q g (BitVec.ofNat 64 (ofBytes o.data))) c.id g (BitVec.ofNat 64 (ofBytes o.data))) c.id .done)

/-- WAITGE, SIGNAL, PHRESET, SEAL, UNSEAL, PSTOP, PDEF, PPATCH, PFREE and XINVAL. For every state in which the command starts: WAITGE on a pigeonhole ends with DONE when the value is at least the threshold, joins the row's waiters when it is lower, and ends with UNCORRECTED on a POISONED row and PARTITION_DISABLED on a SCRUBBING one; on a counter likewise by its value; on memory its waiter joins while the fence is translated. SIGNAL gives its row the value of its form and no other row a new value, or ends with FENCE_BACKWARD, UNCORRECTED or PARTITION_DISABLED and changes no value. PHRESET gives its row its value, NORMAL. SEAL arms its region with its fields and sets the seal bit of each of its lines to its FULL; UNSEAL disarms it. PSTOP ends at once when no passage of its queue with its program runs, else the passage stops with ABORTED. PDEF, PPATCH and PFREE take a free claim and go on, or wait behind those that ask. XINVAL adds an invalidation. (spec/03 R79, spec/03 R80, spec/03 R90, spec/03 R93, spec/03 R98, spec/03 R99, spec/03 R100, spec/05 R143, spec/05 R147, spec/05 R152, spec/04 R124, spec/10 R282) -/
def Obligations.SynchronisingCommandsReachTheirUnits : Prop :=
  ∀ (s t : State) (q n ph rg base size first scope seg ctx off cnt len gd : Nat) (tc full perm peek loc : Bool) (pt : Option Nat) (tmo : Nat) (f : SigForm) (v : Val) (a b : W64) (c : Cmd),
    let u : State := phTouch t a.toNat
    let y : State := phTouch t ph
    let x : Parcel := getParcel t (s.qPart q) n
    let claimed (e : State) : Prop :=
      ((x.claim = none ∧ x.waiting = []) → e = parcelGo (setParcel t { x with claim := some c.id }) c.id) ∧ (¬ (x.claim = none ∧ x.waiting = []) → e = setParcel t { x with waiting := x.waiting ++ [c.id] })
    (Starts s q (.waitge 0 tc pt tmo a v) t c →
      ((u.row a.toNat).st = .normal → valOfQ s q v ≤ (u.row a.toNat).value → Sys2Proof.Machine.exec (.waitge q) s = .next (s.close (endWait u c.id .done))) ∧
      ((u.row a.toNat).st = .normal → ¬ valOfQ s q v ≤ (u.row a.toNat).value → ∃ e, Sys2Proof.Machine.exec (.waitge q) s = .next (s.close e) ∧
        e.waits = u.waits ++ [queueWaiter u c a.toNat (valOfQ s q v) (.ph a.toNat)] ∧ e.qs = u.qs ∧ e.cmds = u.cmds) ∧
      ((u.row a.toNat).st = .poisoned → Sys2Proof.Machine.exec (.waitge q) s = .next (s.close (endWait u c.id .uncorrected))) ∧
      ((u.row a.toNat).st = .scrubbing → Sys2Proof.Machine.exec (.waitge q) s = .next (s.close (endWait u c.id .partitionDisabled)))) ∧
    (Starts s q (.waitge 2 tc pt tmo a v) t c → Sys2Proof.Machine.exec (.waitge q) s = .next (s.close (if valOfQ s q v ≤ s.frank a.toNat then endWait t c.id .done else
      { t with waits := t.waits ++ [queueWaiter t c a.toNat (valOfQ s q v) (.counter a.toNat)] }))) ∧
    (Starts s q (.waitge 1 tc pt tmo a v) t c → Sys2Proof.Machine.exec (.waitge q) s = .next (s.close ((addWaiter t (queueWaiter t c a.toNat (valOfQ s q v) (.fence false s.time))).startOp
      { mkOp (.watchXl c.id) (s.qIdent q) 112 .va a.toNat 8 false [] with xlOnly := true, memOnly := true }))) ∧
    (Starts s q (.signal f v ph) t c → ∃ e : State, (∀ m, m ≠ ph → (e.row m).value = (s.row m).value) ∧
      (∀ w, (y.row ph).st = .normal → f.apply (s.row ph).value (valOfQ s q v) = some w → (e.row ph).value = w ∧ Sys2Proof.Machine.exec (.signal q) s = .next (s.close (endCmd e c.id .done))) ∧
      ((y.row ph).st = .normal → f.apply (s.row ph).value (valOfQ s q v) = none → (e.row ph).value = (s.row ph).value ∧ Sys2Proof.Machine.exec (.signal q) s = .next (s.close (endCmd e c.id .fenceBackward))) ∧
      ((y.row ph).st = .poisoned → (e.row ph).value = (s.row ph).value ∧ Sys2Proof.Machine.exec (.signal q) s = .next (s.close (endCmd e c.id .uncorrected))) ∧
      ((y.row ph).st = .scrubbing → (e.row ph).value = (s.row ph).value ∧ Sys2Proof.Machine.exec (.signal q) s = .next (s.close (endCmd e c.id .partitionDisabled)))) ∧
    (Starts s q (.phreset ph a) t c → ∃ e, Sys2Proof.Machine.exec (.phreset q) s = .next (s.close (endCmd e c.id .done)) ∧
      (e.row ph).value = a ∧ (e.row ph).st = .normal ∧ ∀ m, m ≠ ph → (e.row m).value = (s.row m).value) ∧
    (Starts s q (.seal perm peek full rg base size) t c → ∃ e, Sys2Proof.Machine.exec (.seal q) s = .next (s.close (endCmd e c.id .done)) ∧
      e.fb F.GAL_SEAL_MODE_ARMED rg = true ∧ e.fb F.GAL_SEAL_MODE_PERM rg = perm ∧ e.fb F.GAL_SEAL_MODE_PEEK rg = peek ∧
      e.f F.GAL_SEAL_BASE_BASE rg = base % 2 ^ F.GAL_SEAL_BASE_BASE.w ∧ e.f F.GAL_SEAL_SIZE_SIZE rg = size % 2 ^ F.GAL_SEAL_SIZE_SIZE.w ∧
      (∀ l, base / 512 ≤ l → l < base / 512 + size / 512 → (l ∈ e.gal.full ↔ full = true)) ∧ (∀ l, l < base / 512 ∨ base / 512 + size / 512 ≤ l → (l ∈ e.gal.full ↔ l ∈ s.gal.full)) ∧
      e.gal.cells = s.gal.cells) ∧
    (Starts s q (.unseal rg) t c → ∃ e, Sys2Proof.Machine.exec (.unseal q) s = .next (s.close (endCmd e c.id .done)) ∧
      e.fb F.GAL_SEAL_MODE_ARMED rg = false ∧ e.gal.full = s.gal.full ∧ e.gal.cells = s.gal.cells) ∧
    (Starts s q (.pstop first) t c → (runningPassage t q first = none → Sys2Proof.Machine.exec (.pstop q) s = .next (s.close (endCmd t c.id .done))) ∧
      (∀ z, runningPassage t q first = some z → Sys2Proof.Machine.exec (.pstop q) s
        = .next (s.close (stopPassage ((t.setCmd { c with aux := z.id }).setCmd { z with abort := some .done }) z.id .aborted)))) ∧
    (Starts s q (.pdef loc n a len) t c → ∃ e, Sys2Proof.Machine.exec (.pdef q) s = .next (s.close e) ∧ claimed e) ∧
    (Starts s q (.ppatch gd off n a cnt) t c → defined s (s.qPart q) n = true ∧ ∃ e, Sys2Proof.Machine.exec (.ppatch q) s = .next (s.close e) ∧ claimed e) ∧
    (Starts s q (.pfree n) t c → defined s (s.qPart q) n = true ∧ ∃ e, Sys2Proof.Machine.exec (.pfree q) s = .next (s.close e) ∧ claimed e) ∧
    (Starts s q (.xinval scope seg ctx a b) t c → ∃ e i, Sys2Proof.Machine.exec (.xinval q) s = .next (s.close e) ∧ e.xlt.invs = s.xlt.invs ++ [i] ∧
      i.ctx = ctx ∧ i.scope = scope ∧ i.seg = seg ∧ i.start = a.toNat ∧ i.len = b.toNat ∧ i.cmd = some c.id ∧ e.qs = t.qs ∧ e.gal = s.gal)

/-- LAUNCH, DISPATCH, COPY, FILL, DMA, PASSAGE and COLLECT start without holding up their program. For every state in which the command starts: it is held for admission, the queue's decoder goes on to the next command, fewer than 64 placed commands were outstanding, and the payload of LAUNCH and DISPATCH takes the values that its substituted words have at the start; no register, no byte of the gallery and no unit has changed. (spec/03 R64, spec/03 R84, spec/03 R85, spec/03 R86, spec/03 R88, spec/03 R92, spec/03 R95, spec/04 R104, spec/04 R106) -/
def Obligations.PlacedCommandsAreHeldForAdmission : Prop :=
  ∀ (s t : State) (q : Nat) (b : Body) (c : Cmd), Starts s q b t c → isPlaced b = true →
    placedCount s q < 64 ∧ c.st = .held ∧ (t.q q).blk = .ready ∧ (t.q q).g = (s.q q).g ∧ t.gal = s.gal ∧ t.units = s.units ∧
    (∀ np pin port eg md pl sub, b = .launch np pin port eg md pl sub →
      Sys2Proof.Machine.exec (.launch q) s = .next (s.close (t.setCmd { c with body := .launch np pin port eg md (substPayload s q pl sub) none }))) ∧
    (∀ np eg md x y z ch pl sub, b = .dispatch np eg md x y z ch pl sub →
      Sys2Proof.Machine.exec (.dispatch q) s = .next (s.close (t.setCmd { c with body := .dispatch np eg md x y z ch (substPayload s q pl sub) none }))) ∧
    (∀ x1 x2 x3 x4 x5 len src dst, b = .copy x1 x2 x3 x4 x5 len src dst → Sys2Proof.Machine.exec (.copy q) s = .next (s.close t)) ∧
    (∀ sp pl len dst pat, b = .fill sp pl len dst pat → Sys2Proof.Machine.exec (.fill q) s = .next (s.close t)) ∧
    (∀ x1 x2 x3 x4 src dst ss ds rows rb, b = .dma x1 x2 x3 x4 src dst ss ds rows rb → Sys2Proof.Machine.exec (.dma q) s = .next (s.close t)) ∧
    (∀ np fi cn md pa sp seed, b = .passage np fi cn md pa sp seed → Sys2Proof.Machine.exec (.passage q) s = .next (s.close t)) ∧
    (∀ np op ex g md src dst cnt dt ro ss ds rt, b = .collect np op ex g md src dst cnt dt ro ss ds rt → Sys2Proof.Machine.exec (.collect q) s = .next (s.close t))

/-- A link signal, WAITREQ and WAITCANCEL, a wait's timeout, and the scrub of a pigeonhole. For every state: a link signal is applied with MAX to the pigeonhole when an IN entry names its source and otherwise only counts in LSTRAY. A WAITREQ of no unit, or outside its partition's allotment, is refused with WAITREF; so is one that finds its partition's quota reached or the pool empty; else one on a POISONED or SCRUBBING row is answered WAITERR, one whose threshold the value meets WAITOK, and any other joins the row's waiters. WAITCANCEL takes the engine's waiters of that tag off their lists and no other. A WAITGE whose timeout has passed, and that no replay record governs, ends with TIMEOUT, which the letterbook notes; before that nothing happens. The first scrub step of a row marks it SCRUBBING and ends its waits with PARTITION_DISABLED; the second empties it and goes on to the next row of the allotment. (spec/05 R138, spec/05 R139, spec/05 R140, spec/05 R142, spec/05 R143, spec/05 R145, spec/05 R153, spec/05 R159, spec/18 R486) -/
def Obligations.SignalsReachPigeonholesAndWaiters : Prop :=
  ∀ (s : State) (src k n p : Nat) (w0 v : W64) (u : Wunit) (x : Waiter) (c : Cmd),
    (let n := w0.toNat % 2 ^ 21
     let named := (linkEntries s 1 n).any fun i => s.f F.PH_LINK_CHIP i == src && s.f F.PH_LINK_REMOTE i == w0.toNat / 2 ^ 21 % 2 ^ 21
     (named = true → ∃ e, Sys2Proof.Machine.exec (.linkSignalArrival src w0 v) s = .next (s.close e) ∧ e = (phSignal s.clear n .max v none).1 ∧
        (((phTouch s.clear n).row n).st = .normal → (e.row n).value = if (s.row n).value < v then v else (s.row n).value)) ∧
     (named = false → Sys2Proof.Machine.exec (.linkSignalArrival src w0 v) s = .next (s.close (s.clear.incF F.PH_STAT_LSTRAY 0)))) ∧
    (k < s.b.eports → s.ctlOn = true → s.flt.halt < 6 →
      let tag := fieldOf w0 55 48
      let row := fieldOf w0 20 0
      let y : State := phTouch s.clear row
      let full : Prop := min 253952 (s.f F.PH_WQUOTA_QUOTA u.part) ≤ wUsed s u.part ∨ 253952 ≤ (s.waits.filter fun x => decide (8192 ≤ x.ent)).length
      (unitByTag s k (fieldOf w0 47 32) = none → Sys2Proof.Machine.exec (.waitreq k w0 v) s = .next (s.close (waitMsg s.clear k 0x84 tag))) ∧
      (unitByTag s k (fieldOf w0 47 32) = some u →
        (inAllot s u.part row = false → Sys2Proof.Machine.exec (.waitreq k w0 v) s
          = .next (s.close (signalRange (waitMsg s.clear k 0x84 tag) k u.part (s.cmd? u.cmd)))) ∧
        (inAllot s u.part row = true → full → Sys2Proof.Machine.exec (.waitreq k w0 v) s = .next (s.close (waitMsg s.clear k 0x84 tag))) ∧
        (inAllot s u.part row = true → ¬ full →
          ((y.row row).st = .poisoned ∨ (y.row row).st = .scrubbing → Sys2Proof.Machine.exec (.waitreq k w0 v) s = .next (s.close (waitMsg y k 0x85 tag))) ∧
          ((y.row row).st = .normal → v ≤ (y.row row).value → Sys2Proof.Machine.exec (.waitreq k w0 v) s = .next (s.close (waitMsg y k 0x83 tag))) ∧
          ((y.row row).st = .normal → (y.row row).value < v → ∃ e z, Sys2Proof.Machine.exec (.waitreq k w0 v) s = .next (s.close e) ∧ e.waits = y.waits ++ [z] ∧
            z.tgt = .ph row ∧ z.who = .engine k tag ∧ z.thr = v ∧ z.part = u.part ∧ z.expiry = none ∧ 8192 ≤ z.ent ∧ z.ent < 262144 ∧ e.out = y.out ∧ ∀ m, (e.row m).value = (y.row m).value)))) ∧
    (∃ e, Sys2Proof.Machine.exec (.waitcancel k w0) s = .next (s.close e) ∧
      (∀ y, y ∈ e.waits ↔ y ∈ s.waits ∧ y.who ≠ .engine k (fieldOf w0 55 48)) ∧ e.flds = s.flds ∧ e.ph = s.ph ∧ e.gal = s.gal) ∧
    (waiterOf s n = none → Sys2Proof.Machine.exec (.waitgeTimeoutExpiry n) s = .next (s.close s.clear)) ∧
    (∀ t, waiterOf s n = some (x, c) → s.verdict x.part (some n) (.queue n) = .free → x.expiry = some t →
      (t ≤ s.time → Sys2Proof.Machine.exec (.waitgeTimeoutExpiry n) s
        = .next (s.close (freeWatches (wake (s.clear.note (some x.part) false 6 (some n) (sqOrd c.sq c.ord) 0) x .timeout)))) ∧
      (s.time < t → Sys2Proof.Machine.exec (.waitgeTimeoutExpiry n) s = .next (s.close s.clear))) ∧
    (∀ d, s.prt = [(p, d)] → d.rows = some n → s.f F.PRT_STAT_STEP p = 5 → s.ctlOn = true → s.flt.halt < 3 →
      ((s.row n).st ≠ .scrubbing → ∃ e, Sys2Proof.Machine.exec (.pigeonholeScrubStep n) s = .next (s.close (wakeAll e (.ph n) .partitionDisabled)) ∧ (e.row n).st = .scrubbing ∧
        e.waits = s.waits ∧ (e.dis p).rows = some n) ∧
      ((s.row n).st = .scrubbing → ∃ e, Sys2Proof.Machine.exec (.pigeonholeScrubStep n) s = .next (s.close e) ∧ (e.row n).value = 0 ∧ (e.row n).st = .normal ∧
        (e.dis p).rows = (if n < s.f F.PH_PART_LIMIT_LAST p then some (n + 1) else none) ∧ e.gal = s.gal ∧ e.cmds = s.cmds))

/-- A read of a watched fence that returns, a watch that is free, the fence doorbell and the poll interval. For every state: the last answer of a watch's read gives its value to the watch's waiters, whose met ones are woken, and a further read begins at once when one was asked for meanwhile and the watch is still there; an answer that no request waits for changes nothing; an error wakes every waiter with UNCORRECTED. A free watch goes to the first WAITGE in the list that waits for one, which joins it and has its fence read. The fence doorbell of a partition that is not being disabled has every watch of the partition read again, or noted as due where it is being read. A watch whose poll interval has passed since its last read, and that is not being read, is read again, and none when the interval is 0. (spec/05 R147, spec/05 R148, spec/05 R150, spec/05 R160) -/
def Obligations.WatchesReadTheirFences : Prop :=
  ∀ (s : State) (tag id p : Nat) (data : List Byte) (w : Watch) (x : Waiter) (r : MReq) (o : Op) (part pa : Nat) (tgt : Tgt) (l l' : List Waiter),
    (LastAnswer s tag false r o → o.pur = .watchRead id → s.watches.find? (·.id == id) = some w →
      let g := o.given tag (r.bytes data)
      let y : State := watchValue (setWatch (s.clear.over tag g) { w with reading := false, again := false }) w ((wordsOf 1 g.data).headD 0)
      Sys2Proof.Machine.exec (.watchReadReturn tag .okay data) s = .next (s.close (match y.watches.find? (·.id == id) with
        | some w' => if w.again then watchRead y w' else y
        | none => y))) ∧
    (mreqOf s tag false = none → Sys2Proof.Machine.exec (.watchReadReturn tag .okay data) s = .next (s.close s.clear)) ∧
    (s.watches.find? (·.id == id) = some w → o.status ≠ .done →
      watchDone s id o = freeWatches (wakeAll (setWatch s { w with reading := false, again := false }) (.watch id) .uncorrected)) ∧
    (s.watches.length < 4096 → s.waits = l ++ x :: l' → (∀ z ∈ l, ∀ a b c, z.tgt ≠ .nowatch a b c) → x.tgt = .nowatch part pa tgt → Sys2Proof.Machine.exec .watchFree s
      = .next (s.close (joinWatch (dropWaiter s.clear x) x part pa tgt true s.time))) ∧
    (4096 ≤ s.watches.length ∨ (∀ z ∈ s.waits, ∀ a b c, z.tgt ≠ .nowatch a b c) → Sys2Proof.Machine.exec .watchFree s = .next (s.close s.clear)) ∧
    (HostReady s → p < 64 → s.flt.halt = 0 → ringsDelivered s = true → s.f F.PRT_STAT_STATE p ≠ 2 →
      Sys2Proof.Machine.exec (.fenceDoorbell p) s = .next (s.close ((s.watches.filter (·.part == p)).foldl watchRead (fenceAgain s.clear fun y _ => y.part == p)).ok)) ∧
    (s.watches.find? (·.id == id) = some w →
      (pollInterval s w.part ≠ 0 → w.lastRead + pollInterval s w.part * 1000 ≤ s.time → w.reading = false →
        Sys2Proof.Machine.exec (.pollIntervalExpiry id) s = .next (s.close (watchRead s.clear w))) ∧
      (pollInterval s w.part = 0 ∨ s.time < w.lastRead + pollInterval s w.part * 1000 ∨ w.reading = true → Sys2Proof.Machine.exec (.pollIntervalExpiry id) s = .next (s.close s.clear))) ∧
    (w.reading = true → watchRead s w = setWatch s { w with again := true }) ∧
    (w.reading = false → s.fb F.OBS_RP_CFG_INPUTS = false → ∃ (e : State) (a : Op), watchRead s w = e.startOp a ∧ e.watches = s.watches.map (fun y => if y.id = w.id then { w with again := false, reading := true, lastRead := s.time } else y) ∧
      a.pur = .watchRead w.id ∧ a.space = .spans [⟨0, 8, w.pa, w.tgt⟩] ∧ a.len = 8 ∧ a.wr = false ∧ e.waits = s.waits)

/-- Writes of a pigeonhole allotment and of a link entry, and the scan for wait cycles. For every state in which the register path runs: an allotment's base or limit is written only while no queue of its partition is enabled; a range that ends below its base, or that meets another partition's enabled range, is refused with its cause; another stores its fields. An enabled link entry takes only EN = 0; one that would be enabled with a pigeonhole in no allotment, or with this chip, is refused; another stores its fields. A scan that is not due changes nothing. One that is due notes its time and takes, in order of its lowest queue, each strongly connected component of the blocked queues that is not reported yet: it raises WAIT_CYCLE with a cycle of it, counts it and stores its length. (spec/05 R141, spec/05 R153, spec/05 R156, spec/05 R157, spec/05 R158) -/
def Obligations.AllotmentsLinksAndWaitCycles : Prop :=
  ∀ (s : State) (p i v since last n : Nat) (texts : List (Nat × List W64)),
    (HostReady s → p < 64 → partQueues s p = [] → v < 2 ^ 64 →
      let meets (lo hi : Nat) : Prop := ∃ o ∈ s.setIdx F.PH_PART_BASE_EN, o ≠ p ∧ s.f F.PH_PART_BASE_BASE o ≤ hi ∧ lo ≤ s.f F.PH_PART_LIMIT_LAST o
      let err (c : Nat) : State := ((s.clear.setF F.PH_ERR_CAUSE 0 c).setF F.PH_ERR_WHERE 0 p).ok
      let b := s.f F.PH_PART_BASE_BASE p
      let l := s.f F.PH_PART_LIMIT_LAST p
      (v < 2 ^ 63 → Sys2Proof.Machine.exec (.phAllotmentWrite p false v) s
        = .next (s.close ((((s.clear.setF F.PH_PART_BASE_BASE p (v % 2 ^ 21)).setF F.PH_PART_BASE_EN p 0).setF F.PH_ERR_CAUSE 0 0).setF F.PH_ERR_WHERE 0 0).ok)) ∧
      (2 ^ 63 ≤ v →
        (l < v % 2 ^ 21 → Sys2Proof.Machine.exec (.phAllotmentWrite p false v) s = .next (s.close (err 2))) ∧
        (v % 2 ^ 21 ≤ l → meets (v % 2 ^ 21) l → Sys2Proof.Machine.exec (.phAllotmentWrite p false v) s = .next (s.close (err 1))) ∧
        (v % 2 ^ 21 ≤ l → ¬ meets (v % 2 ^ 21) l → Sys2Proof.Machine.exec (.phAllotmentWrite p false v) s
          = .next (s.close ((((s.clear.setF F.PH_PART_BASE_BASE p (v % 2 ^ 21)).setF F.PH_PART_BASE_EN p 1).setF F.PH_ERR_CAUSE 0 0).setF F.PH_ERR_WHERE 0 0).ok))) ∧
      (s.fb F.PH_PART_BASE_EN p = false ∨ (b ≤ v % 2 ^ 21 ∧ ¬ meets b (v % 2 ^ 21)) →
        Sys2Proof.Machine.exec (.phAllotmentWrite p true v) s = .next (s.close (s.clear.setF F.PH_PART_LIMIT_LAST p (v % 2 ^ 21)).ok)) ∧
      (s.fb F.PH_PART_BASE_EN p = true → v % 2 ^ 21 < b → Sys2Proof.Machine.exec (.phAllotmentWrite p true v) s = .next (s.close (err 2))) ∧
      (s.fb F.PH_PART_BASE_EN p = true → b ≤ v % 2 ^ 21 → meets b (v % 2 ^ 21) → Sys2Proof.Machine.exec (.phAllotmentWrite p true v) s = .next (s.close (err 1)))) ∧
    (HostReady s → p < 64 → partQueues s p ≠ [] → ∀ limit, Sys2Proof.Machine.exec (.phAllotmentWrite p limit v) s = .next (s.close s.clear.ok)) ∧
    (HostReady s → i < 4096 → v < 2 ^ 64 →
      let bad : Prop := phPart s (fieldIn v 57 37) = none ∨ v / 2 ^ 58 % 16 = s.chip
      (s.fb F.PH_LINK_EN i = true → 2 ^ 63 ≤ v → Sys2Proof.Machine.exec (.phLinkWrite i v) s = .next (s.close s.clear.ok)) ∧
      (s.fb F.PH_LINK_EN i = true → v < 2 ^ 63 → Sys2Proof.Machine.exec (.phLinkWrite i v) s = .next (s.close
        ((((({ s.clear with linkOut := mdel s.linkOut i } : State).setF F.PH_LINK_EN i 0).setF F.PH_ERR_CAUSE 0 0).setF F.PH_ERR_WHERE 0 0)).ok)) ∧
      (s.fb F.PH_LINK_EN i = false → 2 ^ 63 ≤ v → bad → Sys2Proof.Machine.exec (.phLinkWrite i v) s
        = .next (s.close ((s.clear.setF F.PH_ERR_CAUSE 0 3).setF F.PH_ERR_WHERE 0 i).ok)) ∧
      (s.fb F.PH_LINK_EN i = false → v < 2 ^ 63 ∨ ¬ bad → Sys2Proof.Machine.exec (.phLinkWrite i v) s
        = .next (s.close (((((((s.clear.setF F.PH_LINK_DIR i (v / 2 ^ 62)).setF F.PH_LINK_CHIP i (v / 2 ^ 58)).setF F.PH_LINK_LOCAL i (v / 2 ^ 37)).setF F.PH_LINK_REMOTE i (v / 2 ^ 16)).setF
            F.PH_LINK_EN i (v / 2 ^ 63)).setF F.PH_ERR_CAUSE 0 0).setF F.PH_ERR_WHERE 0 0).ok))) ∧
    (s.stall.find? (·.1 == p) = none ∨ scanAfter s = none → Sys2Proof.Machine.exec (.waitCycleScan p texts) s = .next (s.close s.clear)) ∧
    (s.stall.find? (·.1 == p) = some (p, since, last) → scanAfter s = some n →
      (s.time < last + n → Sys2Proof.Machine.exec (.waitCycleScan p texts) s = .next (s.close s.clear)) ∧
      (last + n ≤ s.time → s.coreUp 0 = true ∨ s.coreUp 1 = true → s.halted = false → s.ctlOn = true →
        let y : State := { s.clear with stall := mset s.stall p (since, s.time) }
        let bs := blockedQueues s p
        let comp (q : Nat) : List Nat := componentOf (waitEdges s bs texts) bs q
        let lows : List Nat := bs.filter fun q => comp q != [] && (comp q).all fun v => decide (q ≤ v)
        let take (e : State) (q : Nat) : State := if reported e (comp q) then e else match cycleOf (waitEdges s bs texts) bs q with
          | some cyc => raiseCycle e p (comp q) cyc
          | none => e
        Sys2Proof.Machine.exec (.waitCycleScan p texts) s = .next (s.close (lows.mergeSort.foldl take y)))) ∧
    (∀ comp cyc, p < 64 → (raiseCycle s p comp cyc).f F.PH_PW_CYCLE_LEN p = cyc.length % 2 ^ F.PH_PW_CYCLE_LEN.w ∧
      (raiseCycle s p comp cyc).f F.PH_PW_CYCLE_COUNT p = (s.f F.PH_PW_CYCLE_COUNT p + 1) % 2 ^ F.PH_PW_CYCLE_COUNT.w ∧
      ∃ key, (raiseCycle s p comp cyc).cyc = s.cyc ++ [key] ∧ key.map (·.1) = comp)

/-- Admission takes the next unit that a placement admits; tiles of a TILEPASS start, resolve and migrate in turn. For every state: a scheduler that does not run admits nothing. One that runs first ends a unit that no placement can ever take, with ENGINE_ERROR, or a COLLECT whose relay core has halted, with COLLECTIVE_RESTARTED. Else it admits the next unit of a command admitted as a whole, else, where the window has not ended, the first unit in the order of admission that a placement admits; where there is none, nothing. An admitted LAUNCH that no replay record governs is a new unit on its port, with its command sent there. A waiting per-tile launch whose slot is free starts. A courier whose turn it is, where no record governs it, begins the resolve write of a tile that has completed, as a new unit. A migration replaces a pinned port by another that can stand for it, takes a port from the queue's groups, or moves its station offset, with the placement epoch one higher, and marks the queue's commands that ran on the closed placement. (spec/06 R163, spec/06 R165, spec/06 R169, spec/06 R171, spec/06 R178, spec/04 R127, spec/04 R128, spec/04 R130, spec/04 R134, spec/04 R135, spec/15 R415) -/
def Obligations.UnitsAreAdmittedInOrder : Prop :=
  ∀ (s : State) (k q kind old new e : Nat) (c : Cmd) (x : Plan) (t : TileSt),
    (schRuns s = false → Sys2Proof.Machine.exec (.unitAdmission k) s = .next (s.close s.clear)) ∧
    (schRuns s = true →
      let plan := (laterPlan s).orElse fun _ => if windowOver s then none else nextPlan s k
      (goneUnit s = some c → relayGone s c = false → Sys2Proof.Machine.exec (.unitAdmission k) s = .next (s.close (failUnit s.clear c))) ∧
      (goneUnit s = some c → relayGone s c = true → Sys2Proof.Machine.exec (.unitAdmission k) s = .next (s.close (endPlaced s.clear c.id .collectiveRestarted))) ∧
      (goneUnit s = none → plan = some (c, x) → Sys2Proof.Machine.exec (.unitAdmission k) s = .next (s.close (doAdmit s.clear c x))) ∧
      (goneUnit s = none → plan = none → Sys2Proof.Machine.exec (.unitAdmission k) s = .next (s.close s.clear))) ∧
    (∀ np pin port eg md pl sub, c.body = .launch np pin port eg md pl sub → x.pl = .port e → x.mask = 0 → s.cmd? c.id = some c → s.unit? s.nid = none →
      s.verdict (s.qPart c.q) (some c.q) (.place 0 e) = .free → ∃ (y : State) (u : Wunit), doAdmit s c x = y.emit (.eCmd e (engHeader y u 0 0 0 0) pl) ∧ y.units = s.units ++ [u] ∧
        u.cmd = c.id ∧ u.place = .port e ∧ u.part = s.qPart c.q ∧ u.start = s.time ∧ (y.cmd? c.id).map (·.st) = some .admitted ∧ y.qs = s.qs ∧ y.gal = s.gal ∧ y.out = s.out) ∧
    (s.cmds.find? (tileWaits q) = none → Sys2Proof.Machine.exec (.tileLaunchStart q) s = .next (s.close s.clear)) ∧
    (s.cmds.find? (tileWaits q) = some c → c.tiles.find? (·.st == 0) = some t →
      let slot : Prop := (t.k < (tileHdr c.buf).nslot ∨ ∀ y ∈ c.tiles, y.k = t.k - (tileHdr c.buf).nslot → y.st = 4)
      (slot → Sys2Proof.Machine.exec (.tileLaunchStart q) s = .next (s.close (tileNext (s.clear.setCmd (setTile c { t with st := 1 })) c.id))) ∧
      (¬ slot → Sys2Proof.Machine.exec (.tileLaunchStart q) s = .next (s.close s.clear))) ∧
    (let turn := (courierOrder s).find? fun x => (resolveReady s k x).isSome || (ungroupedPlan s k x).any fun e => e.2.pl == .courier k
     (schRuns s = false ∨ windowOver s = true ∨ turn ≠ some q → Sys2Proof.Machine.exec (.tileResolveWrite q k) s = .next (s.close s.clear)) ∧
     (schRuns s = true → windowOver s = false → turn = some q → resolveReady s k q = some (c, t) → s.verdict (s.qPart q) (some q) (.place 2 k) = .free →
        s.cmd? c.id = some c → s.unit? s.nid = none → ∃ (y : State) (d : Cmd) (u : Wunit), y.units = s.units ++ [u] ∧ u.cmd = c.id ∧ u.place = .courier k ∧ u.ix = t.k ∧ u.deadline = none ∧
          u.start = s.time ∧ d.id = c.id ∧ d.body = c.body ∧ d.live = c.live + 1 ∧ d.tiles = (setTile c { t with st := 5, row := 0 }).tiles ∧ y.qs = s.qs ∧ y.gal = s.gal ∧ y.ops = s.ops ∧
          Sys2Proof.Machine.exec (.tileResolveWrite q k) s = .next (s.close (resolveRow (y.setCmd d) d { t with st := 5, row := 0 } u)))) ∧
    ((s.q q).st ≠ .disabled → s.ctlOn = true → s.coreUp 4 = true ∨ s.coreUp 5 = true → s.verdict (s.qPart q) (some q) (.queue q) = .free →
      (replacement s old new = true → ∃ e, Sys2Proof.Machine.exec (.migration q 0 old new) s = .next (s.close e) ∧
        mget old (e.q q).portMap old = new ∧ (e.q q).pepoch = (s.q q).pepoch + 1 ∧ (e.q q).removed.contains old = true ∧ (e.q q).removed.contains new = false ∧ (e.q q).stOff = (s.q q).stOff ∧
        e.cmds = (s.cmds.map fun c => if c.q = q ∧ (c.ran.any fun pl => match pl with | .stations .. => false | pl => onPort old pl) = true then { c with migrated := true } else c) ∧
        e.units = s.units ∧ e.gal = s.gal ∧ e.ph = s.ph ∧ (∀ x, x ≠ q → e.q x = s.q x)) ∧
      (replacement s old new = false → Sys2Proof.Machine.exec (.migration q 0 old new) s = .next (s.close s.clear)) ∧
      (old < s.b.eports → ∃ e, Sys2Proof.Machine.exec (.migration q 1 old new) s = .next (s.close e) ∧ (e.q q).removed.contains old = true ∧
        (e.q q).pepoch = (s.q q).pepoch + 1 ∧ (e.q q).portMap = (s.q q).portMap ∧ e.gal = s.gal ∧ e.units = s.units ∧ (∀ x, x ≠ q → e.q x = s.q x)) ∧
      (new < s.b.stations → ∃ e, Sys2Proof.Machine.exec (.migration q 2 old new) s = .next (s.close e) ∧ (e.q q).stOff = new ∧
        (e.q q).pepoch = (s.q q).pepoch + 1 ∧ (e.q q).portMap = (s.q q).portMap ∧ (e.q q).removed = (s.q q).removed ∧ e.gal = s.gal ∧ e.units = s.units ∧ (∀ x, x ≠ q → e.q x = s.q x)) ∧
      (2 < kind → Sys2Proof.Machine.exec (.migration q kind old new) s = .next (s.close s.clear)))

/-- A completion item ends its unit; the watchdog and the limit of an engine's reset; the end of a collective's part. For every state in which the control island runs and that the fatal halt has not taken past step 5: a completion item whose tag names no unit only raises the fault that it asks for; one whose queue's completion buffer is full waits. Another settles its unit, adds its digest, applies its signal to the pigeonhole with MAX, and ends the unit with its status, an unknown code as ENGINE_ERROR; a signal outside the allotment raises a fault instead and the status is ENGINE_ERROR, and a POISONED pigeonhole makes DONE UNCORRECTED. With XLATE_FAULT the unit ends as a failed translation. A unit whose deadline has passed raises the watchdog's fault and ends with WATCHDOG, an engine is reset, a passage stopped, a collective's part ended; before that nothing happens. An engine whose reset has passed its limit is reported failed. The first part of a queue's collectives that has ended, with room for its completion, settles its unit and completes the command with the part's status. (spec/06 R176, spec/18 R484, spec/04 R104, spec/04 R129, spec/15 R417) -/
def Obligations.EngineUnitsCompleteOrAreCutOff : Prop :=
  ∀ (s : State) (k q t : Nat) (w0 w1 w2 w3 : W64) (u : Wunit) (v : Collv), s.ctlOn = true → s.flt.halt < 6 →
    (k < s.b.eports →
      let z : State := if w0.toNat.testBit 38 then s.clear.raise (hwFault 10 3 k true none 0) else s.clear
      let st := engStatus (fieldOf w0 47 40)
      let sig := w0.toNat.testBit 39 && !(s.mirrored u.q && s.f F.ECH_STAT_ROLE == 5)
      let ph := fieldOf w0 20 0
      let y0 : State := settleUnit z u
      let y : State := match y0.cmd? u.cmd with
        | some c => if w0.toNat.testBit 37 then y0.setCmd { c with edig := c.edig + w2 } else y0
        | none => y0
      let ends (e : State) (st' : Status) : Prop := Sys2Proof.Machine.exec (.completionItem k w0 w1 w2 w3) s
        = .next (s.close (if st = .xlateFault then unitXfail e u (XKind.ofCode (fieldOf w0 36 33)) w3.toNat (fieldOf w0 32 31) else unitEnd e u st'))
      (unitByTag s k (fieldOf w0 63 48) = none → Sys2Proof.Machine.exec (.completionItem k w0 w1 w2 w3) s = .next (s.close z)) ∧
      (unitByTag s k (fieldOf w0 63 48) = some u → cbufFull s u.q = true → Sys2Proof.Machine.exec (.completionItem k w0 w1 w2 w3) s = .next (s.close z)) ∧
      (unitByTag s k (fieldOf w0 63 48) = some u → cbufFull s u.q = false →
        (sig = false → ends y st) ∧
        (sig = true → inAllot s u.part ph = false → ends (signalRange y k u.part (y.cmd? u.cmd)) .engineError) ∧
        (sig = true → inAllot s u.part ph = true → ∃ e, (e.row ph).value = ((phSignal y ph .max w1 none).1.row ph).value ∧ e.units = (phSignal y ph .max w1 none).1.units ∧
          ends e (if (phSignal y ph .max w1 none).2 = .poisoned ∧ st = .done then .uncorrected else st)))) ∧
    (s.unit? k = some u → u.deadline = some t →
      let f : Flt := ⟨1, 1, 1, true, false, u.place.num, some u.part, Status.watchdog.code, commonDetail 0 ((s.cmd? u.cmd).map Cmd.at) u.place.num 0 0 0 0, some u.cmd, none⟩
      let y : State := (s.clear.raise f).incF F.SCH_WD_FIRED 0
      (s.time < t → Sys2Proof.Machine.exec (.watchdogExpiry k) s = .next (s.close s.clear)) ∧
      (t ≤ s.time →
        (∀ e, u.place = .port e → Sys2Proof.Machine.exec (.watchdogExpiry k) s
          = .next (s.close (unitEnd (settleUnit (((resetEngine s.clear e).raise f).incF F.SCH_WD_FIRED 0) u) u .watchdog))) ∧
        (∀ a b, u.place = .stations a b → Sys2Proof.Machine.exec (.watchdogExpiry k) s = .next (s.close (stopPassage y u.cmd .watchdog))) ∧
        (∀ a, u.place = .relay a → ∃ e, Sys2Proof.Machine.exec (.watchdogExpiry k) s = .next (s.close (endPlaced (settleUnit e u) u.cmd .watchdog)) ∧ ∀ v ∈ e.colls, v.cmd ≠ u.cmd) ∧
        (u.place = .nmu ∨ (∃ a, u.place = .courier a) → Sys2Proof.Machine.exec (.watchdogExpiry k) s = .next (s.close (unitEnd (settleUnit y u) u .watchdog))))) ∧
    (∀ e, s.sch.resets.find? (·.1 == k) = some e → (e.2 ≤ s.time → Sys2Proof.Machine.exec (.engineResetLimitExpiry k) s = .next (s.close (portFailed s.clear k))) ∧
      (s.time < e.2 → Sys2Proof.Machine.exec (.engineResetLimitExpiry k) s = .next (s.close s.clear))) ∧
    ((s.colls.find? fun v => v.phase == 4 && (match s.cmd? v.cmd with
        | some c => c.q == q && !cbufFull s q
        | none => false)) = some v → Sys2Proof.Machine.exec (.collectiveEnd q) s
      = .next (s.close (endPlaced (settleUnits (collForget { s.clear with colls := s.colls.filter (·.cmd != v.cmd) }) v.cmd) v.cmd v.st)))

/-- Window boundaries, the major cycle, the end of RUN of an EXCLUSIVE window, SWAP and CANCEL. For every state of a permitted build: at the end of a window that is not the last the next window begins. At the end of the last one CYCLES goes up by one, a pending swap takes effect and is no longer pending, position and STRETCH begin at 0, CYCLE_T is the fabric time and window 0 begins. Where no window has ended neither happens. RUN of an EXCLUSIVE window whose LEN has passed, with another owner next, becomes TAIL and the position stands still; otherwise nothing. SWAP sets PEND when no check fails and shows the first failure otherwise; CANCEL clears PEND; both are noted by the letterbook. (spec/06 R165, spec/06 R166, spec/06 R175) -/
def Obligations.TimetablesTurnAndSwap : Prop :=
  ∀ s : State, s.b.Permitted →
    (windowOver s = true → s.sch.win + 1 < s.sch.active.length →
      Sys2Proof.Machine.exec .windowBoundary s = .next (s.close (beginWindow (leaveTail s.clear) (s.sch.win + 1) (nextSame s)))) ∧
    (∀ w b, let e := beginWindow s w b
      e.sch.win = w ∧ e.f F.SCH_TTSTAT_WIN = w % 2 ^ F.SCH_TTSTAT_WIN.w ∧ ttPos e = ttPos s ∧ e.cmds = s.cmds ∧ e.qs = s.qs ∧ e.gal = s.gal ∧
      (e.f F.SCH_TTSTAT_PHASE = if winExcl (s.sch.active.getD w (0, 65535)) = true ∧ b = false then 1 else 0)) ∧
    (windowOver s = false → Sys2Proof.Machine.exec .windowBoundary s = .next (s.close s.clear) ∧ Sys2Proof.Machine.exec .majorCycleBoundary s = .next (s.close s.clear)) ∧
    (windowOver s = true → s.sch.active.length ≤ s.sch.win + 1 → ∃ e, Sys2Proof.Machine.exec .majorCycleBoundary s = .next (s.close e) ∧
      e.f F.SCH_TTSTAT_CYCLES = (s.f F.SCH_TTSTAT_CYCLES + 1) % 2 ^ F.SCH_TTSTAT_CYCLES.w ∧ e.f F.SCH_CYCLE_T_T0 = s.time % 2 ^ F.SCH_CYCLE_T_T0.w ∧
      stretched e = 0 ∧ ttPos e = 0 ∧ e.sch.win = 0 ∧ e.f F.SCH_TTSTAT_WIN = 0 ∧ e.fb F.SCH_TTCTL_PEND = false ∧
      (s.fb F.SCH_TTCTL_PEND = true → e.sch.active = shadowWins s ∧ ∀ g < 16, e.f F.SCH_EGRP_ACT_PORTS g = s.f F.SCH_EGRP_PORTS g % 2 ^ F.SCH_EGRP_ACT_PORTS.w ∧
        e.f F.SCH_SGRP_ACT_STATIONS g = s.f F.SCH_SGRP_STATIONS g % 2 ^ F.SCH_SGRP_ACT_STATIONS.w) ∧
      (s.fb F.SCH_TTCTL_PEND = false → e.sch.active = s.sch.active ∧ ∀ g < 16, e.f F.SCH_EGRP_ACT_PORTS g = s.f F.SCH_EGRP_ACT_PORTS g ∧
        e.f F.SCH_SGRP_ACT_STATIONS g = s.f F.SCH_SGRP_ACT_STATIONS g) ∧
      e.gal = s.gal ∧ e.cmds = s.cmds ∧ e.qs = s.qs) ∧
    (let ends : Prop := (s.sch.started = true ∧ winExcl (curWin s) = true ∧ s.f F.SCH_TTSTAT_PHASE = 0 ∧ winEnd s s.sch.win ≤ ttPos s ∧ nextSame s = false)
     (ends → ∃ e, Sys2Proof.Machine.exec .exclusiveRunEnd s = .next (s.close e) ∧ e.f F.SCH_TTSTAT_PHASE = 2 ∧ e.sch.still = true ∧ ttPos e = ttPos s ∧
        e.sch.stretchAt = s.time ∧ e.units = s.units ∧ e.cmds = s.cmds ∧ e.qs = s.qs ∧ e.gal = s.gal) ∧
     (¬ ends → Sys2Proof.Machine.exec .exclusiveRunEnd s = .next (s.close s.clear))) ∧
    (WorkReady s →
      let n := hostWr s.clear none 0x30008 1
      (swapError s = none → Sys2Proof.Machine.exec .swap s = .next (s.close (((n.setF F.SCH_ERR_CAUSE 0 0).setF F.SCH_ERR_WHERE 0 0).setF F.SCH_TTCTL_PEND 0 1).ok)) ∧
      (∀ c w, swapError s = some (c, w) → Sys2Proof.Machine.exec .swap s = .next (s.close ((n.setF F.SCH_ERR_CAUSE 0 c).setF F.SCH_ERR_WHERE 0 w).ok))) ∧
    (HostReady s → Sys2Proof.Machine.exec .cancel s = .next (s.close ((hostWr s.clear none 0x30008 2).setF F.SCH_TTCTL_PEND 0 0).ok))

/-- A slot serves its owner's request: an admitted write stores its bytes and no other, a refused one stores nothing. For every state: a hall whose clock does not run serves nothing. One that runs goes on by one cycle, no other hall's cycle does, and the gallery keeps its canonical form. Where the gather buffers hold nothing, no stored word has an error and no injection is armed, and the hall's queue holds one request, of the slot's owner once a turn boundary that is due has passed, neither narrow nor a column nor masked: a write that every check admits makes each of its bytes read as the data and every other byte as before, and leaves the queue; an admitted read changes no byte; a request that a check refuses, or that is not sealed and meets an armed region that is not PERMISSIVE, leaves every byte as before and counts in REFUSED. A sealed access of an armed region is served like these when its line is empty for a write or full for a read: a write then sets the seal bit, and a read clears it but with PEEK; otherwise it waits at the head with the time it first waited. (spec/07 R182, spec/07 R186, spec/07 R188, spec/07 R190, spec/07 R194, spec/07 R195, spec/07 R196, spec/07 R197, spec/07 R206, spec/07 R508) -/
def Obligations.HallSlotsServeTheirOwner : Prop :=
  ∀ (s : State) (h : Nat),
    (hallRuns s h = false → Sys2Proof.Machine.exec (.hallSlotAccess h) s = .next (s.close s.clear)) ∧
    (hallRuns s h = true → ∃ e, Sys2Proof.Machine.exec (.hallSlotAccess h) s = .next (s.close e) ∧ (e.hall h).cyc = (s.hall h).cyc + 1 ∧ (e.hall h).turned = false ∧
      (∀ g, g < s.b.halls → g ≠ h → (e.hall g).cyc = (s.hall g).cyc ∧ (e.hall g).queue = (s.hall g).queue) ∧ (Memory.wf s.gal.cells → Memory.wf e.gal.cells) ∧
      e.qs = s.qs ∧ e.cmds = s.cmds ∧ e.ph = s.ph ∧
      ∀ r : HReq, s.gal.gather = [] → s.gal.err = [] → s.fb F.FLT_INJ_ARM = false → Memory.wf s.gal.cells → (s.hall h).queue = [r] → r.req ≠ 121 → r.narrow = false → r.col = false → r.mask = 0 →
        let y : State := turnStart s.clear h
        wheelOwner y h ((s.hall h).cyc % 32) = some r.req →
        let reads (f : Nat → Byte) : Prop := ∀ a, cellGet e.gal.cells a = f a
        let old (a : Nat) : Byte := cellGet s.gal.cells a
        let new (a : Nat) : Byte := if r.addr ≤ a ∧ a < r.addr + r.len then r.data.getD (a - r.addr) 0 else cellGet s.gal.cells a
        let full : Prop := r.addr / 512 ∈ s.gal.full
        (∀ st w, entryCheck y h r = (some st, w) → reads old ∧ (e.hall h).queue = [] ∧ e.f F.GAL_STAT_REFUSED = (s.f F.GAL_STAT_REFUSED + 1) % 2 ^ F.GAL_STAT_REFUSED.w) ∧
        (∀ w, entryCheck y h r = (none, w) →
          (unsealedHit y r = true → reads old ∧ (e.hall h).queue = [] ∧ e.f F.GAL_STAT_REFUSED = (s.f F.GAL_STAT_REFUSED + 1) % 2 ^ F.GAL_STAT_REFUSED.w) ∧
          (unsealedHit y r = false → r.sealed = false → (r.wr = true → r.data.length = r.len → reads new ∧ (e.hall h).queue = []) ∧ (r.wr = false → reads old ∧ (e.hall h).queue = [])) ∧
          (∀ g, r.sealed = true → regionOf s r.addr = some g → r.first = none →
            (r.wr = true → full → reads old ∧ (e.hall h).queue = [{ r with first := some s.time }]) ∧ (r.wr = false → ¬ full → reads old ∧ (e.hall h).queue = [{ r with first := some s.time }]) ∧
            (r.wr = true → ¬ full → r.data.length = r.len → reads new ∧ (e.hall h).queue = [] ∧ r.addr / 512 ∈ e.gal.full) ∧
            (r.wr = false → full → reads old ∧ (e.hall h).queue = [] ∧ (r.addr / 512 ∈ e.gal.full ↔ s.fb F.GAL_SEAL_MODE_PEEK g = true)))))

/-- Counters, write buffers, patrol; the host data port and the power of chambers. For every state: the oldest increment on its way is added, at 64 bits, to its counter, whose satisfied waiters are woken, and is gone. Each entry of a requester's line that has waited 64 cycles becomes due, and no other changes. With the patrol's period passed, a pass begins in every hall when none runs, and follows the one that runs otherwise; before that, or with no period, nothing. An access of GAL_HOST_DATA begins a privileged access of 8 bytes at the address of GAL_HOST_ADDR, which advances when AUTOINC is set; one of GAL_PW_DATA the same with the partition's address and identity. A write of GAL_CPWR_REQ takes each chamber's field that is not 3 and moves the hall's chambers. An opening that ends brings a chamber that was DIM to LIT and one that was DARK to ZEROING; zeroing that ends makes every byte of the chamber read 0 and leaves every byte of another as before; neither ends before its time. (spec/07 R182, spec/07 R184, spec/07 R193, spec/07 R200, spec/07 R203, spec/07 R204, spec/07 R205, spec/05 R152) -/
def Obligations.BuffersPatrolHostDataAndPower : Prop :=
  (∀ (s : State) (n k req line : Nat) (l : List (Nat × Nat)),
    (s.gal.incs = (n, k) :: l → s.ctlOn = true → Sys2Proof.Machine.exec .frankCounterIncrement s = .next (s.close
      (let t : State := { s.clear with gal := { s.gal with incs := l } }
       wakeMet (setFrank t n (s.frank n + BitVec.ofNat 64 k)) (.counter n) (s.frank n + BitVec.ofNat 64 k)))) ∧
    (s.gal.incs = [] ∨ s.ctlOn = false → Sys2Proof.Machine.exec .frankCounterIncrement s = .next (s.close s.clear)) ∧
    (∃ e, Sys2Proof.Machine.exec (.gatherEntryDue req line) s = .next (s.close e) ∧
      e.gal.gather = (s.gal.gather.map fun g => if g.req = req ∧ g.line = line ∧ 64 ≤ g.age then { g with due := true } else g) ∧ e.gal.cells = s.gal.cells ∧ e.flds = s.flds) ∧
    (let due : Prop := (s.f F.GAL_SCRUB_PATROL ≠ 0 ∧ s.ctlOn = true ∧ s.gal.patrolAt + s.f F.GAL_SCRUB_PATROL * 1000000 ≤ s.time)
     let idle : Prop := (∀ h < s.b.halls, (s.hall h).patrol = none ∨ s.domOn (s.b.domLogic h) = false)
     (due → ∃ e, Sys2Proof.Machine.exec .patrolPassStart s = .next (s.close e) ∧ e.gal.patrolAt = s.time ∧ e.gal.cells = s.gal.cells ∧
       (idle → e.gal.patrolNext = false ∧ ∀ h < s.b.halls, (e.hall h).patrol = some 0 ∧ (e.hall h).queue = (s.hall h).queue) ∧
       (¬ idle → e.gal.patrolNext = true ∧ ∀ h, e.hall h = s.hall h)) ∧
     (¬ due → Sys2Proof.Machine.exec .patrolPassStart s = .next (s.close s.clear)))) ∧
  (∀ (s : State) (h c p v t : Nat) (w : W64), s.b.Permitted →
    (HostReady s →
      let host : State := if s.fb F.GAL_HOST_ADDR_AUTOINC then s.clear.incF F.GAL_HOST_ADDR_ADDR 0 else s.clear
      let part : State := if s.fb F.GAL_PW_ADDR_AUTOINC p then s.clear.incF F.GAL_PW_ADDR_ADDR p else s.clear
      Sys2Proof.Machine.exec (.galHostDataAccess true w) s
        = .next (s.close (host.startOp (mkOp (.hostData none 2) ⟨0, none, true⟩ 112 .gal (8 * s.f F.GAL_HOST_ADDR_ADDR) 8 true (toBytes 8 w.toNat)))) ∧
      Sys2Proof.Machine.exec (.galHostDataAccess false w) s
        = .next (s.close (host.startOp (mkOp (.hostData none 1) ⟨0, none, true⟩ 112 .gal (8 * s.f F.GAL_HOST_ADDR_ADDR) 8 false (toBytes 8 0)))) ∧
      (Enabled s p →
        Sys2Proof.Machine.exec (.galPwDataAccess p true w) s
          = .next (s.close (part.startOp (mkOp (.hostData (some p) 2) ⟨p, none, false⟩ 112 .gal (8 * s.f F.GAL_PW_ADDR_ADDR p) 8 true (toBytes 8 w.toNat)))) ∧
        Sys2Proof.Machine.exec (.galPwDataAccess p false w) s
          = .next (s.close (part.startOp (mkOp (.hostData (some p) 1) ⟨p, none, false⟩ 112 .gal (8 * s.f F.GAL_PW_ADDR_ADDR p) 8 false (toBytes 8 0))))) ∧
      (h < s.b.halls → hostOk s = true → Sys2Proof.Machine.exec (.galCpwrReqWrite h v) s = .next (s.close (chambersGo (s.clear.setF F.GAL_CPWR_REQ_TARGETS h
        ((List.range 16).map fun c => (if v / 4 ^ c % 4 = 3 then s.target h c else v / 4 ^ c % 4) * 4 ^ c).sum) h).ok))) ∧
    (h < s.b.halls → c < 16 → s.pwr.chAt.find? (·.1 == 16 * h + c) = some (16 * h + c, t) →
      (s.time < t → Sys2Proof.Machine.exec (.chamberOpeningEnd h c) s = .next (s.close s.clear) ∧ Sys2Proof.Machine.exec (.chamberZeroingEnd h c) s = .next (s.close s.clear)) ∧
      (t ≤ s.time → s.chamber h c = 4 → s.pwr.fromDark.contains (16 * h + c) = true → Sys2Proof.Machine.exec (.chamberOpeningEnd h c) s
        = .next (s.close ((setPwr s.clear { s.pwr with chAt := mset s.pwr.chAt (16 * h + c) (s.time + 16000), fromDark := s.pwr.fromDark.filter (· != 16 * h + c) }).setChamber h c 5))) ∧
      (t ≤ s.time → s.chamber h c = 4 → s.pwr.fromDark.contains (16 * h + c) = false → Sys2Proof.Machine.exec (.chamberOpeningEnd h c) s
        = .next (s.close (chamberGo ((setPwr s.clear { s.pwr with chAt := mdel s.pwr.chAt (16 * h + c) }).setChamber h c 0) h c))) ∧
      (t ≤ s.time → s.chamber h c = 5 → Memory.wf s.gal.cells → ∃ e, Sys2Proof.Machine.exec (.chamberZeroingEnd h c) s = .next (s.close e) ∧ Memory.wf e.gal.cells ∧
        ∀ a, cellGet e.gal.cells a = if a / 512 % s.b.halls = h ∧ (a / 512 / s.b.halls + a % 512 / 32) % 16 = c then 0 else cellGet s.gal.cells a)))

/-- A change of owner, its end, SWAP and CANCEL of a wheel, and the turn boundary at which they take effect. For every state of a permitted build: a write of an ownership entry of a block that is not being scrubbed gives the entry its values, and when these differ from the old ones begins the scrub: STATE is 1 and each hall has the block among its new changes, or, off and all DARK, refuses its requests at once (a choice of the model, log 107). One of a block that is being scrubbed only sets GAL_ERR. When every hall has finished, the entry's values are the owner and STATE is 0; before that the row has no effect. SWAP sets PEND and CANCEL clears it. At the turn boundary of a hall whose clock runs a pending wheel and its mode become the active ones, the new changes of owner begin to be refused and scrubbed, and the drop windows that are open are those of the hall; no byte of the gallery and no request changes. Elsewhere in a turn the row has no effect. (spec/07 R185, spec/07 R188, spec/07 R199) -/
def Obligations.OwnersAndWheelsChangeAtTurnBoundaries : Prop :=
  ∀ (s : State) (blk v h : Nat), s.b.Permitted →
    (HostReady s → blk < s.b.galleryBytes / 65536 → blk < 8192 → v < 4294967296 →
      let same : Prop := (s.f F.GAL_OWN_VALID blk = v / 2 ^ 31 ∧ s.f F.GAL_OWN_CTXEN blk = v / 2 ^ 30 % 2 ∧ s.f F.GAL_OWN_CTX blk = v / 2 ^ 16 % 1024 ∧ s.f F.GAL_OWN_PART blk = v % 64)
      (s.f F.GAL_OWN_STATE blk = 1 → Sys2Proof.Machine.exec (.changeOfOwner blk v) s = .next (s.close ((s.clear.setF F.GAL_ERR_CAUSE 0 3).setF F.GAL_ERR_WHERE 0 blk).ok)) ∧
      (s.f F.GAL_OWN_STATE blk ≠ 1 → same → Sys2Proof.Machine.exec (.changeOfOwner blk v) s = .next (s.close s.clear.ok)) ∧
      (s.f F.GAL_OWN_STATE blk ≠ 1 → ¬ same → ∃ e : State, Sys2Proof.Machine.exec (.changeOfOwner blk v) s = .next (s.close e.ok) ∧ e.f F.GAL_OWN_STATE blk = 1 ∧
        e.f F.GAL_OWN_VALID blk = v / 2 ^ 31 ∧ e.f F.GAL_OWN_CTXEN blk = v / 2 ^ 30 % 2 ∧ e.f F.GAL_OWN_CTX blk = v / 2 ^ 16 % 1024 ∧ e.f F.GAL_OWN_PART blk = v % 64 ∧
        (∀ n, ownerOf e n = ownerOf s n) ∧ e.gal.cells = s.gal.cells ∧
        ∀ k < s.b.halls, (emptyHall s k = false → e.hall k = { s.hall k with newChange := (s.hall k).newChange ++ [blk] }) ∧
          (emptyHall s k = true → e.hall k = { s.hall k with changing := (s.hall k).changing ++ [blk] }))) ∧
    (scrubbedAll s blk = false → Sys2Proof.Machine.exec (.ownerScrubDone blk) s = .next (s.close s.clear)) ∧
    (scrubbedAll s blk = true → ∃ e, Sys2Proof.Machine.exec (.ownerScrubDone blk) s = .next (s.close e) ∧ e.f F.GAL_OWN_STATE blk = 0 ∧
      ownerOf e blk = ⟨s.fb F.GAL_OWN_VALID blk, s.fb F.GAL_OWN_CTXEN blk, s.f F.GAL_OWN_CTX blk, s.f F.GAL_OWN_PART blk⟩ ∧
      e.gal.cells = s.gal.cells ∧ (∀ n, n ≠ blk → ownerOf e n = ownerOf s n)) ∧
    (HostReady s → h < s.b.halls →
      (hostOk s = true → Sys2Proof.Machine.exec (.wheelSwap h) s = .next (s.close (s.clear.setF F.GAL_WHEEL_MODE_PEND h 1).ok)) ∧
      Sys2Proof.Machine.exec (.wheelCancel h) s = .next (s.close (s.clear.setF F.GAL_WHEEL_MODE_PEND h 0).ok)) ∧
    (let now : Prop := (hallRuns s h = true ∧ (s.hall h).cyc % 32 = 0 ∧ (s.hall h).turned = false)
     (¬ now → Sys2Proof.Machine.exec (.turnBoundary h) s = .next (s.close s.clear)) ∧
     (now → ∃ e, Sys2Proof.Machine.exec (.turnBoundary h) s = .next (s.close e) ∧ e.gal.cells = s.gal.cells ∧ e.fb F.GAL_WHEEL_MODE_PEND h = false ∧
      (s.fb F.GAL_WHEEL_MODE_PEND h = true → e.f F.GAL_WHEEL_MODE_MODE h = s.f F.GAL_WHEEL_MODE_MODESHD h % 2 ^ F.GAL_WHEEL_MODE_MODE.w ∧
        ∀ k < 4, e.f F.GAL_WHEEL_ACT_ENTRIES (4 * h + k) = s.f F.GAL_WHEEL_ENTRIES (4 * h + k) % 2 ^ F.GAL_WHEEL_ACT_ENTRIES.w) ∧
      (s.fb F.GAL_WHEEL_MODE_PEND h = false → e.f F.GAL_WHEEL_MODE_MODE h = s.f F.GAL_WHEEL_MODE_MODE h ∧ ∀ k < 4, e.f F.GAL_WHEEL_ACT_ENTRIES (4 * h + k) = s.f F.GAL_WHEEL_ACT_ENTRIES (4 * h + k)) ∧
      (e.hall h).turned = true ∧ (e.hall h).cyc = (s.hall h).cyc ∧ (e.hall h).changing = (s.hall h).changing ++ (s.hall h).newChange ∧ (e.hall h).newChange = [] ∧
      (e.hall h).queue = (s.hall h).queue ∧ (e.hall h).scrub = (s.hall h).scrub ++ (s.hall h).newChange.map (fun b => (b, 0)) ∧ (e.hall h).drops = s.setIdx F.GAL_PW_DROP_CTL_OPEN))

/-- Opening and closing a drop window, FORCE_CLOSE, DISARM, and the franking counters of a partition. For every state in which the register path runs, and, for OPEN and CLOSE, the partition is ENABLED and no replay makes its writes: the letterbook notes a write of the window's control; OPEN of a window that is not allotted to the partition sets ERR to 1, of an open one to 0; of a closed one it stores the fields and opens it with ERR 0 when its range lies in the partition's gallery and its counter is held, with ERR 2 or 3 otherwise. CLOSE of an open window closes it, of a closed one stores the fields, of one not allotted does nothing. The hypervisor's FORCE_CLOSE closes a window and DISARM disarms a seal region whose waiting accesses fail. A write of a partition's counter range takes LAST and BASE only while it is not enabled; enabled with a range that is empty or that meets another partition's it is refused with its cause, and is stored otherwise. (spec/07 R194, spec/07 R198, spec/07 R199) -/
def Obligations.DropWindowsSealsAndFrankRanges : Prop :=
  ∀ (s : State) (p w v : Nat), HostReady s → p < 64 →
    (Enabled s p → w = s.f F.GAL_PW_DROP_SEL_WIN p → v < 2 ^ 64 → windowReplayed s p = false →
      let n := s.clear.note (some p) true 0x15 none (0x1000000 + p * 65536 + 0xF220) v
      let a := (((n.setF F.GAL_PW_DROP_CTL_UNIT w (v / 2 ^ 62)).setF F.GAL_PW_DROP_CTL_COURIER w (v / 2 ^ 61)).setF F.GAL_PW_DROP_CTL_SRCCHIPS w (v / 2 ^ 32)).setF F.GAL_PW_DROP_CTL_COUNTER w v
      let size := s.f F.GAL_PW_DROP_RANGE_LINES w * 512
      let base := s.f F.GAL_PW_DROP_RANGE_BASE w * 512
      let mine : Prop := (s.fb F.GAL_DROP_ALLOT w = true ∧ s.f F.GAL_DROP_OWNER w = p)
      (2 ^ 63 ≤ v →
        (¬ mine → Sys2Proof.Machine.exec (.dropWindowOpen p v) s = .next (s.close (n.setF F.GAL_PW_DROP_CTL_ERRC p 1).ok)) ∧
        (mine → s.fb F.GAL_PW_DROP_CTL_OPEN w = true → Sys2Proof.Machine.exec (.dropWindowOpen p v) s = .next (s.close (n.setF F.GAL_PW_DROP_CTL_ERRC p 0).ok)) ∧
        (mine → s.fb F.GAL_PW_DROP_CTL_OPEN w = false →
          (size = 0 ∨ inGalleryRanges a p base size = false → Sys2Proof.Machine.exec (.dropWindowOpen p v) s = .next (s.close (a.setF F.GAL_PW_DROP_CTL_ERRC p 2).ok)) ∧
          (size ≠ 0 → inGalleryRanges a p base size = true → holdsCounter a p (a.f F.GAL_PW_DROP_CTL_COUNTER w) = false →
            Sys2Proof.Machine.exec (.dropWindowOpen p v) s = .next (s.close (a.setF F.GAL_PW_DROP_CTL_ERRC p 3).ok)) ∧
          (size ≠ 0 → inGalleryRanges a p base size = true → holdsCounter a p (a.f F.GAL_PW_DROP_CTL_COUNTER w) = true →
            Sys2Proof.Machine.exec (.dropWindowOpen p v) s = .next (s.close ((a.setF F.GAL_PW_DROP_CTL_ERRC p 0).setF F.GAL_PW_DROP_CTL_OPEN w 1).ok)))) ∧
      (v < 2 ^ 63 →
        (¬ mine → Sys2Proof.Machine.exec (.dropWindowClose p v) s = .next (s.close n.ok)) ∧
        (mine → s.fb F.GAL_PW_DROP_CTL_OPEN w = true → Sys2Proof.Machine.exec (.dropWindowClose p v) s = .next (s.close (n.setF F.GAL_PW_DROP_CTL_OPEN w 0).ok)) ∧
        (mine → s.fb F.GAL_PW_DROP_CTL_OPEN w = false → Sys2Proof.Machine.exec (.dropWindowClose p v) s = .next (s.close a.ok)))) ∧
    (w < 256 → Sys2Proof.Machine.exec (.forceClose w) s = .next (s.close (s.clear.setF F.GAL_PW_DROP_CTL_OPEN w 0).ok)) ∧
    (w < 64 → Sys2Proof.Machine.exec (.disarm w) s = .next (s.close (mirrorSeal ((failWaiting s.clear w).setF F.GAL_SEAL_MODE_ARMED w 0) w).ok)) ∧
    (let was := s.fb F.GAL_FRANK_PART_EN p
     let last := if was then s.f F.GAL_FRANK_PART_LAST p else v / 2 ^ 16 % 4096
     let base := if was then s.f F.GAL_FRANK_PART_BASE p else v % 4096
     let meets : Prop := (∃ o < 64, o ≠ p ∧ s.fb F.GAL_FRANK_PART_EN o = true ∧ s.f F.GAL_FRANK_PART_BASE o ≤ last ∧ base ≤ s.f F.GAL_FRANK_PART_LAST o)
     let err (c : Nat) : State := ((s.clear.setF F.GAL_ERR_CAUSE 0 c).setF F.GAL_ERR_WHERE 0 p).ok
     let put (en : Nat) : State := (((s.clear.setF F.GAL_FRANK_PART_LAST p last).setF F.GAL_FRANK_PART_BASE p base).setF F.GAL_FRANK_PART_EN p en).ok
     (v / 2 ^ 63 % 2 = 0 → Sys2Proof.Machine.exec (.galFrankPartWrite p v) s = .next (s.close (put 0))) ∧
     (v / 2 ^ 63 % 2 = 1 → (last < base → Sys2Proof.Machine.exec (.galFrankPartWrite p v) s = .next (s.close (err 2))) ∧
       (base ≤ last → meets → Sys2Proof.Machine.exec (.galFrankPartWrite p v) s = .next (s.close (err 1))) ∧
       (base ≤ last → ¬ meets → Sys2Proof.Machine.exec (.galFrankPartWrite p v) s = .next (s.close (put 1)))))

/-- Loads, starts and ends of a passage's stations, and the sequencer, feeder and emitter instructions. For every state: a loaded report crosses, and the last position's starts every station of the passage; an end report crosses, where the completion buffer has room, and the last one completes PASSAGE with DONE; the first failed position's report, where no record governs, is noted and halts the passage. An instruction row has no effect at a station that is not live; at a live one, once what finds room has been dispatched, it has no further effect where the sequencer stands at another instruction, or none of its opcode in the units' queues can go. NOP does nothing; END waits for earlier instructions and streams and ends the station; LOOP repeats its body, or skips it when its count is 0; XMOVI and XADD write their result; XFLG waits for earlier instructions, reads the flags, and clears them when asked; FSTART and ESTART add a stream; FPOP takes its bytes into a lane register; EPUSH pushes its bytes; EWAIT goes on. (spec/09 R243, spec/09 R247, spec/09 R248, spec/09 R249, spec/09 R251, spec/09 R252, spec/09 R258, spec/09 R259, spec/09 R260, spec/08 R234, spec/15 R417) -/
def Obligations.SequencersRunTheirPrograms : Prop :=
  ∀ (s v : State) (n first pos id : Nat) (w : W64) (c : Cmd) (pre r : List QIns) (q : QIns),
    let t : Stn := v.stn n
    (∀ m, (passageStations s first)[pos]? = some m → s.f F.STN_PSTAT_STATE m = 1 → (s.stn m).report = true →
      let y : State := s.clear.setStn m { s.stn m with report := false }
      ((∀ j ∈ passageStations s first, j ≠ m → s.f F.STN_PSTAT_STATE j = 1 ∧ (s.stn j).report = false) →
        Sys2Proof.Machine.exec (.stationLoaded first pos) s = .next (s.close ((passageStations s first).foldl (fun e j => dispatch (e.setF F.STN_PSTAT_STATE j 2) j) y))) ∧
      ((∃ j ∈ passageStations s first, j ≠ m ∧ (s.stn j).report = true) → Sys2Proof.Machine.exec (.stationLoaded first pos) s = .next (s.close y))) ∧
    (∀ m, (passageStations s first)[pos]? = some m → passageAt s first = some id → s.cmd? id = some c → cbufFull s c.q = false → s.f F.STN_PSTAT_STATE m = 4 → (s.stn m).report = true →
      let y : State := s.clear.setStn m { s.stn m with report := false }
      ((∀ j ∈ passageStations s first, j ≠ m → s.f F.STN_PSTAT_STATE j = 4 ∧ (s.stn j).report = false) →
        Sys2Proof.Machine.exec (.stationEnd first pos) s = .next (s.close (endPlaced (settleUnits y id) id .done))) ∧
      ((∃ j ∈ passageStations s first, j ≠ m ∧ (s.stn j).report = true) → Sys2Proof.Machine.exec (.stationEnd first pos) s = .next (s.close y))) ∧
    (∀ m, (passageStations s first).find? (fun n => (s.stn n).fail.isSome) = some m → passageAt s first = some id → s.cmd? id = some c →
      s.verdict (s.qPart c.q) (some c.q) (.queue c.q) = .free → Sys2Proof.Machine.exec (.streamFailureReport first) s
        = .next (s.close (stopPassage (s.clear.note (some (s.qPart c.q)) false 9 (some c.q) (sqOrd c.sq c.ord) (((s.stn m).fail.getD .uncorrected).code * 2 ^ 56 + s.f F.STN_PSTAT_POS m)) id ((s.stn m).fail.getD .uncorrected)))) ∧
    ((∀ m ∈ passageStations s first, (s.stn m).fail = none) → Sys2Proof.Machine.exec (.streamFailureReport first) s = .next (s.close s.clear)) ∧
    (let seq : List (Nat × Sys2Proof.Instr) := [(0x00, .stnNop n), (0x01, .end_ n), (0x02, .stnLoop n), (0x03, .xmovi n), (0x04, .xadd n), (0x05, .xflg n)]
     let units : List (Nat × Sys2Proof.Instr) := [(0x08, .fstart n), (0x09, .fpop n), (0x0C, .estart n), (0x0D, .epush n), (0x0E, .ewait n), (0x10, .tclr n), (0x12, .emit n), (0x18, .vadd n), (0x19, .vsub n),
       (0x1A, .vmul n), (0x1B, .vfma n), (0x1C, .vmin n), (0x1D, .vmax n), (0x1E, .vcmp n), (0x1F, .vsel n), (0x20, .vand n), (0x21, .vor n), (0x22, .vxor n), (0x23, .vshl n), (0x24, .vshr n), (0x25, .vcvt n),
       (0x26, .vfn n), (0x27, .vsum n), (0x28, .vbc n), (0x30, .rclr n), (0x31, .radd n), (0x32, .tolong n), (0x33, .resolve n), (0x34, .export_ n), (0x35, .import_ n)]
     (stnLive s n = false → (∀ x ∈ seq ++ units, Sys2Proof.Machine.exec x.2 s = .next (s.close s.clear)) ∧ Sys2Proof.Machine.exec (.mma n) s = .next (s.close s.clear)) ∧
     (v = dispatch s.clear n → stnLive s n = true →
       (∀ x ∈ seq, (stnIns v n).map (fun w => fieldOf w 63 58) ≠ some x.1 → Sys2Proof.Machine.exec x.2 s = .next (s.close v)) ∧
       (∀ x ∈ units, NoneGoes t x.1 t.dq → Sys2Proof.Machine.exec x.2 s = .next (s.close v)))) ∧
    (AtSeq s n 0x00 v w → Sys2Proof.Machine.exec (.stnNop n) s = .next (s.close (v.seqDone n))) ∧
    (AtSeq s n 0x01 v w → (t.dq ≠ [] ∨ t.push ≠ [] ∨ t.s0 ≠ [] ∨ t.s1 ≠ [] ∨ t.se ≠ [] → Sys2Proof.Machine.exec (.end_ n) s = .next (s.close v)) ∧
      (t.dq = [] → t.push = [] → t.s0 = [] → t.s1 = [] → t.se = [] → ∃ e : State, Sys2Proof.Machine.exec (.end_ n) s = .next (s.close (e.seqDone n)) ∧ e.f F.STN_PSTAT_STATE n = 4 ∧
        (e.stn n).report = true ∧ (e.stn n).f0 = [] ∧ (e.stn n).f1 = [] ∧ (e.stn n).eq = [] ∧ (e.stn n).l = t.l ∧ (e.stn n).tiles = t.tiles ∧ (e.stn n).w = t.w ∧
        (∀ m, m ≠ n → e.stn m = v.stn m) ∧ e.gal = v.gal)) ∧
    (AtSeq s n 0x02 v w → Sys2Proof.Machine.exec (.stnLoop n) s = .next (s.close ((v.setStn n
      (if (if w.toNat.testBit 56 then (xreg v n (fieldOf w 55 52)).toNat % 2 ^ 32 else fieldOf w 51 36) = 0 then { t with pc := t.pc + fieldOf w 35 26 }
        else { t with loops := (t.pc + 1, t.pc + 1 + fieldOf w 35 26, if w.toNat.testBit 56 then (xreg v n (fieldOf w 55 52)).toNat % 2 ^ 32 else fieldOf w 51 36) :: t.loops })).seqDone n))) ∧
    (AtSeq s n 0x03 v w → ∃ e : State, Sys2Proof.Machine.exec (.xmovi n) s = .next (s.close (e.seqDone n)) ∧
      xreg e n (iD w) = (if iD w = 0 then 0 else sext 32 (fieldOf w 31 0)) ∧ (∀ k, k < 16 → k ≠ iD w → xreg e n k = xreg v n k) ∧ e.stns = v.stns ∧ e.gal = v.gal) ∧
    (AtSeq s n 0x04 v w → ∃ e : State, Sys2Proof.Machine.exec (.xadd n) s = .next (s.close (e.seqDone n)) ∧
      xreg e n (iD w) = (if iD w = 0 then 0 else xreg v n (fieldOf w 52 49) + (if w.toNat.testBit 44 then sext 24 (fieldOf w 23 0) else xreg v n (fieldOf w 48 45))) ∧
      (∀ k, k < 16 → k ≠ iD w → xreg e n k = xreg v n k) ∧ e.stns = v.stns ∧ e.gal = v.gal) ∧
    (AtSeq s n 0x05 v w → (t.dq ≠ [] ∨ t.push ≠ [] → Sys2Proof.Machine.exec (.xflg n) s = .next (s.close v)) ∧
      (t.dq = [] → t.push = [] → ∃ e : State, Sys2Proof.Machine.exec (.xflg n) s = .next (s.close (e.seqDone n)) ∧
        xreg e n (iD w) = (if iD w = 0 then 0 else BitVec.ofNat 64 (v.f F.STN_PFLAGS_FLAGS n)) ∧ (∀ k, k < 16 → k ≠ iD w → xreg e n k = xreg v n k) ∧
        e.f F.STN_PFLAGS_FLAGS n = (if w.toNat.testBit 52 then 0 else v.f F.STN_PFLAGS_FLAGS n) ∧ e.stns = v.stns)) ∧
    (AtIns s n 0x08 v pre r q → Sys2Proof.Machine.exec (.fstart n) s = .next (s.close (State.insDone (v.setStn n (t.setStreams (fieldOf q.w 56 56)
      (t.streams (fieldOf q.w 56 56) ++ [mkStream t.sd (fieldOf q.w 55 53) q.x]))) n pre r))) ∧
    (AtIns s n 0x0C v pre r q → Sys2Proof.Machine.exec (.estart n) s = .next (s.close (State.insDone (v.setStn n { t with se := t.se ++ [mkStream t.sd (fieldOf q.w 55 53) q.x] }) n pre r))) ∧
    (AtIns s n 0x09 v pre r q → insStalls t q.w = false →
      let k := if iMod q.w % 2 = 1 then 64 * (iMod q.w / 2) else lane256 (iFmt q.w)
      let d := (pop v n (iA q.w) k).1
      ∃ u : State, Sys2Proof.Machine.exec (.fpop n) s = .next (s.close (u.insDone n pre r)) ∧ (∀ j, j ≠ iD q.w → (u.stn n).lane j = t.lane j) ∧
        (u.stn n).lane (iD q.w) = (if iMod q.w % 2 = 1 then d ++ (t.lane (iD q.w)).drop k else ofLanes (unpackElems (fmtOf (iFmt q.w)).width 256 d)) ∧
        (u.stn n).f0 = ((pop v n (iA q.w) k).2.stn n).f0 ∧ (u.stn n).f1 = ((pop v n (iA q.w) k).2.stn n).f1 ∧ LanesOnly u v n) ∧
    (AtIns s n 0x0D v pre r q → insStalls t q.w = false → ∃ u : State, Sys2Proof.Machine.exec (.epush n) s = .next (s.close (u.insDone n pre r)) ∧
      (u.stn n).eq ++ (u.stn n).push = t.eq ++ (if iMod q.w % 2 = 1 then (t.lane (iA q.w)).take (64 * (iMod q.w / 2)) else packElems (fmtOf (iFmt q.w)).width (lanesOf (t.lane (iA q.w)))) ∧
      (u.stn n).l = t.l ∧ (u.stn n).tiles = t.tiles ∧ (u.stn n).w = t.w ∧ (∀ m, m ≠ n → u.stn m = v.stn m) ∧ u.gal = v.gal) ∧
    (AtIns s n 0x0E v pre r q → insStalls t q.w = false → Sys2Proof.Machine.exec (.ewait n) s = .next (s.close (v.insDone n pre r)))

/-- Each vector instruction writes all lanes of its register with its function, joins the flags, and changes nothing else. For every station whose vector instruction is the next to go and does not stall: all 256 lanes of the destination take the function's result for the lanes or elements of the operands, popped in the order A, B, C; the flags are joined; the feeders lose what was popped; every other lane register, X register, tile and accumulator, the store and the emitter, the other stations, the gallery, the queues and the commands are as before. VSUM writes the tree sum to lane 0 and 0 elsewhere, VBC the low 32 bits of its X register, read at dispatch, to every lane. VCVT between plain formats rounds as its fields say, from MX it takes the scales of B, and to MX it packs the elements into its register and writes the 8 scales to lanes 0 to 7 of C. Integers wrap, or saturate when SAT is set. (spec/09 R246, spec/09 R254, spec/08 R216, spec/08 R218, spec/08 R219, spec/08 R226, spec/08 R227, spec/08 R228) -/
def Obligations.VectorInstructionsWriteEveryLane : Prop :=
  ∀ (s v : State) (n : Nat) (pre r : List QIns) (q : QIns), insStalls (v.stn n) q.w = false →
    let w := q.w
    let f : Fmt := fmtOf (iFmt w)
    let o1 (k : Nat) : List Nat × State := operand v n (iA w) k
    let o2 (k : Nat) : List Nat × State := operand (o1 k).2 n (iB w) k
    let o3 (k : Nat) : List Nat × State := operand (o2 k).2 n (iC w) k
    let a (k i : Nat) : Nat := (o1 k).1.getD i 0
    let b (k i : Nat) : Nat := (o2 k).1.getD i 0
    let c (k i : Nat) : Nat := (o3 k).1.getD i 0
    let F := iFmt w
    let go (i : Sys2Proof.Instr) (p : State) (g : Nat → Nat × Nat) : Prop := LanesGo s i n (iD w) v p pre r g
    let at_ (op : Nat) : Prop := AtIns s n op v pre r q
    (at_ 0x18 → go (.vadd n) (o2 F).2 fun i => VOp.add.eval f (iRnd v n q i) (iSat w) (a F i) (b F i)) ∧
    (at_ 0x19 → go (.vsub n) (o2 F).2 fun i => VOp.sub.eval f (iRnd v n q i) (iSat w) (a F i) (b F i)) ∧
    (at_ 0x1A → go (.vmul n) (o2 F).2 fun i => VOp.mul.eval f (iRnd v n q i) (iSat w) (a F i) (b F i)) ∧
    (at_ 0x1B → go (.vfma n) (o3 F).2 fun i => fma f (iRnd v n q i) (a F i) (b F i) (c F i)) ∧
    (at_ 0x1C → go (.vmin n) (o2 F).2 fun i => vMinMax false f (a F i) (b F i)) ∧
    (at_ 0x1D → go (.vmax n) (o2 F).2 fun i => vMinMax true f (a F i) (b F i)) ∧
    (at_ 0x1E → go (.vcmp n) (o2 F).2 fun i => (if vCompare f (iMod w) (a F i) (b F i) then 0xFFFFFFFF else 0, 0)) ∧
    (at_ 0x1F → go (.vsel n) (o3 0).2 fun i => (if c 0 i ≠ 0 then a 0 i else b 0 i, 0)) ∧
    (at_ 0x20 → go (.vand n) (o2 0).2 fun i => (a 0 i &&& b 0 i, 0)) ∧
    (at_ 0x21 → go (.vor n) (o2 0).2 fun i => (a 0 i ||| b 0 i, 0)) ∧
    (at_ 0x22 → go (.vxor n) (o2 0).2 fun i => (a 0 i ^^^ b 0 i, 0)) ∧
    (at_ 0x23 → go (.vshl n) (o1 0).2 fun i => (a 0 i * 2 ^ (iMod w % 32) % 2 ^ 32, 0)) ∧
    (at_ 0x24 → iMod w / 32 % 2 = 0 → go (.vshr n) (o1 0).2 fun i => (a 0 i / 2 ^ (iMod w % 32), 0)) ∧
    (at_ 0x24 → iMod w / 32 % 2 = 1 → go (.vshr n) (o1 0).2 fun i => ((BitVec.ofInt 32 ((BitVec.ofNat 32 (a 0 i)).toInt / 2 ^ (iMod w % 32))).toNat, 0)) ∧
    (at_ 0x25 → iMod w < 16 → F < 16 → go (.vcvt n) (o1 F).2 fun i => convert (fmtOf (iMod w)) (iRnd v n q i) (iSat w) (f.decode (a F i))) ∧
    (at_ 0x25 → iMod w < 16 → 16 ≤ F →
      let x : List Byte × State := if iA w < 16 then (((v.stn n).lane (iA w)).take (lane256 F), v) else pop v n (iA w) (lane256 F)
      go (.vcvt n) x.2 fun i => fromMx f ((lanesOf ((x.2.stn n).lane (iB w))).getD (i / 32) 0 % 256) ((unpackElems f.width 256 x.1).getD i 0) (iRnd v n q i)) ∧
    (at_ 0x25 → 16 ≤ iMod w →
      let block (k : Nat) : Nat × List Nat × Nat := toMx (fmtOf (iMod w)) (fun i => iRnd v n q (32 * k + i)) ((((o1 0).1.drop (32 * k)).take 32).map Fmt.fp32.decode)
      let d := packElems (fmtOf (iMod w)).width ((List.range 8).flatMap fun k => (block k).2.1)
      let new := d ++ ((v.stn n).lane (iD w)).drop d.length
      ∃ u : State, Sys2Proof.Machine.exec (.vcvt n) s = .next (s.close (u.insDone n pre r)) ∧ (iC w ≠ iD w → (u.stn n).lane (iD w) = new) ∧
        (u.stn n).lane (iC w) = ofLanes ((List.range 8).map (fun k => (block k).1) ++ (lanesOf (if iC w = iD w then new else (v.stn n).lane (iC w))).drop 8) ∧
        (∀ k, k ≠ iD w → k ≠ iC w → (u.stn n).lane k = (v.stn n).lane k) ∧ FlagsJoin u v n (((List.range 8).map block).foldl (fun x e => x ||| e.2.2) 0) ∧
        (u.stn n).f0 = ((o1 0).2.stn n).f0 ∧ (u.stn n).f1 = ((o1 0).2.stn n).f1 ∧ LanesOnly u v n) ∧
    (at_ 0x26 → go (.vfn n) (o1 F).2 fun i => vfnLane (iMod w) f (iRnd v n q i) (a F i)) ∧
    (at_ 0x27 → ∃ u : State, Sys2Proof.Machine.exec (.vsum n) s = .next (s.close (u.insDone n pre r)) ∧
      (u.stn n).lane (iD w) = ofLanes ((treeSum f 8 (o1 F).1).1 :: List.replicate 255 0) ∧ (∀ k, k ≠ iD w → (u.stn n).lane k = (v.stn n).lane k) ∧
      FlagsJoin u v n (treeSum f 8 (o1 F).1).2 ∧ (u.stn n).f0 = ((o1 F).2.stn n).f0 ∧ (u.stn n).f1 = ((o1 F).2.stn n).f1 ∧ LanesOnly u v n) ∧
    (at_ 0x28 → go (.vbc n) v fun _ => (q.x.toNat % 2 ^ 32, 0)) ∧
    (∀ (md : Rnd) (x y : BitVec 32), VOp.add.eval .int32 md false x.toNat y.toNat = ((x + y).toNat, 0) ∧ VOp.sub.eval .int32 md false x.toNat y.toNat = ((x - y).toNat, 0) ∧
      VOp.mul.eval .int32 md false x.toNat y.toNat = ((x * y).toNat, 0) ∧
      (-(2 : Int) ^ 31 ≤ x.toInt + y.toInt → x.toInt + y.toInt < 2 ^ 31 → (VOp.add.eval .int32 md true x.toNat y.toNat) = ((x + y).toNat, 0)) ∧
      (2 ^ 31 ≤ x.toInt + y.toInt → VOp.add.eval .int32 md true x.toNat y.toNat = (2 ^ 31 - 1, fSaturate)))

/-- Array and reducer instructions; sums of long accumulators do not depend on order. For every station at which one of these instructions is the next to go and does not stall: TCLR clears its tile and sets its mode and origin. MMA takes what its feeders hold of its operands, and once it has them all gives every cell of its tile its k steps, of a tile cleared first where its width differs; no other tile, lane, accumulator or station changes. EMIT gives its tile, in rows or columns, to four lane registers or to the emitter. RCLR clears its run of accumulators. RADD adds each element of its operand to one accumulator or to that of its column; TOLONG adds a row of its tile to the first 32 accumulators, a wide one by a free value of its accumulators; IMPORT adds or replaces its run; RESOLVE writes the lanes that it names; EXPORT pushes 40 bytes for each accumulator. Contributions of weight 1 within the limit give the same accumulator in any order. (spec/09 R247, spec/09 R249, spec/09 R253, spec/09 R255, spec/08 R220, spec/08 R222, spec/08 R223, spec/08 R224, spec/08 R229, spec/08 R230, spec/08 R231) -/
def Obligations.TilesAndAccumulatorsTakeTheirSums : Prop :=
  ∀ (s v : State) (n : Nat) (pre r : List QIns) (q : QIns),
    let w := q.w
    let t : Stn := v.stn n
    let F : Fmt := fmtOf (iFmt w)
    let at_ (op : Nat) : Prop := AtIns s n op v pre r q ∧ insStalls t w = false
    let same (u : State) : Prop := (u.stn n).l = t.l ∧ (u.stn n).store = t.store ∧ (∀ m, m ≠ n → u.stn m = v.stn m) ∧ u.gal = v.gal ∧ u.qs = v.qs ∧ u.cmds = v.cmds
    (at_ 0x10 → ∃ u : State, Sys2Proof.Machine.exec (.tclr n) s = .next (s.close (u.insDone n pre r)) ∧
      (u.stn n).tile (iT w) = ⟨w.toNat.testBit 54, toSigned 9 (fieldOf w 53 45), false, []⟩ ∧ (∀ k, k ≠ iT w → (u.stn n).tile k = t.tile k) ∧ (u.stn n).w = t.w ∧ same u) ∧
    (at_ 0x11 →
      let m : Stn := mmaTake t w
      let fa := fieldOf w 44 40
      let fb := fieldOf w 39 35
      let k := fieldOf w 34 20
      (m.st0.length < mmaNeed w 0 ∨ m.st1.length < mmaNeed w 1 → Sys2Proof.Machine.exec (.mma n) s = .next (s.close (stnGo (v.setStn n m) n))) ∧
      (mmaNeed w 0 ≤ m.st0.length → mmaNeed w 1 ≤ m.st1.length → ∃ u : State, Sys2Proof.Machine.exec (.mma n) s = .next (s.close (u.insDone n pre r)) ∧
        (∀ j, j ≠ iT w → (u.stn n).tile j = t.tile j) ∧ (u.stn n).w = t.w ∧ same u ∧
        let src (second : Bool) : List Byte × Nat × Nat := mmaSource m w second
        let as : List (List Nat) := (List.range k).map fun i => stepElems fa (src false).1 i (src false).2.1 (src false).2.2
        let bs : List (List Nat) := (List.range k).map fun i => stepElems fb (src true).1 i (src true).2.1 (src true).2.2
        let old : Tile := if (t.tile (iT w)).wide = wideFmt fa then t.tile (iT w) else ⟨wideFmt fa, 0, false, []⟩
        ∀ x, x < 1024 → mget {} ((u.stn n).tile (iT w)).cells x = (mmaCell fa fb k old.e0 as bs (t.lane (fieldOf w 19 16)) x (mget {} old.cells x)).1)) ∧
    (at_ 0x12 →
      let tl : Tile := t.tile (iT w)
      let out (i : Nat) : Nat :=
        let x := if w.toNat.testBit 53 then i % 32 * 32 + i / 32 else i
        ((mget {} tl.cells x).emit tl.wide tl.origin F (iRnd v n q x) (iSat w)).1
      ∃ u : State, Sys2Proof.Machine.exec (.emit n) s = .next (s.close (u.insDone n pre r)) ∧ (u.stn n).tiles = t.tiles ∧ (u.stn n).w = t.w ∧ (∀ m, m ≠ n → u.stn m = v.stn m) ∧ u.gal = v.gal ∧
        (w.toNat.testBit 54 = true → (u.stn n).l = t.l ∧ (u.stn n).eq ++ (u.stn n).push = t.eq ++ packElems F.width ((List.range 1024).map out)) ∧
        (w.toNat.testBit 54 = false → (u.stn n).eq = t.eq ∧ (u.stn n).push = t.push ∧ (∀ k, k < 4 → (u.stn n).lane (fieldOf w 52 49 + k) = ofLanes ((List.range 256).map fun i => out (256 * k + i))) ∧
          ∀ k, k < fieldOf w 52 49 ∨ fieldOf w 52 49 + 4 ≤ k → (u.stn n).lane k = t.lane k)) ∧
    (at_ 0x30 → ∃ u : State, Sys2Proof.Machine.exec (.rclr n) s = .next (s.close (u.insDone n pre r)) ∧ (∀ k, iB w ≤ k → k ≤ iB w + iC w → (u.stn n).long k = {}) ∧
      (∀ k, k < iB w ∨ iB w + iC w < k → (u.stn n).long k = t.long k) ∧ (u.stn n).tiles = t.tiles ∧ same u) ∧
    (at_ 0x31 → ∃ u : State, Sys2Proof.Machine.exec (.radd n) s = .next (s.close (u.insDone n pre r)) ∧ (u.stn n).tiles = t.tiles ∧ same u ∧
      let a := (operand v n (iA w) (iFmt w)).1
      let add (x : Long) (e : Nat) : Long := (x.add (F.decode e) 1).1
      (iMod w % 2 = 1 → (∀ k, k ≠ iB w → (u.stn n).long k = t.long k) ∧ (u.stn n).long (iB w) = a.foldl add (t.long (iB w))) ∧
      (iMod w % 2 = 0 → (∀ k, 32 ≤ k → (u.stn n).long k = t.long k) ∧ ∀ k, k < 32 → (u.stn n).long k = ((List.range 8).map fun j => a.getD (32 * j + k) 0).foldl add (t.long k))) ∧
    (at_ 0x32 → ∃ u : State, Sys2Proof.Machine.exec (.tolong n) s = .next (s.close (u.insDone n pre r)) ∧ (u.stn n).tiles = t.tiles ∧ same u ∧ (∀ k, 32 ≤ k → (u.stn n).long k = t.long k) ∧
      ∀ k, k < 32 →
        let c := mget {} (t.tile (iT w)).cells (32 * (if w.toNat.testBit 54 then q.x.toNat % 32 else iA w) + k)
        (u.stn n).long k = (if (t.tile (iT w)).wide then (t.long k).add (Fmt.fp32.decode (Config.tolongWide c.wide % 2 ^ 32)) (2 ^ 42) else (t.long k).addCell c (t.tile (iT w)).origin).1) ∧
    (at_ 0x33 → ∃ u : State, Sys2Proof.Machine.exec (.resolve n) s = .next (s.close (u.insDone n pre r)) ∧ (u.stn n).w = t.w ∧ (u.stn n).tiles = t.tiles ∧ (∀ m, m ≠ n → u.stn m = v.stn m) ∧ u.gal = v.gal ∧
      (∀ k, k ≠ iD w → (u.stn n).lane k = t.lane k) ∧ (u.stn n).lane (iD w) = ofLanes ((lanesOf (t.lane (iD w))).take (iMod w / 4) ++
        ((List.range (iC w + 1)).map fun m => ((t.long (iB w + m)).resolve F (iRnd v n q m) false).1) ++ (lanesOf (t.lane (iD w))).drop (iMod w / 4 + iC w + 1))) ∧
    (at_ 0x34 → ∃ u : State, Sys2Proof.Machine.exec (.export_ n) s = .next (s.close (u.insDone n pre r)) ∧ (u.stn n).w = t.w ∧ (u.stn n).tiles = t.tiles ∧ same u ∧
      (u.stn n).eq ++ (u.stn n).push = t.eq ++ (List.range (iC w + 1)).flatMap fun m => toBytes 40 ((t.long (iB w + m)).export).1) ∧
    (at_ 0x35 → ∃ u : State, Sys2Proof.Machine.exec (.import_ n) s = .next (s.close (u.insDone n pre r)) ∧ (u.stn n).tiles = t.tiles ∧ same u ∧
      (∀ k, k < iB w ∨ iB w + iC w < k → (u.stn n).long k = t.long k) ∧
      ∀ m, m < iC w + 1 →
        let x := (Long.import (ofBytes (((pop v n (iA w) (40 * (iC w + 1))).1.drop (40 * m)).take 40))).1
        (u.stn n).long (iB w + m) = if iMod w % 2 = 1 then { x with weight := 2 ^ 42 } else ((t.long (iB w + m)).addImport x).1) ∧
    (∀ (x : Long) (l l' : List FV), l.Perm l' → x.weight + l.length ≤ 2 ^ 58 → l.foldl (fun x v => (x.add v 1).1) x = l'.foldl (fun x v => (x.add v 1).1) x)

/-- An engine's translation request, writes of a context, XLT_MIGR_POP and the decay of the access counters. For every state: an engine's request with the UTAG of one of its units and the unit's context begins a translation alone with the unit's identity, none while the unit's command is held; any other is answered PROTECTION with a fault. EN = 0 of a context that a queue which is not DISABLED uses sets XLT_ERR and changes nothing else; another write of its words stores the fields, PART only where EN was 0. A pop drops the oldest notice and clears LOST, and lowers the line when it was the last. Each decay period halves every counter, removing those that become 0; before its end, or with DECAY 0, nothing happens. (spec/10 R265, spec/10 R266, spec/10 R280, spec/10 R290) -/
def Obligations.EngineTranslationsAndContexts : Prop :=
  ∀ (s : State) (k ut rt ctx va acc v : Nat),
    (s.ctlOn = true → s.flt.halt < 6 → k < s.b.eports →
      (∀ u, unitByTag s k ut = some u → s.qCtx u.q = ctx →
        (s.cmdHeld u.cmd = false → Sys2Proof.Machine.exec (.translationRequest k ut rt ctx va acc) s
          = .next (s.close (s.clear.startOp { mkOp (.engXl k ut rt acc) ⟨u.part, some ctx, false⟩ k .va va 1 (acc == 1) [] with xlOnly := true, acc }))) ∧
        (s.cmdHeld u.cmd = true → Sys2Proof.Machine.exec (.translationRequest k ut rt ctx va acc) s = .next (s.close s.clear))) ∧
      ((∀ u, unitByTag s k ut = some u → s.qCtx u.q ≠ ctx) → Sys2Proof.Machine.exec (.translationRequest k ut rt ctx va acc) s
        = .next (s.close ((s.clear.emit (.eXl k rt .protection 0 .gallery 0 (s.f F.XLT_CTX_EPOCH ctx))).raise
            { hwFault 5 2 k false ((unitByTag s k ut).map (·.part)) va with prog := true })))) ∧
    (HostReady s → ctx < 1024 →
      let used : Prop := v / 2 ^ 63 % 2 = 0 ∧ s.fb F.XLT_CTX_EN ctx = true ∧ ∃ e ∈ s.qs, e.2.st ≠ .disabled ∧ s.qCtx e.1 = ctx
      let y : State := if s.fb F.XLT_CTX_EN ctx then s.clear else s.clear.setF F.XLT_CTX_PART ctx (v / 2 ^ 48)
      (used → Sys2Proof.Machine.exec (.xltCtxWrite ctx 0 v) s = .next (s.close ((s.clear.setF F.XLT_ERR_CAUSE 0 1).setF F.XLT_ERR_WHERE 0 ctx).ok)) ∧
      (¬ used → Sys2Proof.Machine.exec (.xltCtxWrite ctx 0 v) s
        = .next (s.close ((((y.setF F.XLT_CTX_EN ctx (v / 2 ^ 63 % 2)).setF F.XLT_CTX_SEC ctx (v / 2 ^ 62)).setF F.XLT_CTX_MMEN ctx (v / 2 ^ 47)).setF F.XLT_CTX_SEGCNT ctx (v / 2 ^ 40)).ok)) ∧
      Sys2Proof.Machine.exec (.xltCtxWrite ctx 1 v) s = .next (s.close (s.clear.setF F.XLT_CTX_SEGBASE ctx (v / 2 ^ 12)).ok) ∧
      Sys2Proof.Machine.exec (.xltCtxWrite ctx 2 v) s = .next (s.close (s.clear.setF F.XLT_CTX_MMROOT ctx (v / 2 ^ 12)).ok)) ∧
    (HostReady s →
      let y : State := if s.xlt.notes.length = 1 then s.clear.emit (.gintLevel false) else s.clear
      Sys2Proof.Machine.exec .xltMigrPop s = .next (s.close (State.setF { y with xlt := { s.xlt with notes := s.xlt.notes.tail } } F.XLT_MIGR_NOTE_LOST 0 0).ok)) ∧
    (s.ctlOn = true →
      let d := s.f F.XLT_ACNT_CFG_DECAY * 1000000
      (d ≠ 0 → s.xlt.decayAt + d ≤ s.time → ∃ e, Sys2Proof.Machine.exec .accessCounterDecay s = .next (s.close e) ∧ e.xlt.decayAt = s.xlt.decayAt + d ∧
        (∀ i n, (i, n) ∈ e.xlt.acnt ↔ n ≠ 0 ∧ ∃ m, (i, m) ∈ s.xlt.acnt ∧ n = m / 2) ∧ e.flds = s.flds ∧ e.gal = s.gal ∧ e.qs = s.qs ∧ e.xlt.notes = s.xlt.notes) ∧
      (d = 0 ∨ s.time < s.xlt.decayAt + d → Sys2Proof.Machine.exec .accessCounterDecay s = .next (s.close s.clear)))

/-- Invalidations drain their context; page faults are set aside and resumed. For every state: GO through a window that is not BUSY sets BUSY and the invalidation waits; one of a context of another partition, of scope 3 or of a range out of its rules sets ERR alone; while BUSY nothing is written. While fewer than 16 are in progress the first waiting one of a context that has none begins: its context drains; one of a segment first reads the segment's entry; any other moves its context to the next epoch, keeps no cached entry it covers, empties every engine's buffer of the context and asks each port that holds translations of it to drain. An engine's report for that epoch takes its port off; another changes nothing. An invalidation with every port drained and every access of the old epoch answered completes: its command ends with DONE, or its window's count rises and BUSY falls; before that nothing happens. A port that has not drained within the limit is reported and its engine reset, and its unit ends with ENGINE_ERROR. The oldest access that met a page fault ends for the command or fetch it serves, and nothing happens when there is none. RETRY of a queue of the partition runs every command it has set aside again from its beginning, and its fetch, and FAIL completes them with XLATE_FAULT, each noted by the letterbook; for a queue of another partition, one whose inputs a replay run makes, and the other ACTION, nothing happens. A command or fetch set aside for LIMIT milliseconds fails so too; none when LIMIT is 0. (spec/10 R278, spec/10 R282, spec/10 R283, spec/10 R284, spec/10 R285, spec/10 R286, spec/10 R287, spec/10 R288, spec/17 R456, spec/17 R462) -/
def Obligations.InvalidationsDrainAndPageFaultsResume : Prop :=
  (
    ∀ (s : State) (p v k ctx ep id : Nat) (i : Inv),
      (HostReady s → Enabled s p → hostOk s = true →
        (s.fb F.XLT_PW_INV_CTL_BUSY p = true → Sys2Proof.Machine.exec (.invalidationGo p v) s = .next (s.close s.clear.ok)) ∧
        (s.fb F.XLT_PW_INV_CTL_BUSY p = false → v / 2 ^ 63 % 2 = 1 →
          let y : State := if v / 2 ^ 61 % 2 = 1 then s.clear.setF F.XLT_PW_INV_CTL_ERR p 0 else s.clear
          let t : State := ((y.setF F.XLT_PW_INV_CTL_SCOPE p (v / 2 ^ 16)).setF F.XLT_PW_INV_CTL_SEG p (v / 2 ^ 10)).setF F.XLT_PW_INV_CTL_CTX p v
          let a := s.f F.XLT_PW_INV_START_START p
          let n := s.f F.XLT_PW_INV_LEN_LENGTH p
          let bad : Prop := s.f F.XLT_CTX_PART (v % 1024) ≠ p ∨ v / 2 ^ 16 % 4 = 3 ∨ (v / 2 ^ 16 % 4 = 2 ∧ (a % 4096 ≠ 0 ∨ n % 4096 ≠ 0 ∨ n = 0))
          (bad → Sys2Proof.Machine.exec (.invalidationGo p v) s = .next (s.close (t.setF F.XLT_PW_INV_CTL_ERR p 1).ok)) ∧
          (¬ bad → Sys2Proof.Machine.exec (.invalidationGo p v) s
            = .next (s.close (addInval ((t.setF F.XLT_PW_INV_CTL_ERR p 0).setF F.XLT_PW_INV_CTL_BUSY p 1) (v % 1024) (v / 2 ^ 16 % 4) (v / 2 ^ 10 % 64) a n none (some p)).ok)))) ∧
      (s.ctlOn = true → s.halted = false →
        let busy := s.xlt.invs.filter fun x => x.step != 0
        let next := s.xlt.invs.find? fun x => x.step == 0 && !busy.any fun w => w.ctx == x.ctx
        let ep' := (s.f F.XLT_CTX_EPOCH i.ctx + 1) % 4294967296
        (16 ≤ busy.length ∨ next = none → Sys2Proof.Machine.exec .invalidationBegin s = .next (s.close s.clear)) ∧
        (busy.length < 16 → next = some i → i.scope ≠ 1 → ∃ e, Sys2Proof.Machine.exec .invalidationBegin s = .next (s.close e) ∧
          e.f F.XLT_CTX_DRAINING i.ctx = 1 ∧ e.f F.XLT_CTX_EPOCH i.ctx = ep' ∧ (∀ t ∈ e.xlt.stc, t.ctx = i.ctx → invCovers i none t = false ∧ t.epoch = ep') ∧
          (∀ t, t.ctx ≠ i.ctx → (t ∈ e.xlt.stc ↔ t ∈ s.xlt.stc)) ∧ (∀ b ∈ e.xlt.etb, ∀ t ∈ b.2, t.ctx ≠ i.ctx) ∧
          e.xlt.invs = s.xlt.invs.map (fun x => if x.id = i.id then { i with step := 3, since := s.time, epoch := ep', ops := outTags s i.ctx, ports := (List.range s.b.eports).filter fun k => (mget [] s.xlt.held k).contains i.ctx } else x) ∧
          e.gal = s.gal ∧ e.cmds = s.cmds) ∧
        (busy.length < 16 → next = some i → i.scope = 1 → Sys2Proof.Machine.exec .invalidationBegin s
          = .next (s.close ((setInv ((s.clear.setF F.XLT_CTX_DRAINING i.ctx 1).incF F.XLT_STAT_INVACTIVE 0) { i with step := 2 }).startOp
              (mkOp (.invSeg i.id) ⟨s.f F.XLT_CTX_PART i.ctx, some i.ctx, false⟩ 112 (.spans [⟨0, 32, s.f F.XLT_CTX_SEGBASE i.ctx * 4096 + 32 * i.seg, .mem false 0⟩]) 0 32 false []))))) ∧
      (s.ctlOn = true → k < s.b.eports →
        let hit (x : Inv) : Bool := x.ctx == ctx && x.step == 3 && x.epoch == ep && x.ports.contains k
        (s.xlt.invs.any hit = true → Sys2Proof.Machine.exec (.drained k ctx ep) s = .next (s.close { s.clear with xlt := { s.xlt with
          held := mset s.xlt.held k ((mget [] s.xlt.held k).filter (· != ctx)), invs := s.xlt.invs.map fun x => if hit x then { x with ports := x.ports.filter (· != k) } else x } })) ∧
        (s.xlt.invs.any hit = false → Sys2Proof.Machine.exec (.drained k ctx ep) s = .next (s.close s.clear))) ∧
      (s.ctlOn = true → s.xlt.invs.find? (·.id == id) = some i →
        let y : State := (s.clear.setF F.XLT_CTX_DRAINING i.ctx 0).setF F.XLT_STAT_INVACTIVE 0 (s.f F.XLT_STAT_INVACTIVE - 1)
        let t : State := retranslateWatches (retranslateRings { y with xlt := { s.xlt with invs := s.xlt.invs.filter (·.id != id) } } i.ctx) i.ctx
        (invReady s i = true → i.cmd = none → i.pw = some p → Sys2Proof.Machine.exec (.invalidationComplete id) s
          = .next (s.close ((t.setF F.XLT_PW_INV_CTL_BUSY p 0).incF F.XLT_PW_INV_DONE_COUNT p))) ∧
        (invReady s i = true → i.cmd = some p → i.pw = none → Sys2Proof.Machine.exec (.invalidationComplete id) s = .next (s.close (endCmd t p .done))) ∧
        (invReady s i = false → Sys2Proof.Machine.exec (.invalidationComplete id) s = .next (s.close s.clear)) ∧
        (let late : Prop := i.step = 3 ∧ i.ports.contains k = true ∧ i.since + max 1 (s.f F.XLT_INVCFG_ELIMIT) * 1000 ≤ s.time ∧ s.sch.resets.any (fun e => e.1 == k) = false
         let r : State := resetEngine (((s.clear.raise (hwFault 5 3 k true none 0)).setF F.XLT_ERR_CAUSE 0 2).setF F.XLT_ERR_WHERE 0 k) k
         (late → s.units.find? (fun u => onPort k u.place) = none → Sys2Proof.Machine.exec (.elimitExpiry id k) s = .next (s.close r)) ∧
         (∀ u, late → s.units.find? (fun u => onPort k u.place) = some u → Sys2Proof.Machine.exec (.elimitExpiry id k) s = .next (s.close (unitEnd (settleUnit r u) u .engineError))) ∧
         (¬ late → Sys2Proof.Machine.exec (.elimitExpiry id k) s = .next (s.close s.clear))))) ∧
  (
    ∀ (s : State) (p v : Nat) (o : Op),
      (s.ops.find? isPageFault = some o → Sys2Proof.Machine.exec .pageFault s = .next (s.close (finishOp { s.clear with ops := s.ops.filter (·.id != o.id) } o))) ∧
      (s.ops.find? isPageFault = none → Sys2Proof.Machine.exec .pageFault s = .next (s.close s.clear)) ∧
      (HostReady s → Enabled s p → hostOk s = true →
        let q := v % 4096
        let n : State := hostWr s.clear none (0x1000000 + p * 65536 + 0xF300) v
        let r : State := (asides s q).foldl retryCmd n
        let f : State := (asides s q).foldl (fun e c => match e.cmd? c.id with
          | some c => failCmd e c
          | none => e) n
        (s.qPart q ≠ p ∨ inputsReplayed s q = true → Sys2Proof.Machine.exec (.retry p v) s = .next (s.close s.clear.ok) ∧ Sys2Proof.Machine.exec (.fail p v) s = .next (s.close s.clear.ok)) ∧
        (v / 2 ^ 62 % 4 ≠ 1 → Sys2Proof.Machine.exec (.retry p v) s = .next (s.close s.clear.ok)) ∧
        (v / 2 ^ 62 % 4 ≠ 2 → Sys2Proof.Machine.exec (.fail p v) s = .next (s.close s.clear.ok)) ∧
        (s.qPart q = p → inputsReplayed s q = false → v / 2 ^ 62 % 4 = 1 →
          Sys2Proof.Machine.exec (.retry p v) s = .next (s.close (if (s.q q).asideFetch.isSome then retryFetch r q else r).ok)) ∧
        (s.qPart q = p → inputsReplayed s q = false → v / 2 ^ 62 % 4 = 2 →
          Sys2Proof.Machine.exec (.fail p v) s = .next (s.close (if (s.q q).asideFetch.isSome then failFetch f q else f).ok))) ∧
      (s.ctlOn = true →
        let lim := s.f F.XLT_PFCFG_LIMIT * 1000000
        let e : State := (asides s p).foldl (fun e c => match c.st with
          | .aside t => if t + lim ≤ e.time then failCmd e c else e
          | _ => e) s.clear
        (lim ≠ 0 → (e.q p).asideFetch = none → Sys2Proof.Machine.exec (.setAsideLimitExpiry p) s = .next (s.close e)) ∧
        (∀ t, lim ≠ 0 → (e.q p).asideFetch = some t → Sys2Proof.Machine.exec (.setAsideLimitExpiry p) s = .next (s.close (if t + lim ≤ e.time then failFetch e p else e))) ∧
        (lim = 0 → Sys2Proof.Machine.exec (.setAsideLimitExpiry p) s = .next (s.close s.clear))))

/-- ENABLE, the adapter, NEG, PARK and DISABLE move a link between its states. For every state and every link of the build: ENABLE of a DOWN or PARKED link makes it WAIT_ADAPTER, keeps the lane repairs it shows and requests its domain; PARK parks a link that is UP or NEGOTIATING and DISABLE makes any link DOWN; elsewhere they change nothing, and while the postmaster restarts each waits for it. The adapter's report of link up makes a link that waits for it NEGOTIATING, its width and rate free values, and sends NEG with DONE clear. PARK, a PARK of the peer, adapter down and 20 microseconds without an agreement park a link with causes 1, 2, 6 and 3, after a PARK message unless the adapter is down. A NEG stores what the peer announces; no common revision, an equal chip, a lock that disagrees or a confirmation of another revision parks the link; an unconfirmed one is answered with DONE; a confirmed one makes the link UP with that revision chosen and full credits. A link that leaves UP with one request unanswered completes it with UNCORRECTED and a fault. (spec/11 R301, spec/11 R302, spec/11 R303, spec/11 R309, spec/15 R420) -/
def Obligations.LinksChangeState : Prop :=
  ∀ (s : State) (l : Nat) (w0 w1 : W64), l < s.b.links →
    let st := s.f F.FAB_LSTAT_STATE l
    let parked (y : State) (cause : Nat) : State :=
      leaveUp (if cause = 6 then y else y.sendCtl l [BitVec.ofNat 64 (0x21 * 2 ^ 58), 0]) l 4 cause
    let bad (y : State) (cause : Nat) : State :=
      (((parked y cause).setF F.FAB_ERR_CAUSE 0 (cause - 2)).setF F.FAB_ERR_WHERE 0 l).raise (hwFault 6 (cause - 2) l false none 0)
    (HostReady s → hostOk s = true → s.f F.FW_CORE_STATE 4 ≤ 1 → s.f F.FW_CORE_STATE 5 ≤ 1 →
      (st = 0 ∨ st = 4 →
        (let y : State := { s.clear with cmt := { s.cmt with lrep := mset s.cmt.lrep l (shownRepairs s l) } }
         Sys2Proof.Machine.exec (.linkEnable l) s = .next (s.close (reqDom ((parkPin y (y.setF F.FAB_LSTAT_STATE l 1) l).noteFw 3) (s.b.domLink l) 3).ok)) ∧
        Sys2Proof.Machine.exec (.park l) s = .next (s.close s.clear.ok)) ∧
      (st = 2 ∨ st = 3 → Sys2Proof.Machine.exec (.park l) s = .next (s.close (parked s.clear 1).ok)) ∧
      (st ≠ 0 → Sys2Proof.Machine.exec (.linkDisable l) s = .next (s.close (leaveUp s.clear l 0 0).ok)) ∧
      (st = 0 → Sys2Proof.Machine.exec (.linkDisable l) s = .next (s.close s.clear.ok))) ∧
    (HostReady s → hostOk s = true → 2 ≤ s.f F.FW_CORE_STATE 4 ∨ 2 ≤ s.f F.FW_CORE_STATE 5 →
      let held (c : Nat) : State := (setFw s.clear { s.fw with lctl := s.fw.lctl ++ [(l, c)] }).ok
      Sys2Proof.Machine.exec (.linkEnable l) s = .next (s.close (held 1)) ∧ Sys2Proof.Machine.exec (.park l) s = .next (s.close (held 2)) ∧
        Sys2Proof.Machine.exec (.linkDisable l) s = .next (s.close (held 3))) ∧
    (st = 1 → s.domOn (s.b.domLink l) = true → ∃ y, Sys2Proof.Machine.exec (.adapterLinkUp l) s = .next (s.close (sendNeg y l none)) ∧
      y.f F.FAB_LSTAT_STATE l = 2 ∧ y.f F.FAB_LSTAT_WIDTH l = (Config.freeWord s.free).toNat % 2 ^ F.FAB_LSTAT_WIDTH.w ∧
      y.f F.FAB_LSTAT_RATE l = (Config.freeWord (s.free + 1)).toNat % 2 ^ F.FAB_LSTAT_RATE.w ∧ mget 0 y.lneg l = s.time ∧ y.out = [] ∧
      y.gal = s.gal ∧ y.qs = s.qs ∧ y.cmds = s.cmds ∧ y.time = s.time ∧ y.ltx = s.ltx) ∧
    (st ≠ 1 ∨ s.domOn (s.b.domLink l) = false → Sys2Proof.Machine.exec (.adapterLinkUp l) s = .next (s.close s.clear)) ∧
    (st = 3 ∨ st = 2 → Sys2Proof.Machine.exec (.adapterLinkDown l) s = .next (s.close (parked s.clear 6)) ∧
      (s.rst = 0 → s.flt.halt < 4 → Sys2Proof.Machine.exec (.parkReceived l) s = .next (s.close (parked s.clear 2)))) ∧
    (st = 2 → mget 0 s.lneg l + 20000 ≤ s.time → Sys2Proof.Machine.exec (.negotiationTimeout l) s = .next (s.close (bad s.clear 3))) ∧
    (st ≠ 2 ∨ s.time < mget 0 s.lneg l + 20000 → Sys2Proof.Machine.exec (.negotiationTimeout l) s = .next (s.close s.clear)) ∧
    (st ≠ 2 → Sys2Proof.Machine.exec (.neg l w0 w1) s = .next (s.close s.clear)) ∧
    (st = 2 →
      let p := fieldOf w0 52 49
      let n := ((s.clear.setF F.FAB_LPEER_CHIP l p).setF F.FAB_LPEER_MAX l (fieldOf w0 39 20)).setF F.FAB_LPEER_MIN l (fieldOf w0 19 0)
      let com := commonRevs (s.f F.FAB_LANN_MAX l) revMin (fieldOf w0 39 20) (fieldOf w0 19 0)
      (com = none → Sys2Proof.Machine.exec (.neg l w0 w1) s = .next (s.close (bad n 3))) ∧
      (∀ c, com = some c →
        (p = s.chip → Sys2Proof.Machine.exec (.neg l w0 w1) s = .next (s.close (bad n 4))) ∧
        (p ≠ s.chip → lockBad s l p c = true → Sys2Proof.Machine.exec (.neg l w0 w1) s = .next (s.close (bad n 5))) ∧
        (p ≠ s.chip → lockBad s l p c = false → w0.toNat.testBit 57 = false → Sys2Proof.Machine.exec (.neg l w0 w1) s = .next (s.close (sendNeg n l (some c)))) ∧
        (p ≠ s.chip → lockBad s l p c = false → w0.toNat.testBit 57 = true → fieldOf w1 19 0 ≠ c → Sys2Proof.Machine.exec (.neg l w0 w1) s = .next (s.close (bad n 3))) ∧
        (p ≠ s.chip → lockBad s l p c = false → w0.toNat.testBit 57 = true → fieldOf w1 19 0 = c →
          let u := (n.setF F.FAB_LSTAT_STATE l 3).setF F.FAB_LREV_CHOSEN l c
          Sys2Proof.Machine.exec (.neg l w0 w1) s = .next (s.close (State.pumpL ((setFloor { u with lcr := mset s.lcr l (1024, 1024), lret := mdel s.lret l, ltx := mdel s.ltx l }).noteFw 3)))))) ∧
    (∀ d cause, (∀ r ∈ s.lreqs, r.sent = true → r.link ≠ l) → (leaveUp s l d cause).f F.FAB_LSTAT_STATE l = d % 2 ^ F.FAB_LSTAT_STATE.w ∧
      (leaveUp s l d cause).f F.FAB_LREV_CHOSEN l = 0 ∧ (d = 4 → (leaveUp s l d cause).f F.FAB_LSTAT_CAUSE l = cause % 2 ^ F.FAB_LSTAT_CAUSE.w)) ∧
    (∀ r, s.lreqs = [r] → r.sent = true → r.link = l →
      let y : State := { s with lreqs := [] }
      loseSent s l = linkWrote ((partDone y r.op r.tag .uncorrected []).raise (lostFault y l r)) r)

/-- Requests, signals and responses that arrive on a link, for this chip and for others. For every state: nothing happens on a link that is not UP. On one that is UP, a message for this chip leaves the receive buffer with its credits, and the letterbook notes it: a request outside the aperture is refused with XLATE_FAULT unless FAB_MEMIN admits its source, and otherwise becomes an access with the message's identity; one inside the aperture is made in the gallery by requester 114 + l; a link signal is applied once no write of its source is under way and waits for those that are; a response completes the part that asked with its status, XLATE_FAULT as kind ROUTE, and one that nothing awaits is dropped; collective data and breaks go to the members. A message for another chip waits to be forwarded with one more hop, in the receive buffer while that has room (a choice of the model where it has not: it is lost, log 112); at 7 hops, or over a link of revision 1, it is discarded with cause 6 and a request is answered with XLATE_FAULT. (spec/11 R294, spec/11 R299, spec/11 R300, spec/11 R304, spec/11 R306, spec/11 R307, spec/11 R308) -/
def Obligations.MessagesOfOtherChipsAreCarriedOut : Prop :=
  ∀ (s : State) (l : Nat) (h a v w1 : W64) (data : List Byte), l < s.b.links →
    let rows : List (Sys2Proof.Instr × LMsg) := [(.mrd l h a, msgOf 1 h a []), (.mwr l h a data, msgOf 2 h a data), (.phsig l h a v, msgOf 4 h a (toBytes 8 v.toNat)),
      (.coll l h a data, msgOf 5 h a data), (.cbrk l h a, msgOf 6 h a []), (.rdata l h w1 data, msgOf 0x10 h w1 data), (.wack l h w1, msgOf 0x11 h w1 [])]
    (s.linkUp l = false → ∀ x ∈ rows, Sys2Proof.Machine.exec x.1 s = .next (s.close s.clear)) ∧
    (s.linkUp l = true → s.flt.halt < 4 → s.rst = 0 →
      let mine (m : LMsg) : State := (s.clear.returnCredits l m).note (some m.part) true 0x12 none (m.mtype * 2 ^ 58 + m.src * 2 ^ 54 + l * 2 ^ 51 + m.tag) m.addr
      let access (m : LMsg) (i : Sys2Proof.Instr) (pur : Purpose) (wr : Bool) : Prop :=
        let idn : Ident := ⟨m.part, some m.ctx, false⟩
        let y : W64 × State := (mine m).freeW
        (inAperture m.addr = true → Sys2Proof.Machine.exec i s = .next (s.close ((mine m).startOp (mkOp pur idn (114 + l) .gal (m.addr % 2 ^ 29) (m.len + 1) wr m.data)))) ∧
        (inAperture m.addr = false → (s.f F.FAB_MEMIN_CHIPS).testBit m.src = false → Sys2Proof.Machine.exec i s = .next (s.close (respond (mine m) m .xlateFault []))) ∧
        (inAperture m.addr = false → (s.f F.FAB_MEMIN_CHIPS).testBit m.src = true → Sys2Proof.Machine.exec i s = .next (s.close
          (y.2.startOp (mkOp pur idn (114 + l) (.spans [⟨0, m.len + 1, m.addr, .mem m.sec (y.1.toNat % 16)⟩]) 0 (m.len + 1) wr m.data))))
      let answer (m : LMsg) (i : Sys2Proof.Instr) : Prop :=
        let found := s.lreqs.find? fun r => r.sent && r.tag % 65536 == m.tag
        (found = none → Sys2Proof.Machine.exec i s = .next (s.close (mine m))) ∧
        (∀ r, found = some r →
          let y : State := { mine m with lreqs := s.lreqs.filter (·.tag != r.tag) }
          (m.status = Status.xlateFault.code → Sys2Proof.Machine.exec i s = .next (s.close (linkWrote (routeFail y r.op r.tag) r))) ∧
          (m.status ≠ Status.xlateFault.code → Sys2Proof.Machine.exec i s
            = .next (s.close (linkWrote (partDone y r.op r.tag ((Status.ofCode m.status).getD .uncorrected) m.data) r))))
      (fieldOf h 57 54 = s.chip →
        (let m := msgOf 1 h a []
         access m (.mrd l h a) (.linkRead l m.src m.tag) false) ∧
        (let m := msgOf 2 h a data
         access m (.mwr l h a data) (.linkWrite l m.src m.tag) true) ∧
        (let m := msgOf 4 h a (toBytes 8 v.toNat)
         let ids : List Nat := (s.ops.filter fun o => match o.pur with
           | .linkWrite _ c _ => c == m.src
           | _ => false).map (·.id)
         s.lsigs = [] → (ids = [] → Sys2Proof.Machine.exec (.phsig l h a v) s = .next (s.close (linkSignal { mine m with lsigs := [] } m.src m.addr v))) ∧
           (ids ≠ [] → Sys2Proof.Machine.exec (.phsig l h a v) s = .next (s.close { mine m with lsigs := [⟨m.src, m.addr, v, ids⟩] }))) ∧
        Sys2Proof.Machine.exec (.coll l h a data) s = .next (s.close (collArrive (mine (msgOf 5 h a data)) (msgOf 5 h a data))) ∧
        Sys2Proof.Machine.exec (.cbrk l h a) s = .next (s.close (collArrive (mine (msgOf 6 h a [])) (msgOf 6 h a []))) ∧
        answer (msgOf 0x10 h w1 data) (.rdata l h w1 data) ∧ answer (msgOf 0x11 h w1 []) (.wack l h w1)) ∧
      (∀ x ∈ rows, x.2.dst ≠ s.chip →
        (x.2.hops = 7 ∨ s.linkRev1 l = true → Sys2Proof.Machine.exec x.1 s
          = .next (s.close (respond (((s.clear.returnCredits l x.2).setF F.FAB_ERR_CAUSE 0 6).setF F.FAB_ERR_WHERE 0 l) x.2 .xlateFault []))) ∧
        (x.2.hops ≠ 7 → s.linkRev1 l = false →
          (heldUnits s l x.2.isRsp + x.2.units ≤ 1024 → Sys2Proof.Machine.exec x.1 s
            = .next (s.close (State.pumpL { s.clear with lout := s.lout ++ [({ x.2 with hops := x.2.hops + 1 }, some l)] }))) ∧
          (1024 < heldUnits s l x.2.isRsp + x.2.units → Sys2Proof.Machine.exec x.1 s = .next (s.close s.clear)))))

/-- Flits are carried, held requests go on, groups are defined, and a step of a collective has a limit. For every state with the link NEGOTIATING or UP and out of reset: a flit of 256 bytes counts in RXFLITS; one of an undefined kind counts in BADFLIT as well and does nothing else; on a link that is UP any other returns its credits, never beyond 1,024; a traffic flit's units carry on the message in progress, or begin at FIRST, and each whole message arrives; a control flit's words are a control message. A request that has waited FAB_HOLD milliseconds for a route that is not UP fails as kind ROUTE does, and no other. Where the register path runs: EN = 1 of a group not enabled with no member, more than 64, a member twice, or a remote member on a build without links sets FAB_ERR to GROUP and changes nothing else; otherwise it stores NRANK and the DIGEST, enables the group and begins its counts again; EN = 0 stores NRANK of a group not enabled and clears EN of an enabled one, whose fields EN = 1 leaves. A member of a running relay core that has sent its step and waited STEPLIM ends its part with COLLECTIVE_RESTARTED and tells no other; nothing happens where none has. (spec/11 R297, spec/11 R298, spec/11 R299, spec/11 R309, spec/11 R316, spec/11 R325) -/
def Obligations.FlitsHeldRequestsAndGroups : Prop :=
  (
    ∀ (s : State) (l tag : Nat) (flit : List Byte),
      (s.rst = 0 → l < s.b.links → flit.length = 256 →
        let st := s.f F.FAB_LSTAT_STATE l
        let w := (wordsOf 1 flit).headD 0
        let kind := fieldOf w 63 56
        let c := State.setF { s.clear with lrx := mset s.lrx l (mget 0 s.lrx l + 1) } F.FAB_LCNT_RXFLITS l ((mget 0 s.lrx l + 1) / 2 ^ 16)
        let p := State.pumpL { c with lcr := mset s.lcr l (min 1024 ((s.credits l).1 + fieldOf w 31 16), min 1024 ((s.credits l).2 + fieldOf w 15 0)) }
        let old := mget [] p.lpart l
        let first := fieldOf w 47 40
        let units := if old ≠ [] then old ++ flit.drop 16 else if first ≤ 14 then (flit.drop 16).drop (16 * first) else []
        (st = 2 ∨ st = 3 → kind ≠ 1 → kind ≠ 2 → Sys2Proof.Machine.exec (.flitReceive l flit) s = .next (s.close (c.satF F.FAB_LCNT_BADFLIT l))) ∧
        (st = 2 → kind = 1 → Sys2Proof.Machine.exec (.flitReceive l flit) s = .next (s.close c)) ∧
        (st = 2 → kind = 2 → Sys2Proof.Machine.exec (.flitReceive l flit) s = .next (s.close (controlIn c l (wordsOf 4 (flit.drop 16))))) ∧
        (st = 3 → kind = 2 → Sys2Proof.Machine.exec (.flitReceive l flit) s = .next (s.close (controlIn p l (wordsOf 4 (flit.drop 16))))) ∧
        (st = 3 → kind = 1 → Sys2Proof.Machine.exec (.flitReceive l flit) s = .next (s.close (takeUnits 64 { p with lpart := mdel p.lpart l } l units))) ∧
        (st ≠ 2 → st ≠ 3 → Sys2Proof.Machine.exec (.flitReceive l flit) s = .next (s.close s.clear))) ∧
      (let found := s.lreqs.find? fun r => r.tag == tag && !r.sent
       (found = none → Sys2Proof.Machine.exec (.routeHoldExpiry tag) s = .next (s.close s.clear)) ∧
       (∀ r, found = some r →
         let late := r.since + max 1 (s.f F.FAB_HOLD_HOLD) * 1000000
         (s.routeUp r.msg.dst = none → late ≤ s.time → Sys2Proof.Machine.exec (.routeHoldExpiry tag) s
           = .next (s.close (routeFail { s.clear with lreqs := s.lreqs.filter (·.tag != tag) } r.op tag))) ∧
         (s.routeUp r.msg.dst ≠ none ∨ s.time < late → Sys2Proof.Machine.exec (.routeHoldExpiry tag) s = .next (s.close s.clear))))) ∧
  (
    ∀ (s : State) (g v q : Nat),
      (HostReady s → g < 256 →
        let n := v / 2 ^ 48 % 128
        let ms := (List.range n).map (memberAt s g)
        let bad : Prop := n = 0 ∨ 64 < n ∨ ¬ ms.Nodup ∨ (s.b.links = 0 ∧ ∃ m ∈ ms, m.1 ≠ s.chip)
        (s.fb F.FAB_GRP_EN g = false → v / 2 ^ 63 % 2 = 1 → bad → Sys2Proof.Machine.exec (.fabGrpWrite g v) s
          = .next (s.close ((s.clear.setF F.FAB_ERR_CAUSE 0 4).setF F.FAB_ERR_WHERE 0 g).ok)) ∧
        (s.fb F.FAB_GRP_EN g = false → v / 2 ^ 63 % 2 = 1 → ¬ bad →
          let t : State := { s.clear with colN := s.colN.filter fun e => e.1 / 64 != g }
          Sys2Proof.Machine.exec (.fabGrpWrite g v) s = .next (s.close (((t.setF F.FAB_GRP_NRANK g n).setF F.FAB_GRP_DIGEST g (groupDigest s g n)).setF F.FAB_GRP_EN g 1).ok)) ∧
        (s.fb F.FAB_GRP_EN g = false → v / 2 ^ 63 % 2 = 0 → Sys2Proof.Machine.exec (.fabGrpWrite g v) s = .next (s.close (s.clear.setF F.FAB_GRP_NRANK g n).ok)) ∧
        (s.fb F.FAB_GRP_EN g = true → v / 2 ^ 63 % 2 = 1 → Sys2Proof.Machine.exec (.fabGrpWrite g v) s = .next (s.close s.clear.ok)) ∧
        (s.fb F.FAB_GRP_EN g = true → v / 2 ^ 63 % 2 = 0 → Sys2Proof.Machine.exec (.fabGrpWrite g v) s = .next (s.close (s.clear.setF F.FAB_GRP_EN g 0).ok))) ∧
      (let late (x : Collv) : Prop := x.phase = 2 ∧ x.sent = true ∧ s.coreUp (2 + x.g % 2) = true ∧ x.since + max 1 (s.f F.FAB_COLL_STEPLIM) * 1000 ≤ s.time ∧ ∃ c, s.cmd? x.cmd = some c ∧ c.q = q
       (∀ x, s.colls = [x] → late x → ∃ e : State, Sys2Proof.Machine.exec (.steplimExpiry q) s = .next (s.close e) ∧ e.colls = [{ x with phase := 4, st := .collectiveRestarted }] ∧
         e.lout = s.lout ∧ e.out = [] ∧ e.cmds = s.cmds ∧ (∀ o, o ∈ e.ops ↔ o ∈ s.ops ∧ ∀ y, o.pur ≠ .coll x.cmd y)) ∧
       ((∀ x ∈ s.colls, ¬ late x) → Sys2Proof.Machine.exec (.steplimExpiry q) s = .next (s.close s.clear))))

/-- A CLK_AON cycle adds 3, 4 or 5 ns; a chip that is not the source asks its parent, steps or locks on, and loses SYNC after 10 ms. For every state: a cycle of CLK_AON out of PORESET_N counts the cycle and adds 4 ns to fabric time, 5 or 3 when the rate correction has gathered a nanosecond, which it then gives back; nothing happens in PORESET_N. A request goes to the parent 8 microseconds after the last one and not before; its time has 4 bits of fraction, and a parent answers with that time and its own. A response of the parent after which the mean of the last 64 absolute offsets exceeds 64 ns steps the time by their mean, clears SYNC and counts; one with a mean of at most 4 ns sets SYNC; the rate correction is a free value within an eighth, and HOPS is 1 below the source; a response of another link changes nothing. 10 ms without a response clear SYNC. The source itself asks nothing and keeps SYNC. (spec/11 R310, spec/11 R311, spec/11 R312, spec/11 R314) -/
def Obligations.FabricTimeAdvancesAndFollowsItsSource : Prop :=
  ∀ (s : State) (l t1 t2 t3 : Nat),
    (let a := s.tsync.acc + s.tsync.rate
     s.rst ≠ 1 → s.rst ≠ 4 → ∃ e, Sys2Proof.Machine.exec .fabricTimeAdvance s = .next (s.close e) ∧ e.tsync.cycles = s.tsync.cycles + 1 ∧ e.tsync.rate = s.tsync.rate ∧
      (65536 ≤ a → e.time = s.time + 5 ∧ e.tsync.acc = a - 65536) ∧ (a ≤ -65536 → e.time = s.time + 3 ∧ e.tsync.acc = a + 65536) ∧
      (-65536 < a → a < 65536 → e.time = s.time + 4 ∧ e.tsync.acc = a) ∧ e.gal = s.gal ∧ e.qs = s.qs ∧ e.cmds = s.cmds ∧ e.ph = s.ph) ∧
    (s.rst = 1 ∨ s.rst = 4 → Sys2Proof.Machine.exec .fabricTimeAdvance s = .next s.clear) ∧
    (timeSource s = s.chip → Sys2Proof.Machine.exec .tsyncExchange s = .next (s.close s.clear) ∧ Sys2Proof.Machine.exec .tsyncLoss s = .next (s.close s.clear)) ∧
    (parentLink s = some l → s.rst = 0 →
      let t : TSync := if s.tsync.parent = some (timeSource s) then s.tsync else { s.tsync with offs := [], parent := some (timeSource s), lastRsp := s.time }
      (s.tsync.sentAt + 8000 ≤ s.time → Sys2Proof.Machine.exec .tsyncExchange s
        = .next (s.close (State.sendCtl { s.clear with tsync := { t with sentAt := s.time } } l [BitVec.ofNat 64 (0x22 * 2 ^ 58), BitVec.ofNat 64 s.time16]))) ∧
      (s.time < s.tsync.sentAt + 8000 → Sys2Proof.Machine.exec .tsyncExchange s = .next (s.close s.clear))) ∧
    (∀ w0 w1 : W64, s.linkUp l = true → fieldOf w0 63 58 = 0x22 → w0.toNat.testBit 57 = false →
      controlIn s l [w0, w1, 0, 0] = s.sendCtl l [BitVec.ofNat 64 (0x22 * 2 ^ 58 + 2 ^ 57), w1, BitVec.ofNat 64 s.time16, BitVec.ofNat 64 s.time16]) ∧
    (timeSource s ≠ s.chip → (s.tsync.lastRsp + 10000000 ≤ s.time → Sys2Proof.Machine.exec .tsyncLoss s = .next (s.close (s.clear.setF F.FAB_TSYNC_SYNC 0 0))) ∧
      (s.time < s.tsync.lastRsp + 10000000 → Sys2Proof.Machine.exec .tsyncLoss s = .next (s.close s.clear))) ∧
    (parentLink s ≠ some l ∨ s.rst ≠ 0 → Sys2Proof.Machine.exec (.tsyncResponse l t1 t2 t3) s = .next (s.close s.clear)) ∧
    (parentLink s = some l → s.rst = 0 → ∃ e, Sys2Proof.Machine.exec (.tsyncResponse l t1 t2 t3) s = .next (s.close e) ∧
      (let th : Int := (((t2 : Int) - t1) - ((s.time16 : Int) - (t3 : Int))) / 2
       let offs := (s.tsync.offs ++ [th]).drop (s.tsync.offs.length + 1 - 64)
       let m := meanOf offs
       e.tsync.rate ≤ 32768 ∧ -32768 ≤ e.tsync.rate ∧ e.gal = s.gal ∧ e.qs = s.qs ∧ e.cmds = s.cmds ∧
       (s.f F.FAB_LPEER_CHIP l = timeSource s → e.f F.FAB_TSYNC_HOPS = 1) ∧
       (64 * 16 * offs.length < absSum offs → e.f F.FAB_TSYNC_SYNC = 0 ∧ e.time = ((s.time : Int) + m / 16).toNat ∧ e.tsync.offs = [] ∧
         e.f F.FAB_TSYNC_STEPS = (s.f F.FAB_TSYNC_STEPS + 1) % 2 ^ F.FAB_TSYNC_STEPS.w) ∧
       (absSum offs ≤ 64 * 16 * offs.length → e.time = s.time ∧ e.tsync.offs = offs ∧ e.tsync.lastRsp = s.time) ∧ (absSum offs ≤ 64 * offs.length → e.f F.FAB_TSYNC_SYNC = 1) ∧
       (64 * offs.length < absSum offs → absSum offs ≤ 64 * 16 * offs.length → e.f F.FAB_TSYNC_SYNC = s.f F.FAB_TSYNC_SYNC)))

/-- An echo pair is asked for and left; twins compare their digests and take their roles. For every state of a build with an echo port in which registers may start work: PAIR_MIRROR and PAIR_COMPARE in UNPAIRED or PARTNER_LOST set MODE, make PAIR LINKING, give the digest of the configuration, begin empty in both directions and request the echo domain; while SYNCING or PAIRED they change nothing. SOLO makes MODE, PAIR and ROLE 0 and parks the port; a twin that led or had no role releases everything that waited for its partner, and any other locks its mirrored queues. For every state: a digest of a paired COMPARE twin is kept until its own is there; a digest not there after WAIT makes the partner lost: the twin with TIEBREAK leads alone, the other is isolated. TIEBREAK rising makes a following twin that synchronises or is paired take over and a twin that waits for a leader lead; its fall isolates a leading twin; else only the input changes. The echo link's up report stops the pairing when the identities, editions or digests differ, a letterbook is off or a mirrored region is not allowed; otherwise TIEBREAK of the two decides: one leads, the other follows, both wait, or both conflict. Nothing happens outside LINKING. (spec/12 R334, spec/12 R335, spec/12 R350, spec/12 R332, spec/12 R333, spec/12 R343, spec/12 R347, spec/12 R348, spec/12 R349) -/
def Obligations.TwinsPairCompareAndTakeTheirRoles : Prop :=
  (
    ∀ s : State, WorkReady s → s.b.echo = true →
      (s.f F.ECH_STAT_PAIR = 0 ∨ s.f F.ECH_STAT_PAIR = 4 →
        let begun (mode : Nat) : State :=
          let t := setPair (s.clear.setF F.ECH_STAT_MODE 0 mode) 1
          let t := t.setF F.ECH_CFGDIG_DIGEST 0 (crc64 (bytesOf (cfgWords t)))
          setEch t { t.ech with made := [], lines := [], tx := [], unacked := [], ackDue := false, txSeq := 0, rxSeq := 0, ackNo := 0, syncNeed := none, syncLines := [],
                                syncing := false, waits := false, dirty := [], identOk := false, portUp := false, mine := [], peers := [], ckpts := [], ckPos := [], decisions := [] }
        Sys2Proof.Machine.exec .pairMirror s = .next (s.close (reqDom (begun 1) s.b.domEcho 3).ok) ∧
        Sys2Proof.Machine.exec .pairCompare s = .next (s.close (reqDom (begun 2) s.b.domEcho 3).ok)) ∧
      (s.f F.ECH_STAT_PAIR = 2 ∨ s.f F.ECH_STAT_PAIR = 3 →
        Sys2Proof.Machine.exec .pairMirror s = .next (s.close s.clear.ok) ∧ Sys2Proof.Machine.exec .pairCompare s = .next (s.close s.clear.ok)) ∧
      (let y : State := setRole (setPair (parkEcho (s.clear.setF F.ECH_STAT_MODE 0 0)) 0) 0
       (s.f F.ECH_STAT_ROLE = 0 ∨ s.f F.ECH_STAT_ROLE = 1 ∨ s.f F.ECH_STAT_ROLE = 3 → Sys2Proof.Machine.exec .solo s = .next (s.close (releaseAll y).ok)) ∧
       (s.f F.ECH_STAT_ROLE ≠ 0 → s.f F.ECH_STAT_ROLE ≠ 1 → s.f F.ECH_STAT_ROLE ≠ 3 → Sys2Proof.Machine.exec .solo s = .next (s.close (completeWaiting
         { y with qs := y.qs.map fun e => if y.mirrored e.1 ∧ e.2.st ≠ .disabled then (e.1, { e.2 with locked := true }) else e }).ok)))) ∧
  (
    ∀ (s : State) (q sq n ed : Nat) (v id cfg : W64) (tb sec : Bool),
      (let takes : Prop := s.ech.portUp = true ∧ s.f F.ECH_STAT_MODE = 2 ∧ s.f F.ECH_STAT_PAIR = 3
       (takes → Sys2Proof.Machine.exec (.digest q sq n v) s = .next (s.close (compareSettle (setEch s.clear { s.ech with peers := s.ech.peers ++ [(q, sq, n, v)] })))) ∧
       (¬ takes → Sys2Proof.Machine.exec (.digest q sq n v) s = .next (s.close s.clear))) ∧
      (comparing s q sq n = none → Sys2Proof.Machine.exec (.digestWaitExpiry q sq n) s = .next (s.close s.clear)) ∧
      (∀ c, comparing s q sq n = some c → s.f F.ECH_STAT_PAIR = 3 → s.ctlOn = true →
        let due := c.aux + max 1 (s.f F.ECH_CMP_WAIT) * 1000
        (due ≤ s.time → tieb s = true → Sys2Proof.Machine.exec (.digestWaitExpiry q sq n) s = .next (s.close (releaseAll (setRole (partnerLost s.clear) 3)))) ∧
        (due ≤ s.time → tieb s = false → Sys2Proof.Machine.exec (.digestWaitExpiry q sq n) s = .next (s.close (setPair (setRole s.clear 5) 4))) ∧
        (s.time < due → Sys2Proof.Machine.exec (.digestWaitExpiry q sq n) s = .next (s.close s.clear))) ∧
      (let t := s.clear.setF F.ECH_STAT_TIEBREAK 0 1
       let follows : Prop := s.f F.ECH_STAT_ROLE = 2 ∧ 2 ≤ s.f F.ECH_STAT_PAIR
       let waits : Prop := s.ech.waits = true ∧ s.ech.portUp = true
       (follows → Sys2Proof.Machine.exec .tiebreakRise s = .next (s.close (takeover t))) ∧
       (¬ follows → waits → Sys2Proof.Machine.exec .tiebreakRise s = .next (s.close (lead t))) ∧
       (¬ follows → ¬ waits → Sys2Proof.Machine.exec .tiebreakRise s = .next (s.close t))) ∧
      (let t := s.clear.setF F.ECH_STAT_TIEBREAK 0 0
       (s.f F.ECH_STAT_ROLE = 1 ∨ s.f F.ECH_STAT_ROLE = 3 → Sys2Proof.Machine.exec .tiebreakFall s = .next (s.close (setRole t 5))) ∧
       (s.f F.ECH_STAT_ROLE ≠ 1 → s.f F.ECH_STAT_ROLE ≠ 3 → Sys2Proof.Machine.exec .tiebreakFall s = .next (s.close t))) ∧
      (s.f F.ECH_STAT_PAIR ≠ 1 ∨ s.ech.portUp = true → Sys2Proof.Machine.exec (.echoLinkUp id ed cfg tb sec) s = .next (s.close s.clear)) ∧
      (s.f F.ECH_STAT_PAIR = 1 → s.ech.portUp = false → s.domOn s.b.domEcho = true → s.ctlOn = true →
        let up := (setEch s.clear { s.ech with portUp := true, lastAdv := s.time, lastHb := s.time, hbSent := s.time, peerSec := sec, made := [.ident s.identWord (s.f F.FW_STAT_EDITION) (s.f F.ECH_CFGDIG_DIGEST) (tieb s) (s.fb F.ECH_CTL_SECONDARY)] }).setF F.ECH_STAT_PEERTB 0 tb.toNat
        let fails : Prop := id.toNat ≠ s.identWord ∨ ed ≠ s.f F.FW_STAT_EDITION ∨ cfg.toNat ≠ s.f F.ECH_CFGDIG_DIGEST ∨ (mirParts s).any (fun p => s.lbMode p == 0) = true ∨ regionsOk up = false
        let ok := setPair (setEch up { up.ech with identOk := true }) 2
        (fails → Sys2Proof.Machine.exec (.echoLinkUp id ed cfg tb sec) s = .next (s.close (pairFails up))) ∧
        (¬ fails →
          (tieb s = true → tb = false → Sys2Proof.Machine.exec (.echoLinkUp id ed cfg tb sec) s = .next (s.close (lead ok))) ∧
          (tieb s = false → tb = true → Sys2Proof.Machine.exec (.echoLinkUp id ed cfg tb sec) s = .next (s.close (follow ok))) ∧
          (tieb s = false → tb = false → Sys2Proof.Machine.exec (.echoLinkUp id ed cfg tb sec) s = .next (s.close (setEch ok { ok.ech with waits := true }))) ∧
          (tieb s = true → tb = true → Sys2Proof.Machine.exec (.echoLinkUp id ed cfg tb sec) s
            = .next (s.close (if (tieConflict ok).f F.ECH_STAT_ROLE = 5 then tieConflict ok else lead (tieConflict ok)))))))

/-- An echo flit in sequence advances the port, another is counted; resending; heartbeats sent, received and lost. For every state with the echo port up and out of reset: a flit of records with a right check and the expected sequence number advances it, is to be acknowledged and gives its acknowledgement; a control flit gives its acknowledgement alone (a choice of the model, log 114); any other only counts in BAD. 8 microseconds without an advance resend every unacknowledged flit as it was and count them, and one sent 16 times takes the port down; before that nothing is sent again. A heartbeat leaves every PERIOD of a paired twin and at no other time. One received sets PEERTB and its time; a following twin that synchronises takes its checkpoints and is PAIRED; one with TIEBREAK at a paired twin that has TIEBREAK too is a conflict. LOSS without one makes an ACTIVE twin go on alone, with a fault, and releases what waited, and a STANDBY twin take over with TIEBREAK and report the loss without; a COMPARE twin treats its partner as lost; before LOSS, or unpaired, nothing happens. (spec/12 R330, spec/12 R333, spec/12 R335, spec/12 R337, spec/12 R343, spec/12 R349) -/
def Obligations.EchoPortKeepsOrderAndHeartbeats : Prop :=
  ∀ (s : State) (flit : List Byte) (m r : Nat) (tb hl : Bool), s.ech.portUp = true → s.rst = 0 → s.ctlOn = true →
    let role := s.f F.ECH_STAT_ROLE
    let pair := s.f F.ECH_STAT_PAIR
    (flit.length = 256 →
      let w := (wordsOf 2 flit).getD 0 0
      let kind := fieldOf w 63 56
      let right : Prop := ((wordsOf 2 flit).getD 1 0).toNat = crc64 (flit.take 8 ++ flit.drop 16) ∧ fieldOf w 55 32 = s.ech.rxSeq
      (right → kind = 3 → Sys2Proof.Machine.exec (.echoFlitReceive flit) s
        = .next (s.close (takeAck (setEch s.clear { s.ech with rxSeq := (s.ech.rxSeq + 1) % 2 ^ 24, ackDue := true }) (fieldOf w 31 8)))) ∧
      (right → kind = 2 → Sys2Proof.Machine.exec (.echoFlitReceive flit) s = .next (s.close (takeAck s.clear (fieldOf w 31 8)))) ∧
      (¬ right ∨ (kind ≠ 2 ∧ kind ≠ 3) → Sys2Proof.Machine.exec (.echoFlitReceive flit) s = .next (s.close (s.clear.satF F.ECH_CNT_BAD 0)))) ∧
    (s.ech.unacked ≠ [] → s.ech.lastAdv + 8000 ≤ s.time → (∀ x ∈ s.ech.unacked, x.sends < 16) →
      ∃ e, Sys2Proof.Machine.exec .echoResendExpiry s = .next (s.close e) ∧
        e.out = s.ech.unacked.map (fun x => Out.eflit (echoBytes 3 x.seq s.ech.rxSeq x.units)) ∧ e.ech.lastAdv = s.time ∧
        e.f F.ECH_CNT_RESENT = min (s.f F.ECH_CNT_RESENT + s.ech.unacked.length) (2 ^ F.ECH_CNT_RESENT.w - 1) ∧
        e.ech.unacked = s.ech.unacked.map (fun (x : EFlit) => { x with sends := x.sends + 1 }) ∧ e.gal = s.gal ∧ e.qs = s.qs ∧ e.cmds = s.cmds) ∧
    (s.ech.lastAdv + 8000 ≤ s.time → (∃ x ∈ s.ech.unacked, 16 ≤ x.sends) → Sys2Proof.Machine.exec .echoResendExpiry s
      = .next (s.close (if pair = 1 ∨ pair = 2 then setPair (parkEcho s.clear) 0 else parkEcho s.clear))) ∧
    (s.ech.unacked = [] ∨ s.time < s.ech.lastAdv + 8000 → Sys2Proof.Machine.exec .echoResendExpiry s = .next (s.close s.clear)) ∧
    (let due := s.ech.hbSent + s.f F.ECH_HB_PERIOD * 1000
     (pair = 3 → due ≤ s.time → Sys2Proof.Machine.exec .heartbeatSend s = .next (s.close (setEch s.clear { s.ech with
       hbSent := s.time, made := s.ech.made ++ [.heartbeat (s.f F.ECH_STAT_MODE) role (tieb s) (s.flt.echoOk && s.flt.halt == 0)] }))) ∧
     (pair ≠ 3 ∨ s.time < due → Sys2Proof.Machine.exec .heartbeatSend s = .next (s.close s.clear))) ∧
    (let y : State := setEch (s.clear.setF F.ECH_STAT_PEERTB 0 tb.toNat) { s.ech with lastHb := s.time }
     (pair = 3 → s.ech.waits = false → tb = false ∨ tieb s = false ∨ role = 5 → Sys2Proof.Machine.exec (.heartbeat m r tb hl) s = .next (s.close y)) ∧
     (pair = 3 → s.ech.waits = false → tb = true → tieb s = true → role ≠ 5 → Sys2Proof.Machine.exec (.heartbeat m r tb hl) s = .next (s.close (tieConflict y))) ∧
     (pair = 2 → role = 2 ∨ role = 4 → tb = false → Sys2Proof.Machine.exec (.heartbeat m r tb hl) s = .next (s.close (takeCkpts (setPair y 3))))) ∧
    (let due := s.ech.lastHb + s.f F.ECH_HB_LOSS * 1000
     (pair ≠ 3 ∨ s.time < due → Sys2Proof.Machine.exec .heartbeatLoss s = .next (s.close s.clear)) ∧
     (pair = 3 → due ≤ s.time → s.f F.ECH_STAT_MODE = 1 →
       (role = 2 → tieb s = true → Sys2Proof.Machine.exec .heartbeatLoss s = .next (s.close (takeover s.clear))) ∧
       (role = 2 → tieb s = false → Sys2Proof.Machine.exec .heartbeatLoss s = .next (s.close (partnerLost s.clear))) ∧
       (role = 1 → Sys2Proof.Machine.exec .heartbeatLoss s = .next (s.close (releaseAll (partnerLost s.clear)))) ∧
       (role ≠ 1 → role ≠ 2 → Sys2Proof.Machine.exec .heartbeatLoss s = .next (s.close (setPair s.clear 4)))) ∧
     (pair = 3 → due ≤ s.time → s.f F.ECH_STAT_MODE = 2 →
       (role ≠ 5 → Sys2Proof.Machine.exec .heartbeatLoss s = .next (s.close (compareLost s.clear))) ∧
       (role = 5 → Sys2Proof.Machine.exec .heartbeatLoss s = .next (s.close (setPair s.clear 4)))))

/-- QSTATE, RETIRE, values, lines, parcels, seals, done marks, decisions and host writes that a following twin receives. For every state: a twin that waits for a leader and hears records without TIEBREAK of its own follows. A twin that follows keeps the checkpoint that QSTATE gives a mirrored queue, and a paired STANDBY twin takes it; PHVAL and FKVAL are applied as that value, with the waiters they release; a LINE of chambers that are LIT is written with its seal bit by requester 122, and another is not; PARCEL makes the edition the newest or frees the parcel; SEALREG gives the seal's registers; HINGE gives its ENQUEUE's count and keeps a done mark at a STANDBY twin; DECISION is kept for its queue; HOSTWR is a doorbell or a QE_CQ_HEAD write of its queue; RETIRE moves the checkpoint's position and drops the marks and decisions it passes. Records of a queue that is not mirrored, and all at a twin that does not follow, change nothing. (spec/12 R335, spec/12 R336, spec/12 R337, spec/12 R339, spec/12 R342, spec/12 R344) -/
def Obligations.FollowingTwinsTakeTheMirroredState : Prop :=
  ∀ (s : State) (q qst sq cq hd pr pc ep n a gen ed len st tq : Nat) (pend full dram freed isHead : Bool) (g : List W64) (loc : Option EdKey) (stk : List Frame) (v w1 w2 w3 : W64) (data : List Byte),
    let ck := ERec.qstate q qst pend sq cq hd pr pc ep ((List.range 32).foldl (fun m i => mset m i (g.getD i 0)) []) loc stk
    let y : State := heard s.clear
    let hears : Prop := s.ech.waits = true ∧ s.ech.portUp = true ∧ tieb s = false ∧ s.ctlOn = true
    (hears → y = follow s.clear) ∧ (¬ hears → y = s.clear) ∧
    (takesState y = true →
      (y.mirrored q = true →
        let z : State := reclaim (setEch y { y.ech with ckpts := mset y.ech.ckpts q ck })
        (y.f F.ECH_STAT_PAIR = 2 ∨ y.f F.ECH_STAT_ROLE = 4 → Sys2Proof.Machine.exec (.qstate q qst pend sq cq hd pr pc ep g loc stk) s = .next (s.close z)) ∧
        (y.f F.ECH_STAT_PAIR = 3 → y.f F.ECH_STAT_ROLE = 2 → Sys2Proof.Machine.exec (.qstate q qst pend sq cq hd pr pc ep g loc stk) s
          = .next (s.close (takeQstate z ck (mget (0, 0) y.ech.ckPos q))))) ∧
      Sys2Proof.Machine.exec (.phval n v) s = .next (s.close (wakeMet (y.setRow n { y.row n with value := v, st := .normal }) (.ph n) v)) ∧
      Sys2Proof.Machine.exec (.fkval n v) s = .next (s.close (wakeMet (setFrank y n v) (.counter n) v)) ∧
      (let h := y.hallOf a
       let lit : Prop := y.domOn (y.b.domLogic h) = true ∧ (chambersOf y.b.halls (0, a, 512)).any (fun c => y.chamber h c != 0) = false
       a % 512 = 0 → data.length = 512 → a < y.b.galleryBytes →
        (lit → Sys2Proof.Machine.exec (.line a data full) s = .next (s.close (setSeal (galPut (countSlot y h none) (none, none) h 122 (addrBytes a data)).1 (a / 512) full))) ∧
        (¬ lit → Sys2Proof.Machine.exec (.line a data full) s = .next (s.close y))) ∧
      (Sys2Proof.Machine.exec (.parcel n a gen ed dram hd len true) s = .next (s.close (reclaim (setParcel y { getParcel y n a with newest := none })))) ∧
      (let e : State := if (edition? y ⟨n, a, gen, ed⟩).isSome then y else { y with eds := y.eds ++ [⟨⟨n, a, gen, ed⟩, dram, hd, len, 0, true⟩] }
       Sys2Proof.Machine.exec (.parcel n a gen ed dram hd len false) s = .next (s.close (reclaim (setParcel e { getParcel y n a with newest := some ed, gen })))) ∧
      (∃ e, Sys2Proof.Machine.exec (.sealreg n a len st) s = .next (s.close e) ∧ e.f F.GAL_SEAL_BASE_BASE n = a % 2 ^ F.GAL_SEAL_BASE_BASE.w ∧
        e.f F.GAL_SEAL_SIZE_SIZE n = len % 2 ^ F.GAL_SEAL_SIZE_SIZE.w ∧ e.f F.GAL_SEAL_MODE_OWNER n = st / 2 ^ 48 % 2 ^ F.GAL_SEAL_MODE_OWNER.w ∧
        e.f F.GAL_SEAL_MODE_ARMED n = st / 2 ^ 62 % 2 ∧ e.f F.GAL_SEAL_MODE_ALLOT n = st / 2 ^ 63 % 2 ∧ e.f F.GAL_SEAL_MODE_PERM n = st / 2 ^ 61 % 2 ∧ e.f F.GAL_SEAL_MODE_PEEK n = st / 2 ^ 60 % 2) ∧
      (let e : State := if tq < 4096 then y.setF F.QE_ENQ_PCOUNT tq hd else y
       (y.f F.ECH_STAT_ROLE = 2 → Sys2Proof.Machine.exec (.hinge q sq n st v tq hd) s = .next (s.close (e.setQ q { y.q q with marks := (y.q q).marks ++ [(sq, n, st, v)] }))) ∧
       (y.f F.ECH_STAT_ROLE = 4 → Sys2Proof.Machine.exec (.hinge q sq n st v tq hd) s = .next (s.close e))) ∧
      (y.mirrored (lbBits [v, w1, w2, w3] 0 47 36) = true → Sys2Proof.Machine.exec (.decision v w1 w2 w3) s
        = .next (s.close (setEch y { y.ech with decisions := y.ech.decisions ++ [[v, w1, w2, w3]] }))) ∧
      (y.mirrored (lbBits [v, w1, w2, w3] 0 47 36) = false → Sys2Proof.Machine.exec (.decision v w1 w2 w3) s = .next (s.close y)) ∧
      (y.mirrored q = true →
        Sys2Proof.Machine.exec (.hostwr q false hd) s = .next (s.close (queueSettle (y.setQ q { y.q q with pend := true }) q)) ∧
        Sys2Proof.Machine.exec (.hostwr q true hd) s
          = .next (s.close (scanGo 8 ((y.setQ q { y.q q with head := BitVec.ofNat 32 hd }).setF F.QE_CQ_HEAD_HEAD q hd) q)) ∧
        ∃ e, Sys2Proof.Machine.exec (.retire q sq n) s = .next (s.close e) ∧ e.ech.ckPos = mset y.ech.ckPos q (sq, n) ∧
          e.ech.decisions = y.ech.decisions.filter (fun r => !(lbBits r 0 47 36 == q && olderThan r sq n)) ∧ (∀ x ∈ (e.q q).marks, x ∈ (y.q q).marks ∧ ¬ (x.1 = sq ∧ x.2.1 < n)) ∧
          e.gal = y.gal ∧ e.cmds = y.cmds) ∧
      (y.mirrored q = false → Sys2Proof.Machine.exec (.hostwr q isHead hd) s = .next (s.close y) ∧ Sys2Proof.Machine.exec (.retire q sq n) s = .next (s.close y) ∧
        Sys2Proof.Machine.exec (.qstate q qst pend sq cq hd pr pc ep g loc stk) s = .next (s.close y))) ∧
    (takesState y = false → ∀ i ∈ [Sys2Proof.Instr.qstate q qst pend sq cq hd pr pc ep g loc stk, .phval n v, .fkval n v, .line a data full, .parcel n a gen ed dram hd len freed,
        .sealreg n a len st, .hinge q sq n st v tq hd, .decision v w1 w2 w3, .hostwr q isHead hd, .retire q sq n],
      Sys2Proof.Machine.exec i s = .next (s.close y))

/-- A fault is sequenced, latched, recorded and counted; a FATAL one halts the fabric for good. For every state with the control island running and a fault pending: the fault taken is the first by time, group and unit of those pending; it receives the value of SEQ, which moves on by one; it is one class higher when its group's latch of its class holds an escalating cause and it is not of origin PROG; it is latched and counted by its class, and the letterbook notes it; a CORRECTED or CONTAINED fault or a notice then goes to its records; a FATAL fault sets the halt in motion, and only FLT_FATAL.OVF when a halt is in motion already. With none pending, or the control island off, nothing happens. For every state in which a fatal fault has been processed and not yet crossed: the halt gives FLT_FATAL the fault's VALID, group and cause and FLT_FATAL_TIME the fabric time, sets LANTERN to 0, takes the echo port down and asks every engine to halt, and the register path starts no work from then on; no byte of the gallery changes; and where no fatal indication is on its way the command changes nothing. (spec/13 R357, spec/13 R358, spec/13 R359, spec/13 R366) -/
def Obligations.FaultsAreSequencedAndAFatalOneHalts : Prop :=
  (
    ∀ s : State,
      (s.flt.pend = [] ∨ s.ctlOn = false → Sys2Proof.Machine.exec .faultRaised s = .next (s.close s.clear)) ∧
      (s.flt.pend ≠ [] → nextFault s ≠ none) ∧
      (∀ (at_ : Nat) (x : Flt), nextFault s = some (at_, x) → s.ctlOn = true →
        (at_, x) ∈ s.flt.pend ∧ (∀ y ∈ s.flt.pend, at_ < y.1 ∨ (at_ = y.1 ∧ (x.grp < y.2.grp ∨ (x.grp = y.2.grp ∧ x.unit ≤ y.2.unit)))) ∧
        (let seq := s.f F.FLT_STAT_SEQ
         let esc := escalates s x
         let cls := if esc then x.cls + 1 else x.cls
         let taken := ({ s.clear with flt := { s.flt with pend := s.flt.pend.erase (at_, x) } } : State).incF F.FLT_STAT_SEQ 0
         let l := (latchFault taken x esc cls seq).note x.part false 0xA none (seq * 2 ^ 32 + cls % 4 * 2 ^ 30 + x.grp * 2 ^ 26 + x.cause % 256 * 2 ^ 18) x.unit
         (cls ≠ 2 → Sys2Proof.Machine.exec .faultRaised s
            = .next (s.close (recordFault l x (faultWords l { x with cls := cls, escl := esc } seq) cls (x.grp == 13 && x.cause == 1)))) ∧
         (cls = 2 → s.flt.halt = 0 → Sys2Proof.Machine.exec .faultRaised s
            = .next (s.close { l with flt := { l.flt with halt := 1, haltFlt := some { x with cls := 2, escl := esc }, haltSeq := seq } })) ∧
         (cls = 2 → s.flt.halt ≠ 0 → Sys2Proof.Machine.exec .faultRaised s = .next (s.close (l.setF F.FLT_FATAL_OVF 0 1)))))) ∧
  (
    ∀ s : State,
      (∀ x : Flt, s.flt.halt = 1 → s.flt.haltFlt = some x → x.grp < 16 → x.cause < 256 →
        ∃ e, Sys2Proof.Machine.exec .fatalHalt s = .next (s.close e) ∧ e.f F.FLT_FATAL_VALID = 1 ∧ e.f F.FLT_FATAL_GROUP = x.grp ∧
          e.f F.FLT_FATAL_CAUSE = x.cause ∧ e.f F.FLT_FATAL_TIME_NS = s.time % 2 ^ F.FLT_FATAL_TIME_NS.w ∧ e.f F.FLT_STAT_LANTERN = 0 ∧
          e.flt.halt = 7 ∧ hostOk e = false ∧ e.ech.portUp = false ∧ (∀ k < s.b.eports, Out.eCtl k (BitVec.ofNat 64 (0x82 * 2 ^ 56)) ∈ e.out) ∧
          e.gal.cells = s.gal.cells) ∧
      (s.flt.halt ≠ 1 ∨ s.flt.haltFlt = none → Sys2Proof.Machine.exec .fatalHalt s = .next (s.close s.clear)))

/-- A latch takes the fault when VALID is 0 and only sets OVF when VALID is 1; a PROG fault touches its partition's latch alone. For every state, every fault of a group and every SEQ: a CORRECTED or CONTAINED fault that is not of origin PROG sets VALID of its group's latch of its class; when the latch was valid, its cause, UNIT and SEQ stay and OVF is 1, and else they are the fault's and OVF is 0; the fault's count goes up by one unless it stands at its maximum; a fault of origin PROG with a partition leaves VALID and OVF of every group latch and sets VALID of the partition's latch; and a fault of origin PROG never escalates. (spec/13 R358, spec/13 R359) -/
def Obligations.LatchesFollowOriginAndClass : Prop :=
  ∀ (s : State) (x : Flt) (esc : Bool) (seq : Nat), s.b.Permitted → x.grp < 14 → x.cause < 256 → x.unit < 65536 → seq < 4294967296 →
    (x.prog = false →
      (let t := latchFault s x esc 0 seq
       t.fb F.FLT_LATCH_C_VALID x.grp = true ∧ t.f F.FLT_CNT_CORRECTED x.grp = min (s.f F.FLT_CNT_CORRECTED x.grp + 1) 4294967295 ∧
       (s.fb F.FLT_LATCH_C_VALID x.grp = true → t.f F.FLT_LATCH_C_OVF x.grp = 1 ∧ t.f F.FLT_LATCH_C_CAUSE x.grp = s.f F.FLT_LATCH_C_CAUSE x.grp ∧
         t.f F.FLT_LATCH_C_SEQ x.grp = s.f F.FLT_LATCH_C_SEQ x.grp ∧ t.f F.FLT_LATCH_C_UNIT x.grp = s.f F.FLT_LATCH_C_UNIT x.grp) ∧
       (s.fb F.FLT_LATCH_C_VALID x.grp = false → t.f F.FLT_LATCH_C_OVF x.grp = 0 ∧ t.f F.FLT_LATCH_C_CAUSE x.grp = x.cause ∧
         t.f F.FLT_LATCH_C_SEQ x.grp = seq ∧ t.f F.FLT_LATCH_C_UNIT x.grp = x.unit ∧ t.f F.FLT_LATCH_C_ESCL x.grp = x.escl.toNat)) ∧
      (let t := latchFault s x esc 1 seq
       t.fb F.FLT_LATCH_K_VALID x.grp = true ∧ t.f F.FLT_CNT_CONTAINED x.grp = min (s.f F.FLT_CNT_CONTAINED x.grp + 1) 4294967295 ∧
       (s.fb F.FLT_LATCH_K_VALID x.grp = true → t.f F.FLT_LATCH_K_OVF x.grp = 1 ∧ t.f F.FLT_LATCH_K_CAUSE x.grp = s.f F.FLT_LATCH_K_CAUSE x.grp) ∧
       (s.fb F.FLT_LATCH_K_VALID x.grp = false → t.f F.FLT_LATCH_K_OVF x.grp = 0 ∧ t.f F.FLT_LATCH_K_CAUSE x.grp = x.cause ∧
         t.f F.FLT_LATCH_K_SEQ x.grp = seq ∧ t.f F.FLT_LATCH_K_ESC x.grp = esc.toNat))) ∧
    (∀ p < 64, x.prog = true → x.part = some p →
      let t := latchFault s x false 1 seq
      t.fb F.FLT_PLATCH_VALID p = true ∧ (s.fb F.FLT_PLATCH_VALID p = true → t.f F.FLT_PLATCH_OVF p = 1) ∧
      (∀ g, t.f F.FLT_LATCH_C_VALID g = s.f F.FLT_LATCH_C_VALID g ∧ t.f F.FLT_LATCH_C_OVF g = s.f F.FLT_LATCH_C_OVF g ∧
        t.f F.FLT_LATCH_K_VALID g = s.f F.FLT_LATCH_K_VALID g ∧ t.f F.FLT_LATCH_K_OVF g = s.f F.FLT_LATCH_K_OVF g)) ∧
    (x.prog = true → escalates s x = false)

/-- Acknowledgements, AUTOACK, HEAD, DEAD, the hold's budget, a failed ring write, the lantern, the echo, and injection. For every state with the register path running: a write of 1 to VALID of a latch clears its VALID and OVF; a write of HEAD frees space and the records that wait are written; a write of DEAD sets it to 0 and re-arms the latch of the first dropped record, in a partition's window unless the partition is DISABLED; a write of FLT_INJ stores its target and positions, those out of range as none, and clears DONE and ERR where asked; ARM arms it, or sets ERR for an undefined target and for the vault unless SECURE_DEBUG or OPEN_LAB is on. For every state: the delay of the automatic acknowledgement, once its cores run, clears the CORRECTED latch when AUTOACK is 1 and nothing but the delay otherwise; a record whose hold has run out is dropped and no other; a failed write of a record ends it as UNCORRECTED, and of another purpose not; at a multiple of 2,048 cycles, while awake, the lantern toggles when the last echo is back and no fault is fatal, and a ping goes out, or, where one is out, it counts as missed, and CONTROL_SILENT halts at the second; an echo of a ping that is out is taken. Else nothing happens. (spec/13 R360, spec/13 R364, spec/13 R365, spec/13 R367, spec/13 R369, spec/16 R431, spec/16 R435) -/
def Obligations.LatchesRingsAndInjectionTakeWrites : Prop :=
  ∀ (s : State) (g r n : Nat) (w : W64),
    (HostReady s →
      (g < 16 → Sys2Proof.Machine.exec (.latchAcknowledge g 0) s = .next (s.close (State.ok
        { (s.clear.setF F.FLT_LATCH_C_VALID g 0).setF F.FLT_LATCH_C_OVF g 0 with flt := { s.flt with autoack := mdel s.flt.autoack g } }))) ∧
      (g < 16 → Sys2Proof.Machine.exec (.latchAcknowledge g 1) s = .next (s.close ((s.clear.setF F.FLT_LATCH_K_VALID g 0).setF F.FLT_LATCH_K_OVF g 0).ok)) ∧
      (g < 64 → Sys2Proof.Machine.exec (.latchAcknowledge g 2) s = .next (s.close ((s.clear.setF F.FLT_PLATCH_VALID g 0).setF F.FLT_PLATCH_OVF g 0).ok)) ∧
      (let t : State := { s.clear with flt := { s.flt with dropped := s.flt.dropped.filter (· != r) } }
       let shut := s.f F.PRT_STAT_STATE r
       (r = 64 → Sys2Proof.Machine.exec (.faultRingHeadWrite r n) s = .next (s.close (pumpRing (s.flt.recs.length + 1) (s.clear.setF F.FLT_GRING_HEAD_HEAD 0 n) 64).ok) ∧
         Sys2Proof.Machine.exec (.faultRingDeadWrite r) s = .next (s.close ((t.setF F.FLT_G_DEAD_DEAD 0 0).setF F.FLT_G_DEAD_FIRST 0 0).ok)) ∧
       (r < 64 → shut = 1 ∨ shut = 2 → Sys2Proof.Machine.exec (.faultRingHeadWrite r n) s = .next (s.close (pumpRing (s.flt.recs.length + 1) (s.clear.setF F.FLT_PW_HEAD_HEAD r n) r).ok) ∧
         Sys2Proof.Machine.exec (.faultRingDeadWrite r) s = .next (s.close (t.setF F.FLT_PW_DEAD_DEAD r 0).ok)) ∧
       (r < 64 → shut = 0 → Sys2Proof.Machine.exec (.faultRingHeadWrite r n) s = .next (s.close s.clear.ok) ∧ Sys2Proof.Machine.exec (.faultRingDeadWrite r) s = .next (s.close s.clear.ok))) ∧
      (let y := if w.toNat.testBit 62 then s.clear.setF F.FLT_INJ_DONE 0 0 else s.clear
       let z := if w.toNat.testBit 61 then y.setF F.FLT_INJ_ERR 0 0 else y
       let pos (n : Nat) : Nat := if 79 ≤ n then 127 else n
       let t := (((z.setF F.FLT_INJ_TARGET 0 (fieldOf w 22 21)).setF F.FLT_INJ_POS2 0 (pos (fieldOf w 20 14))).setF F.FLT_INJ_POS1 0 (pos (fieldOf w 13 7))).setF F.FLT_INJ_POS0 0 (pos (fieldOf w 6 0))
       let bad : Prop := fieldOf w 22 21 = 3 ∨ (fieldOf w 22 21 = 2 ∧ s.fb F.INT_FEAT_SECUREDEBUG = false ∧ s.fb F.INT_FEAT_OPENLAB = false)
       (w.toNat.testBit 63 = false → Sys2Proof.Machine.exec (.fltInjArm w.toNat) s = .next (s.close t.ok)) ∧
       (w.toNat.testBit 63 = true → bad → Sys2Proof.Machine.exec (.fltInjArm w.toNat) s = .next (s.close (t.setF F.FLT_INJ_ERR 0 1).ok)) ∧
       (w.toNat.testBit 63 = true → ¬ bad → Sys2Proof.Machine.exec (.fltInjArm w.toNat) s = .next (s.close (t.setF F.FLT_INJ_ARM 0 1).ok)))) ∧
    (s.flt.autoack.find? (·.1 == g) = none → Sys2Proof.Machine.exec (.autoackExpiry g) s = .next (s.close s.clear)) ∧
    (∀ x, s.flt.autoack.find? (·.1 == g) = some x →
      let t : State := { s.clear with flt := { s.flt with autoack := mdel s.flt.autoack g } }
      let due : Prop := x.2 ≤ s.time ∧ s.ctlOn = true ∧ s.coreUp 4 = true ∧ s.coreUp 5 = true
      (due → s.fb F.FLT_CFG_AUTOACK = true → Sys2Proof.Machine.exec (.autoackExpiry g) s = .next (s.close ((t.setF F.FLT_LATCH_C_VALID g 0).setF F.FLT_LATCH_C_OVF g 0))) ∧
      (due → s.fb F.FLT_CFG_AUTOACK = false → Sys2Proof.Machine.exec (.autoackExpiry g) s = .next (s.close t)) ∧
      (¬ due → Sys2Proof.Machine.exec (.autoackExpiry g) s = .next (s.close s.clear))) ∧
    (s.flt.recs.find? (·.id == n) = none → Sys2Proof.Machine.exec (.holdBudgetExpiry n) s = .next (s.close s.clear)) ∧
    (∀ x, s.flt.recs.find? (·.id == n) = some x →
      let due : Prop := x.count = none ∧ s.flt.halt = 0 ∧ ∃ t, x.holdUntil = some t ∧ t ≤ s.time
      (due → Sys2Proof.Machine.exec (.holdBudgetExpiry n) s = .next (s.close (deadRec s.clear x))) ∧
      (¬ due → Sys2Proof.Machine.exec (.holdBudgetExpiry n) s = .next (s.close s.clear))) ∧
    (let found := s.mreqs.find? fun y => y.tag == n && y.sent && y.wr
     (found = none → Sys2Proof.Machine.exec (.faultRingWriteError n) s = .next (s.close s.clear)) ∧
     (∀ q, found = some q →
       let y : State := partDone { s.clear with mreqs := s.mreqs.map fun y => if y.tag = n ∧ y.errAt.isNone then { y with errAt := some s.time } else y } q.op q.tag .uncorrected []
       ((∃ r i, mPurpose s q = .faultRec r i) → Sys2Proof.Machine.exec (.faultRingWriteError n) s = .next (s.close (if q.errAt.isNone then watchesHit y q.pa q.len else y))) ∧
       ((∀ r i, mPurpose s q ≠ .faultRec r i) → Sys2Proof.Machine.exec (.faultRingWriteError n) s = .next (s.close s.clear)))) ∧
    (let now : Prop := s.tsync.cycles % 2048 = 0 ∧ s.tsync.cycles ≠ s.flt.pingAt ∧ awakePin s = true
     let y : State := if s.flt.echoOk = true ∧ s.flt.halt < 2 then s.clear.setF F.FLT_STAT_LANTERN 0 (1 - s.f F.FLT_STAT_LANTERN) else s.clear
     (¬ now → Sys2Proof.Machine.exec .lanternPeriod s = .next (s.close s.clear)) ∧
     (now → s.flt.pingOut = false → Sys2Proof.Machine.exec .lanternPeriod s
       = .next (s.close { y with flt := { s.flt with pingAt := s.tsync.cycles, pingOut := true, pingMissed := false, echoOk := false } })) ∧
     (now → s.flt.pingOut = true → s.flt.pingMissed = false ∨ s.flt.halt ≠ 0 → Sys2Proof.Machine.exec .lanternPeriod s
       = .next (s.close { y with flt := { s.flt with pingAt := s.tsync.cycles, pingMissed := true, echoOk := false } })) ∧
     (now → s.flt.pingOut = true → s.flt.pingMissed = true → s.flt.halt = 0 → Sys2Proof.Machine.exec .lanternPeriod s
       = .next (s.close { y with flt := { s.flt with pingAt := s.tsync.cycles, halt := 1, haltSeq := 0, haltFlt := some ⟨13, 2, 2, false, false, 0, none, 0, commonDetail 0 none 0 0 0 0 0, none, none⟩ } }))) ∧
    (s.flt.pingOut = true → s.ctlOn = true → Sys2Proof.Machine.exec .healthEcho s = .next (s.close
      { s.clear with flt := { s.flt with pingOut := false, pingMissed := false, echoOk := true } })) ∧
    (s.flt.pingOut = false ∨ s.ctlOn = false → Sys2Proof.Machine.exec .healthEcho s = .next (s.close s.clear))

/-- Power commands enter and leave states; wake events, and the domains that a wake asks for. For every state in which the register path runs, with `n` the state after the letterbook has noted the write: ACTIVE in IDLE makes STATE ACTIVE and ungates every island; IDLE in ACTIVE makes it IDLE; either, naming the present state, changes nothing more; NAP and DORMANT begin the entry sequence when every condition of the low-power state holds, stop the timetable and note where the entry goes and when, and else only show the first condition that fails in REFUSE. For every state out of reset: a wake of a link, of the echo port, of a doorbell, of PWAKE or of the timer, due while asleep or once reached after the entry began, sets its bit of PWR_WAKE_CAUSE; in NAP and DORMANT the wake sequence starts, and during the entry the wake only becomes due; in another state nothing happens. The start of a wake makes PWR_STATE.STATE 5, adds 1 to PWR_WAKE_CAUSE.COUNT at its width, begins the wake at its first step, and leaves memory, the queues, the commands and fabric time as they were. (spec/14 R376, spec/14 R377, spec/14 R378, spec/17 R456, spec/14 R380, spec/14 R381, spec/14 R398) -/
def Obligations.PowerCommandsAndWakeEvents : Prop :=
  (
    ∀ s : State, WorkReady s →
      let st := s.f F.PWR_STATE_STATE
      let n (c : Nat) : State := hostWr s.clear none 0x100000 c
      (st = 1 → Sys2Proof.Machine.exec .powerActive s = .next (s.close (ungate ((n 1).setF F.PWR_STATE_STATE 0 0)).ok) ∧
        Sys2Proof.Machine.exec .powerIdle s = .next (s.close (n 2).ok)) ∧
      (st = 0 → Sys2Proof.Machine.exec .powerIdle s = .next (s.close ((n 2).setF F.PWR_STATE_STATE 0 1).ok) ∧
        Sys2Proof.Machine.exec .powerActive s = .next (s.close (n 1).ok)) ∧
      (let low (c to_ : Nat) : State := ttStop ((setPwr (ungate (n c)) { s.pwr with sleepTo := to_, step := 1, sleepAt := s.time }).setF F.PWR_STATE_STATE 0 4)
       (lowRefuse (n 3) false = 0 → Sys2Proof.Machine.exec .nap s = .next (s.close (low 3 2).ok)) ∧
       (lowRefuse (n 3) false ≠ 0 → Sys2Proof.Machine.exec .nap s = .next (s.close ((n 3).setF F.PWR_STATE_REFUSE 0 (lowRefuse (n 3) false)).ok)) ∧
       (lowRefuse (n 4) true = 0 → Sys2Proof.Machine.exec .dormant s = .next (s.close (low 4 3).ok)) ∧
       (lowRefuse (n 4) true ≠ 0 → Sys2Proof.Machine.exec .dormant s = .next (s.close ((n 4).setF F.PWR_STATE_REFUSE 0 (lowRefuse (n 4) true)).ok)))) ∧
  (
    ∀ (s : State) (k l : Nat), s.rst = 0 →
      let st := s.f F.PWR_STATE_STATE
      let t := s.f F.PWR_WAKE_TIME_TIME
      let cause (k : Nat) : State :=
        if k < 6 then s.clear.setF F.PWR_WAKE_CAUSE_LINK 0 (s.f F.PWR_WAKE_CAUSE_LINK ||| 2 ^ k) else if k = 6 then s.clear.setF F.PWR_WAKE_CAUSE_ECHO 0 1
        else if k = 7 then s.clear.setF F.PWR_WAKE_CAUSE_DOORBELL 0 1 else if k = 8 then s.clear.setF F.PWR_WAKE_CAUSE_PWAKE 0 1 else s.clear.setF F.PWR_WAKE_CAUSE_TIMER 0 1
      let wakes (i : Sys2Proof.Instr) (k : Nat) : Prop :=
        (k < 10 → st = 2 ∨ st = 3 → Sys2Proof.Machine.exec i s = .next (s.close (startWake (cause k)))) ∧
        (k < 10 → st = 4 → Sys2Proof.Machine.exec i s = .next (s.close (setPwr (cause k) { s.pwr with wakeDue := true }))) ∧
        (10 ≤ k ∨ (st ≠ 2 ∧ st ≠ 3 ∧ st ≠ 4) → Sys2Proof.Machine.exec i s = .next (s.close s.clear))
      wakes (.wake k) k ∧ wakes .pwake 8 ∧ (l < s.b.links → wakes (.lwake l) l) ∧ (s.b.links ≤ l → s.b.echo = true → wakes (.lwake l) 6) ∧
      (let due : Prop := t ≠ 0 ∧ t ≤ s.time ∧ (st = 2 ∨ st = 3 ∨ (st = 4 ∧ s.pwr.sleepAt < t))
       (due → wakes .wakeTimer 9) ∧ (¬ due → Sys2Proof.Machine.exec .wakeTimer s = .next (s.close s.clear)))) ∧
  (
    ∀ s : State,
      (startWake s).f F.PWR_STATE_STATE = 5 ∧
      (startWake s).f F.PWR_WAKE_CAUSE_COUNT = (s.f F.PWR_WAKE_CAUSE_COUNT + 1) % 2 ^ F.PWR_WAKE_CAUSE_COUNT.w ∧
      (startWake s).pwr.step = 1 ∧ (startWake s).pwr.wakeDue = false ∧
      (startWake s).gal = s.gal ∧ (startWake s).qs = s.qs ∧ (startWake s).cmds = s.cmds ∧ (startWake s).time = s.time ∧ (startWake s).ph = s.ph)

/-- A domain's acknowledgement, its timeout, its retry, the driver's retry, and the gate of an idle island. For every state with the always-on island powered and out of PORESET_N: an acknowledgement of an outstanding request gives PWR_DOM.STATE the state requested, sets in motion what waited for it unless the domain has FAILED, and sends the request that waited behind it; one of no request does nothing; a request not answered within DOMTMO makes the domain FAILED and raises a fault that names it, and a bank, core or miscellaneous domain is asked again once, 1 ms later; a write of FAILED of a domain that is FAILED asks again at once; in IDLE an island without work for GATE microseconds is gated. Before its time each does nothing. (spec/14 R372, spec/14 R373, spec/14 R376) -/
def Obligations.DomainRequestsSettleOrFail : Prop :=
  ∀ (s : State) (d i : Nat), aonOn s = true →
    (domWaits s d = false → Sys2Proof.Machine.exec (.domainAck d) s = .next (s.close s.clear)) ∧
    (domWaits s d = true →
      let code := s.f F.PWR_DOM_REQ d
      let a := (setPwr s.clear { s.pwr with domAt := mdel s.pwr.domAt d, domNext := mdel s.pwr.domNext d, retryAt := mdel s.pwr.retryAt d, retried := s.pwr.retried.filter (· != d) }).setF F.PWR_DOM_STATE d code
      let y : State := if s.fb F.PWR_DOM_FAILED d = true then a else domSettled a d code
      (s.pwr.domNext.find? (·.1 == d) = none → Sys2Proof.Machine.exec (.domainAck d) s = .next (s.close y)) ∧
      (∀ x, s.pwr.domNext.find? (·.1 == d) = some x → Sys2Proof.Machine.exec (.domainAck d) s = .next (s.close (reqDom y d x.2)))) ∧
    (s.pwr.domAt.find? (·.1 == d) = none → Sys2Proof.Machine.exec (.domainTimeout d) s = .next (s.close s.clear)) ∧
    (∀ x, s.pwr.domAt.find? (·.1 == d) = some x →
      let due : Prop := x.2.2 = false ∧ x.2.1 + max 1 (s.f F.PWR_CFG_DOMTMO) * 1000 ≤ s.time
      let again : Prop := 5 ≤ domKind s.b d ∧ s.pwr.retried.contains d = false
      let a := ((setPwr s.clear { s.pwr with domAt := mset s.pwr.domAt d (x.2.1, true) }).setF F.PWR_DOM_FAILED d 1).raise (hwFault 9 5 d true none 0)
      (¬ due → Sys2Proof.Machine.exec (.domainTimeout d) s = .next (s.close s.clear)) ∧
      (due → ¬ again → Sys2Proof.Machine.exec (.domainTimeout d) s = .next (s.close a)) ∧
      (due → again → Sys2Proof.Machine.exec (.domainTimeout d) s = .next (s.close (setPwr a { a.pwr with retryAt := mset s.pwr.retryAt d (s.time + 1000000) })))) ∧
    (s.pwr.retryAt.find? (·.1 == d) = none → Sys2Proof.Machine.exec (.domainRetry d) s = .next (s.close s.clear)) ∧
    (∀ x, s.pwr.retryAt.find? (·.1 == d) = some x →
      (x.2 ≤ s.time → Sys2Proof.Machine.exec (.domainRetry d) s
        = .next (s.close (resendDom (setPwr s.clear { s.pwr with retryAt := mdel s.pwr.retryAt d, retried := addTo s.pwr.retried d }) d))) ∧
      (s.time < x.2 → Sys2Proof.Machine.exec (.domainRetry d) s = .next (s.close s.clear))) ∧
    (HostReady s → d < s.b.domains →
      (s.fb F.PWR_DOM_FAILED d = true → Sys2Proof.Machine.exec (.pwrDomFailedWrite d) s
        = .next (s.close (resendDom (setPwr s.clear { s.pwr with retryAt := mdel s.pwr.retryAt d }) d).ok)) ∧
      (s.fb F.PWR_DOM_FAILED d = false → Sys2Proof.Machine.exec (.pwrDomFailedWrite d) s = .next (s.close s.clear.ok))) ∧
    (let idle : Prop := s.f F.PWR_STATE_STATE = 1 ∧ 2 ≤ i ∧ i ≤ leveled s.b ∧ (busyIslands s).contains i = false ∧ mget 0 s.pwr.busyAt i + max 1 (s.f F.PWR_CFG_GATE) * 1000 ≤ s.time
     (idle → Sys2Proof.Machine.exec (.islandGate i) s = .next (s.close (s.clear.setF F.PWR_ISL_GATED i 1))) ∧
     (¬ idle → Sys2Proof.Machine.exec (.islandGate i) s = .next (s.close s.clear)))

/-- Samples of the sensors, the limit of an external sensor, SUPPLY_LOW, PCEIL and PSLEW, and the grant of a level. For every state with the always-on island powered and out of PORESET_N: a sample of a sensor stores the temperature, moves the sensor's state by the thresholds and the hysteresis and settles its zone, and the sample 0x800 makes the sensor fail; an external sample also notes its time, and 10 ms without one makes an enabled sensor fail, and no other; SUPPLY_LOW sets or clears the supply clamp, a first rise with a fault; PCEIL and PSLEW give the effective ceiling and slew; a grant notes the level requested for its island, and for no other number. With that island off, and for a number of no sensor, a sample does nothing. (spec/14 R384, spec/14 R391, spec/14 R392, spec/14 R393, spec/14 R394, spec/14 R395, spec/14 R399, spec/18 R489) -/
def Obligations.SensorsAndSupplyAreTaken : Prop :=
  ∀ (s : State) (n temp i : Nat),
    (aonOn s = true →
      (let taken (y : State) (k : Nat) : State :=
         let a := setPwr (y.setF F.PWR_SENS_TEMP k (temp % 4096)) { y.pwr with sfail := y.pwr.sfail.filter (· != k) }
         if temp % 4096 = 0x800 then sensFail (y.setF F.PWR_SENS_TEMP k 0x800) k
         else zoneSettle ((a.setF F.PWR_SENS_STATE k (sensNext a k (a.f F.PWR_SENS_STATE k) (tempOf (temp % 4096)))).setF F.PWR_SENS_VALID k 1) (sensZone s k) (sensIsl s k)
       (n < 64 → Sys2Proof.Machine.exec (.sensorSample n temp) s = .next (s.close (taken s.clear n))) ∧
       (n < 16 → Sys2Proof.Machine.exec (.externalSample n temp) s
         = .next (s.close (taken (setPwr s.clear { s.pwr with extAt := mset s.pwr.extAt n s.time }) (64 + n))))) ∧
      (let late : Prop := n < 16 ∧ s.fb F.PWR_EXTCFG_EN n = true ∧ mget 0 s.pwr.extAt n + 10000000 ≤ s.time
       (late → Sys2Proof.Machine.exec (.externalSensorTimeout n) s = .next (s.close (sensFail s.clear (64 + n)))) ∧
       (¬ late → Sys2Proof.Machine.exec (.externalSensorTimeout n) s = .next (s.close s.clear))) ∧
      (s.fb F.PWR_CLAMP_SUPPLY = false → Sys2Proof.Machine.exec .supplyLowRise s
        = .next (s.close (emergSettle ((s.clear.setF F.PWR_CLAMP_SUPPLY 0 1).raise (hwFault 9 3 0 false none 0))))) ∧
      (s.fb F.PWR_CLAMP_SUPPLY = true → Sys2Proof.Machine.exec .supplyLowRise s = .next (s.close s.clear)) ∧
      (Sys2Proof.Machine.exec .supplyLowFall s = .next (s.close (emergSettle (s.clear.setF F.PWR_CLAMP_SUPPLY 0 0)))) ∧
      (Sys2Proof.Machine.exec (.pceilChange temp n) s
        = .next (s.close (ceilSettle ((setPwr s.clear { s.pwr with pslew := if n = 0 then none else some (n % 1024) }).setF F.PWR_CEIL_PPORT 0 temp)))) ∧
      (0 < i → i ≤ leveled s.b → Sys2Proof.Machine.exec (.levelGrant i) s
        = .next (s.close (setPwr s.clear { s.pwr with granted := mset s.pwr.granted i (levelOf s i) })))) ∧
    (aonOn s = false ∨ i = 0 ∨ leveled s.b < i → Sys2Proof.Machine.exec (.levelGrant i) s = .next (s.close s.clear)) ∧
    (aonOn s = false ∨ 64 ≤ n → Sys2Proof.Machine.exec (.sensorSample n temp) s = .next (s.close s.clear)) ∧
    (aonOn s = false ∨ 16 ≤ n → Sys2Proof.Machine.exec (.externalSample n temp) s = .next (s.close s.clear))

/-- The governor's interval, the forecast, the thermal model's step and the fallback ramp. For every state: when its 10 microsecond interval is due, the governor shows a power that is a free value and the envelope that the rules give, and adds the energy; when its millisecond is due and the postmaster runs, a forecast has the next SEQ in all 16 bins and becomes valid, and the model makes one step in every zone, and a zone in NORMAL has no cap; a ramp step lowers every cap of the fallback governor in proportion to the time that has passed of RAMP, never raises one, and at the end of RAMP every cap is at most the SAFE level of its class. Before its time, or while what makes it is off, each does nothing. The powers and the forecast are free values: the statement holds for every one of them. (spec/14 R385, spec/14 R386, spec/14 R388, spec/14 R389, spec/14 R396, spec/14 R397) -/
def Obligations.GovernorForecastAndModelRun : Prop :=
  ∀ s : State, s.f F.PWR_CEIL_EFFECTIVE < 65536 →
    (s.ctlOn = true → s.pwr.interval ≤ s.time / 10000 → ∃ e, Sys2Proof.Machine.exec .governorInterval s = .next (s.close e) ∧
      e.f F.PWR_EST_P10US = (Config.freeWord s.free).toNat % 65536 ∧
      e.f F.PWR_EST_ENVELOPE = envelope s (s.f F.PWR_EST_P10US) / 10 % 2 ^ F.PWR_EST_ENVELOPE.w ∧
      e.pwr.interval = s.time / 10000 + 1 ∧ e.free = s.free + 2 ∧ e.gal = s.gal ∧ e.qs = s.qs ∧ e.cmds = s.cmds ∧ e.time = s.time) ∧
    (s.ctlOn = false ∨ s.time / 10000 < s.pwr.interval → Sys2Proof.Machine.exec .governorInterval s = .next (s.close s.clear)) ∧
    (postRuns s = true → s.pwr.pubs ≤ s.time / 1000000 → ∃ e, Sys2Proof.Machine.exec .forecastPublication s = .next (s.close e) ∧
      e.f F.PWR_STAT_FCSTVALID = 1 ∧ (∀ k < 16, e.f F.PWR_FCST_SEQ k = (s.f F.PWR_FCST_SEQ 0 + 1) % 65536) ∧
      (∀ k < 16, e.f F.PWR_FCST_EXPECT k ≤ e.f F.PWR_FCST_UPPER k ∧ e.f F.PWR_FCST_UPPER k ≤ s.f F.PWR_CEIL_EFFECTIVE) ∧
      e.pwr.pubs = s.time / 1000000 + 1 ∧ e.gal = s.gal ∧ e.qs = s.qs ∧ e.cmds = s.cmds) ∧
    (postRuns s = false ∨ s.time / 1000000 < s.pwr.pubs → Sys2Proof.Machine.exec .forecastPublication s = .next (s.close s.clear)) ∧
    (postRuns s = true → s.pwr.steps ≤ s.time / 1000000 → ∃ e, Sys2Proof.Machine.exec .thermalModelStep s = .next (s.close e) ∧
      e.pwr.steps = s.time / 1000000 + 1 ∧ (∀ z < zoneCount s.b, e.f F.PWR_ZONE_CAP z ≤ 15 ∧ (s.f F.PWR_ZONE_STATE z = 0 → e.f F.PWR_ZONE_CAP z = 15)) ∧ e.gal = s.gal ∧ e.qs = s.qs ∧ e.cmds = s.cmds) ∧
    (postRuns s = false ∨ s.time / 1000000 < s.pwr.steps → Sys2Proof.Machine.exec .thermalModelStep s = .next (s.close s.clear)) ∧
    (s.fb F.PWR_STAT_FALLBACK = true → aonOn s = true → ∃ e, Sys2Proof.Machine.exec .fallbackRampStep s = .next (s.close e) ∧
      (∀ z < zoneCount s.b, e.f F.PWR_ZONE_CAP z ≤ s.f F.PWR_ZONE_CAP z) ∧
      (max 1 (s.f F.PWR_SAFE_RAMP) * 1000 ≤ s.time - s.pwr.rampAt → ∀ z < zoneCount s.b,
        e.f F.PWR_ZONE_CAP z ≤ safeLevel s (zoneClass s.b z)) ∧
      e.pwr = s.pwr ∧ e.gal = s.gal ∧ e.qs = s.qs ∧ e.cmds = s.cmds) ∧
    (s.fb F.PWR_STAT_FALLBACK = false ∨ aonOn s = false → Sys2Proof.Machine.exec .fallbackRampStep s = .next (s.close s.clear))

/-- Accesses of FW_VAULT_DATA, the zeroing of the vault, GO, and the end of the checks. For every state: a write of FW_VAULT_DATA stores the word at FW_VAULT_ADDR when the slots may be written and sets ERR otherwise, and moves on when AUTOINC is set; a read gives the word, or zero with DATAERR when it cannot be read; the end of the zeroing empties the vault, sets READY and lets step 3 of the start-up begin, once; GO stores SLOT and, in IDLE or REJECTED with a zeroed vault, starts the checks with the reading of the committed settings; once those are read the checks end: when they pass the image is active and every core starts, and a failing check rejects the image with its cause and a fault; while they are still read, or where no checks are under way, nothing happens. (spec/15 R403, spec/15 R404, spec/15 R405, spec/15 R407, spec/15 R408, spec/15 R409, spec/18 R494) -/
def Obligations.VaultAccessesAndBoot : Prop :=
  ∀ (s : State) (v : W64) (g : Nat),
    (HostReady s → Sys2Proof.Machine.exec (.fwVaultDataAccess true v) s = .next (s.close (vaultNext
        (if vaultWrites s.clear then vaultStore s.clear (s.f F.FW_VAULT_ADDR_ADDR * 8) v else s.clear.setF F.FW_VAULT_ADDR_ERR 0 1)).ok)) ∧
    (HostReady s → Sys2Proof.Machine.exec (.fwVaultDataAccess false v) s = .next (s.close
        (let r := vaultAccess s.clear false 0
         hAnswer r.1 false 0x110020 (if r.2.2 then .okay else .dataerr) (toBytes 8 r.2.1.toNat)))) ∧
    (s.rst = 0 → s.fb F.FW_STAT_VAULTREADY = false →
      let z := ((setFw s.clear { s.fw with vault := [], verr := [], saved := false }).setF F.FW_STAT_VAULTREADY 0 1).setF F.INT_STARTUP_VAULTREADY 0 1
      (s.f F.INT_STARTUP_STEP = 2 → Sys2Proof.Machine.exec .vaultZeroed s = .next (s.close (z.setF F.INT_STARTUP_STEP 0 3))) ∧
      (s.f F.INT_STARTUP_STEP ≠ 2 → Sys2Proof.Machine.exec .vaultZeroed s = .next (s.close z))) ∧
    (s.rst ≠ 0 ∨ s.fb F.FW_STAT_VAULTREADY = true → Sys2Proof.Machine.exec .vaultZeroed s = .next (s.close s.clear)) ∧
    (WorkReady s →
      let y : State := s.clear.setF F.FW_BOOT_SLOT 0 (g / 2 % 2)
      let starts : Prop := g % 2 = 1 ∧ s.fb F.FW_STAT_VAULTREADY = true ∧ (s.f F.FW_STAT_STATE = 0 ∨ s.f F.FW_STAT_STATE = 3)
      (starts → Sys2Proof.Machine.exec (.go g) s
        = .next (s.close (readLog ((setFw (y.setF F.FW_STAT_STATE 0 1) { s.fw with slot := g / 2 % 2 }).setF F.INT_STARTUP_STEP 0 4)).ok)) ∧
      (¬ starts → Sys2Proof.Machine.exec (.go g) s = .next (s.close y.ok))) ∧
    (hostOk s = true → s.f F.FW_STAT_STATE = 1 →
      let r := verifySlot s.clear s.fw.slot
      (s.cmt.job = none → Sys2Proof.Machine.exec .verificationDone s = .next (s.close
        (if r.2 = 0 then readyState (startCores (((takeImage r.1 s.fw.slot).setF F.FW_STAT_STATE 0 2).setF F.FW_STAT_REJECT 0 0))
         else imageRejected (((r.1.setF F.FW_STAT_STATE 0 3).setF F.FW_STAT_REJECT 0 r.2).setF F.INT_STARTUP_STEP 0 7)))) ∧
      (s.cmt.job ≠ none → Sys2Proof.Machine.exec .verificationDone s = .next (s.close s.clear))) ∧
    (s.f F.FW_STAT_STATE ≠ 1 → s.f F.FW_UPDATE_STATE ≠ 1 → Sys2Proof.Machine.exec .verificationDone s = .next (s.close s.clear))

/-- The watchdog and the crash of a firmware core, LOCKSTEP, the end of a reload, and a postmark of the firmware. For every state in which the fabric has not halted and every core: the watchdog of a core that runs makes it RESTARTING with cause WATCHDOG and raises the fault of its role, an entry into DORMANT stops, and so does a crash with its own cause, MEMORY or EXCEPTION; the queues of a sorter freeze, the collectives of a relay core go back, the postmaster's commits stop and the fallback governor takes over; LOCKSTEP halts both cores of a running postmaster with a FATAL fault; a reload that reads its section lets the core run again, a first failure only marks it and a second halts it; a postmark at 0x100 or above of a core that runs goes through the filter of the log. Of a core that does not run, of another cause or point, and for a reload of a core that is not RESTARTING, nothing happens. (spec/15 R412, spec/15 R413, spec/15 R414, spec/15 R415, spec/15 R416, spec/15 R417, spec/15 R418, spec/15 R420, spec/15 R425) -/
def Obligations.CoresCrashReloadAndReturn : Prop :=
  ∀ (s : State) (k c level point : Nat) (a0 a1 : W64), k < 6 → hostOk s = true →
    let dead (cause : Nat) : State :=
      let u := ((coreGroup k).foldl (fun s j => s.setF F.FW_CORE_STATE j 2) (s.clear.setF F.FW_CORE_CAUSE k cause)).raise (restartFault k)
      let w := setFw u { s.fw with failed := s.fw.failed.filter (· != k) }
      let x : State := if s.f F.PWR_STATE_STATE = 4 ∧ s.pwr.sleepTo = 3 then setPwr w { s.pwr with wakeDue := true } else w
      if k ≤ 1 then sorterCrash x k else if k ≤ 3 then relayCrash x (k - 2) else cmtCrash (startFallback x)
    (s.coreUp k = true → Sys2Proof.Machine.exec (.coreWatchdogExpiry k) s = .next (s.close (dead 1)) ∧
      (c = 2 ∨ c = 3 → Sys2Proof.Machine.exec (.coreCrash k c) s = .next (s.close (dead c)))) ∧
    (s.coreUp k = false → Sys2Proof.Machine.exec (.coreWatchdogExpiry k) s = .next (s.close s.clear)) ∧
    (s.coreUp k = false ∨ (c ≠ 2 ∧ c ≠ 3) → Sys2Proof.Machine.exec (.coreCrash k c) s = .next (s.close s.clear)) ∧
    (postRuns s = true → Sys2Proof.Machine.exec .lockstep s = .next (s.close
      (State.raise (cmtCrash (startFallback ([4, 5].foldl (fun s j => (s.setF F.FW_CORE_STATE j 3).setF F.FW_CORE_CAUSE j 4) s.clear)))
        { hwFault 8 6 0 false none 0 with cls := 2 }))) ∧
    (postRuns s = false → Sys2Proof.Machine.exec .lockstep s = .next (s.close s.clear)) ∧
    (s.f F.FW_CORE_STATE k = 2 →
      let r := vaultScan s.clear (codeSection s k).1 (codeSection s k).2
      (r.2 = true → Sys2Proof.Machine.exec (.coreReloadComplete k) s
        = .next (s.close (coreRuns (setFw r.1 { r.1.fw with failed := r.1.fw.failed.filter (· != k) }) k))) ∧
      (r.2 = false → r.1.fw.failed.contains k = true → Sys2Proof.Machine.exec (.coreReloadComplete k) s = .next (s.close (haltCore r.1 k))) ∧
      (r.2 = false → r.1.fw.failed.contains k = false → Sys2Proof.Machine.exec (.coreReloadComplete k) s
        = .next (s.close (setFw r.1 { r.1.fw with failed := r.1.fw.failed ++ [k] })))) ∧
    (s.f F.FW_CORE_STATE k ≠ 2 → Sys2Proof.Machine.exec (.coreReloadComplete k) s = .next (s.close s.clear)) ∧
    (s.coreUp k = true → 0x100 ≤ point → Sys2Proof.Machine.exec (.postmark k level point a0 a1) s
      = .next (s.close (mkMark s.clear k level (point % 65536) a0 a1))) ∧
    (s.coreUp k = false ∨ point < 0x100 → Sys2Proof.Machine.exec (.postmark k level point a0 a1) s = .next (s.close s.clear))

/-- STAGE, the checks of a staged image, CANCEL and the quiet point of a firmware update. For every state: STAGE in IDLE or REJECTED begins the checks of the staging slot, whose end, while the postmaster runs, makes the update PENDING with its edition and postmark 0x20, or rejects it with its cause and a fault; CANCEL of an update under its checks, pending or deferred makes it IDLE with postmark 0x23; in other states each changes nothing. At a quiet point of a pending update for which every condition holds the queues freeze and the fallback governor takes over; at the next, an image below the floor or that cannot be read leaves the old one running with its cause, and otherwise the staged image becomes active, every core starts on it, the sorters go on, postmark 0x22 is made and the next letterbook record has a header in front. Where no update is pending, a condition fails or the postmaster does not run, nothing happens. (spec/15 R404, spec/15 R421, spec/15 R422, spec/15 R423, spec/15 R424) -/
def Obligations.UpdatesAreStagedAndActivated : Prop :=
  ∀ s : State,
    let st := s.f F.FW_UPDATE_STATE
    let slot := stagingSlot s
    (WorkReady s →
      (st = 0 ∨ st = 5 → Sys2Proof.Machine.exec .stage s = .next (s.close ((s.clear.setF F.FW_UPDATE_STATE 0 1).setF F.FW_UPDATE_DEFER 0 0).ok)) ∧
      (st ≠ 0 → st ≠ 5 → Sys2Proof.Machine.exec .stage s = .next (s.close s.clear.ok)) ∧
      (st = 1 ∨ st = 2 ∨ st = 3 → Sys2Proof.Machine.exec .updateCancel s
        = .next (s.close (mkMark ((s.clear.setF F.FW_UPDATE_STATE 0 0).setF F.FW_UPDATE_DEFER 0 0) 4 1 0x23 (BitVec.ofNat 64 (s.f F.FW_STAGED_EDITION)) 0).ok)) ∧
      (st ≠ 1 → st ≠ 2 → st ≠ 3 → Sys2Proof.Machine.exec .updateCancel s = .next (s.close s.clear.ok))) ∧
    (postRuns s = true → s.flt.halt = 0 → s.f F.FW_STAT_STATE ≠ 1 → st = 1 →
      let r := verifySlot s.clear slot
      let y := ((r.1.setF F.FW_UPDATE_STATE 0 2).setF F.FW_UPDATE_REJECT 0 0).setF F.FW_STAGED_EDITION 0 (imgEdition r.1 (slot * slotBytes))
      Sys2Proof.Machine.exec .verificationDone s = .next (s.close
        (if r.2 = 0 then mkMark y 4 1 0x20 (BitVec.ofNat 64 (y.f F.FW_STAGED_EDITION)) 0
         else imageRejected ((r.1.setF F.FW_UPDATE_STATE 0 5).setF F.FW_UPDATE_REJECT 0 r.2)))) ∧
    (postRuns s = true → s.flt.halt = 0 →
      (st = 2 → activationCode s = 0 → Sys2Proof.Machine.exec .quietPoint s
        = .next (s.close (startFallback ((s.qs.map (·.1)).foldl freezeQueue (s.clear.setF F.FW_UPDATE_STATE 0 4))))) ∧
      (st = 4 →
        let low : Prop := imgRollback s (slot * slotBytes) < s.f F.FW_STAT_FLOOR
        let read := loadSlot s.clear slot
        let on := cmtReturn (resumeSorters (startCores (takeImage (cmtCrash read.1) slot)))
        let m := mkMark on 4 1 0x22 (BitVec.ofNat 64 (on.f F.FW_STAT_EDITION)) (BitVec.ofNat 64 (s.f F.FW_STAT_EDITION))
        let y := (m.setF F.FW_UPDATE_STATE 0 0).noteFw 2
        (low → Sys2Proof.Machine.exec .quietPoint s = .next (s.close (keepOld s.clear 7))) ∧
        (¬ low → read.2 = false → Sys2Proof.Machine.exec .quietPoint s = .next (s.close (keepOld read.1 8))) ∧
        (¬ low → read.2 = true → Sys2Proof.Machine.exec .quietPoint s = .next (s.close (setObs y { y.obs with hdrDue := true, rpStale := y.f F.OBS_RP_STAT_STATE == 1 })))) ∧
      (st ≠ 4 → st ≠ 2 ∨ activationCode s ≠ 0 → Sys2Proof.Machine.exec .quietPoint s = .next (s.close s.clear))) ∧
    (postRuns s = false ∨ s.flt.halt ≠ 0 → Sys2Proof.Machine.exec .quietPoint s = .next (s.close s.clear))

/-- Counters are viewed and sampled; letterbook records enter staging, wait or are dropped. For every state and partition: a read of OBS_PLC_TIME, or of its register in the window of an ENABLED partition, answers with the time of the selected placement and stores its three counters, which are 0 for a placement that does not exist and, in a window that does not view all, for one whose unit is not of the viewed partition; a write of VIEW is taken only while OPEN_LAB is on, a value above 64 selecting the window's own partition. The trace, when it samples and PERIOD microseconds have passed, notes the time and places a sample of its set, of a free partition for a per-partition set, and otherwise does nothing. When a record has been made and the control island runs: with space in staging it enters, with GAP when records were dropped before it, is traced where its partition is and is written to the ring as that has space; without space it waits while HOLD and EN are set, and is dropped, counted and traced otherwise; with none made, or the island off, nothing happens. A write of OBS_LB_HEAD frees the ring and staged records are written to it. (spec/17 R451, spec/17 R452, spec/17 R453, spec/04 R115, spec/17 R455, spec/17 R457, spec/17 R458) -/
def Obligations.CountersAreSampledAndRecordsWritten : Prop :=
  (
    ∀ (s : State) (p v : Nat), s.b.Permitted →
      (WorkReady s →
        let n := placeNow s (s.f F.OBS_PLC_SEL_KIND * 256 + s.f F.OBS_PLC_SEL_INDEX)
        let g (x : Nat) : Nat := if s.f F.OBS_PLC_SEL_KIND < 5 then x else 0
        ∃ e, Sys2Proof.Machine.exec (.obsPlcTimeRead 64) s = .next (s.close e) ∧ e.f F.OBS_PLC_TIME_NS = g n.2.1 % 2 ^ F.OBS_PLC_TIME_NS.w ∧
          e.f F.OBS_PLC_BYTES_BYTES = g n.2.2.1 % 2 ^ F.OBS_PLC_BYTES_BYTES.w ∧ e.f F.OBS_PLC_ENERGY_UJ = g n.2.2.2 % 2 ^ F.OBS_PLC_ENERGY_UJ.w ∧
          e.out = [.hRsp false .okay (toBytes 8 (g n.2.1 % 2 ^ F.OBS_PLC_TIME_NS.w))] ∧ e.gal = s.gal ∧ e.qs = s.qs ∧ e.cmds = s.cmds) ∧
      (WorkReady s → Enabled s p →
        let n := placeNow s (s.f F.OBS_PW_PLC_SEL_KIND p * 256 + s.f F.OBS_PW_PLC_SEL_INDEX p)
        let g (x : Nat) : Nat := if s.f F.OBS_PW_PLC_SEL_KIND p < 5 ∧ (viewOf s p = 64 ∨ n.1 = viewOf s p) then x else 0
        ∃ e, Sys2Proof.Machine.exec (.obsPlcTimeRead p) s = .next (s.close e) ∧ e.f F.OBS_PW_PLC_TIME_NS p = g n.2.1 % 2 ^ F.OBS_PW_PLC_TIME_NS.w ∧
          e.f F.OBS_PW_PLC_BYTES_BYTES p = g n.2.2.1 % 2 ^ F.OBS_PW_PLC_BYTES_BYTES.w ∧ e.f F.OBS_PW_PLC_ENERGY_UJ p = g n.2.2.2 % 2 ^ F.OBS_PW_PLC_ENERGY_UJ.w ∧
          e.out = [.hRsp false .okay (toBytes 8 (g n.2.1 % 2 ^ F.OBS_PW_PLC_TIME_NS.w))] ∧ e.gal = s.gal ∧ e.qs = s.qs ∧ e.cmds = s.cmds) ∧
      (HostReady s → Enabled s p → v < 128 →
        (s.fb F.INT_FEAT_OPENLAB = true → Sys2Proof.Machine.exec (.obsPwCtlWrite p v) s
          = .next (s.close (s.clear.setF F.OBS_PW_CTL_VIEW p (if v < 65 then v else p)).ok)) ∧
        (s.fb F.INT_FEAT_OPENLAB = false → Sys2Proof.Machine.exec (.obsPwCtlWrite p v) s = .next (s.close s.clear.ok))) ∧
      (let due : Prop := s.fb F.OBS_TRC_CFG_EN = true ∧ s.fb F.OBS_TRC_CFG_CNT = true ∧ s.f F.OBS_TRC_CFG_PERIOD ≠ 0 ∧ s.ctlOn = true ∧
         s.obs.trcAt + s.f F.OBS_TRC_CFG_PERIOD * 1000 ≤ s.time
       let set := s.f F.OBS_TRC_CFG_SET
       let t := setObs s.clear { s.obs with trcAt := s.time }
       (due → set < 4 → Sys2Proof.Machine.exec .traceSample s = .next (s.close (traceItem t.freeW.2 3 (snapWords t.freeW.2 (t.freeW.1.toNat % 64) set)))) ∧
       (due → 0x10 ≤ set → set < 0x15 → Sys2Proof.Machine.exec .traceSample s = .next (s.close (traceItem t.freeW.2 3 (snapWords t.freeW.2 0 set)))) ∧
       (due → (4 ≤ set ∧ set < 0x10) ∨ 0x15 ≤ set → Sys2Proof.Machine.exec .traceSample s = .next (s.close t)) ∧
       (¬ due → Sys2Proof.Machine.exec .traceSample s = .next (s.close s.clear)))) ∧
  (
    ∀ (s : State) (w : W64) (r : List W64) (rest : List (List W64)) (h : Nat),
      (s.obs.made = (w :: r) :: rest → s.ctlOn = true →
        let x := (if s.obs.gap then w ||| 0x0080000000000000#64 else w) :: r
        let part := if lbBits (w :: r) 0 54 54 = 1 then some (lbBits (w :: r) 0 53 48) else none
        let y := setObs s.clear { s.obs with made := rest, staging := s.obs.staging ++ [x], gap := false }
        let z := (setObs s.clear { s.obs with made := rest, gap := true }).satF F.OBS_LB_STAT_DROPPED 0
        (s.obs.staging.length < 65536 → Sys2Proof.Machine.exec .letterbookRecord s
          = .next (s.close (lbPump 4 (if s.fb F.OBS_TRC_CFG_LB = true ∧ traced s part = true then traceItem y 1 x else y)))) ∧
        (65536 ≤ s.obs.staging.length →
          (s.fb F.OBS_LB_CFG_HOLD = true ∧ s.fb F.OBS_LB_CFG_EN = true → Sys2Proof.Machine.exec .letterbookRecord s = .next (s.close s.clear)) ∧
          (s.fb F.OBS_LB_CFG_HOLD = false ∨ s.fb F.OBS_LB_CFG_EN = false → Sys2Proof.Machine.exec .letterbookRecord s
            = .next (s.close (if s.fb F.OBS_TRC_CFG_LB = true ∧ traced s part = true then traceItem z 1 (w :: r) else z))))) ∧
      (s.obs.made = [] ∨ s.ctlOn = false → Sys2Proof.Machine.exec .letterbookRecord s = .next (s.close s.clear)) ∧
      (HostReady s → Sys2Proof.Machine.exec (.letterbookHeadWrite h) s = .next (s.close (lbPump 65536 (s.clear.setF F.OBS_LB_HEAD_HEAD 0 h)).ok)))

/-- GO reads the first record of a replay or refuses, STOP ends the run, and a decision point without its record diverges. For every state in which registers may start work: GO outside a run clears what was filed and USED and reads the first record, unless it is already being read; GO in a run is refused with cause 11; STOP of a run makes STATE STOPPED and drops the filed records, and outside a run changes nothing. A decision point of a queue that has waited WAIT milliseconds diverges the run: a scan's, at which no command stands, with KIND when its next record is of another kind than a scan's; a CALLP's with KIND when its next record is no pin, and its command completes with REPLAY_DIVERGED; another command's, and one without a record, with WAIT. While the queue waits at no decision point, its time is not over or no run is under way, nothing happens. (spec/17 R461, spec/17 R463, spec/17 R464) -/
def Obligations.ReplayRunsStartStopAndDiverge : Prop :=
  ∀ (s : State) (q : Nat),
    (WorkReady s → s.ctlOn = true →
      (s.f F.OBS_RP_STAT_STATE ≠ 1 → s.obs.rpOut = false →
        Sys2Proof.Machine.exec .replayGo s = .next (s.close (rpRead ((setObs s.clear { s.obs with filed := [], rpStale := false }).setF F.OBS_RP_STAT_USED 0 0)).ok)) ∧
      (s.f F.OBS_RP_STAT_STATE ≠ 1 → s.obs.rpOut = true → Sys2Proof.Machine.exec .replayGo s = .next (s.close s.clear.ok)) ∧
      (s.f F.OBS_RP_STAT_STATE = 1 → Sys2Proof.Machine.exec .replayGo s = .next (s.close
        (((setObs s.clear { s.obs with filed := [] }).setF F.OBS_RP_STAT_STATE 0 4).setF F.OBS_RP_STAT_CAUSE 0 11).ok)) ∧
      (s.f F.OBS_RP_STAT_STATE = 1 → Sys2Proof.Machine.exec .replayStop s
        = .next (s.close (setObs (s.clear.setF F.OBS_RP_STAT_STATE 0 5) { s.obs with filed := [] }).ok)) ∧
      (s.f F.OBS_RP_STAT_STATE ≠ 1 → Sys2Proof.Machine.exec .replayStop s = .next (s.close s.clear.ok))) ∧
    (let late : Prop := s.f F.OBS_RP_STAT_STATE = 1 ∧ s.ctlOn = true ∧ s.flt.halt = 0 ∧
       ∃ t, (s.q q).rpSince = some t ∧ t + max 1 (s.f F.OBS_RP_CFG_WAIT) * 1000000 ≤ s.time
     let r := rpRecord s q
     (late → rpCmd s q = none → Sys2Proof.Machine.exec (.replayWaitExpiry q) s
       = .next (s.close (s.clear.diverge (if r ≠ [] ∧ lbKind r ≠ 1 then 1 else 3) r q (s.q q).sq.toNat 0))) ∧
     (∀ c, late → rpCmd s q = some c →
       (∀ d, c.body = .callp d → Sys2Proof.Machine.exec (.replayWaitExpiry q) s = .next (s.close (divergeCmd s.clear (if r ≠ [] ∧ lbKind r ≠ 5 then 1 else 3) r c))) ∧
       ((∀ d, c.body ≠ .callp d) → Sys2Proof.Machine.exec (.replayWaitExpiry q) s = .next (s.close (divergeCmd s.clear 3 r c)))) ∧
     (¬ late → Sys2Proof.Machine.exec (.replayWaitExpiry q) s = .next (s.close s.clear)))


/-- Requests of a partition take effect, and those of the mailbox move their state. For every state in which registers may start work: PRT_CTL ENABLE of a DISABLED partition makes it ENABLED while fewer than PARTITION_MAX partitions are not DISABLED, and else sets REFUSE to 1; a disable request of an ENABLED partition that is not paired begins the disable sequence in its mode, a paired one sets REFUSE to 2, and an abort request of a drain carries it on in abort mode; any other request changes nothing; the letterbook notes each write. When the condition of the step in progress holds, the sequence begins step 4, then step 5, then ends; when DRAINLIM milliseconds of a drain's step 3 are over it goes on in abort mode; otherwise these do nothing. With the mailbox of a partition that is not DISABLED in the state that the command needs: SEND makes it CHECKING; a check of a good request makes it PENDING, sets the bit of PRT_PEND and raises GINT[4], a bad request is answered with RESULT 3; REPLY makes it DONE, clears the bit and raises INTREQ of the partition; ACK makes it IDLE; in another state, only a write's answer is given. (spec/16 R427, spec/16 R428, spec/16 R435, spec/16 R436, spec/16 R434) -/
def Obligations.PartitionAndMailboxRequestsTakeEffect : Prop :=
  (
    ∀ (s : State) (p : Nat), p < 64 → hostOk s = true →
      let st := s.f F.PRT_STAT_STATE p
      (HostReady s →
        let en := notePrt s.clear p 1
        let dr := notePrt s.clear p 2
        let ab := notePrt s.clear p 3
        (st = 0 → liveParts s < settingOf s 7 0 →
          Sys2Proof.Machine.exec (.partitionEnable p) s = .next (s.close ((en.setF F.PRT_STAT_STATE p 1).setF F.PRT_STAT_REFUSE p 0).ok)) ∧
        (st = 0 → settingOf s 7 0 ≤ liveParts s → Sys2Proof.Machine.exec (.partitionEnable p) s = .next (s.close (en.setF F.PRT_STAT_REFUSE p 1).ok)) ∧
        (st ≠ 0 → Sys2Proof.Machine.exec (.partitionEnable p) s = .next (s.close en.ok)) ∧
        (st = 1 → pairedPart s p = false → Sys2Proof.Machine.exec (.partitionDisableDrain p) s = .next (s.close (disableBegin dr p false).ok) ∧
          Sys2Proof.Machine.exec (.partitionDisableAbort p) s = .next (s.close (disableBegin ab p true).ok)) ∧
        (st = 1 → pairedPart s p = true → Sys2Proof.Machine.exec (.partitionDisableDrain p) s = .next (s.close (dr.setF F.PRT_STAT_REFUSE p 2).ok) ∧
          Sys2Proof.Machine.exec (.partitionDisableAbort p) s = .next (s.close (ab.setF F.PRT_STAT_REFUSE p 2).ok)) ∧
        (st = 2 → s.fb F.PRT_STAT_ABORT p = false → Sys2Proof.Machine.exec (.partitionDisableAbort p) s = .next (s.close (disableToAbort ab p).ok)) ∧
        (st ≠ 1 → Sys2Proof.Machine.exec (.partitionDisableDrain p) s = .next (s.close dr.ok)) ∧
        (st ≠ 1 → st ≠ 2 ∨ s.fb F.PRT_STAT_ABORT p = true → Sys2Proof.Machine.exec (.partitionDisableAbort p) s = .next (s.close ab.ok))) ∧
      (st = 2 → disableEnds s p = true →
        (s.f F.PRT_STAT_STEP p = 3 → Sys2Proof.Machine.exec (.disableStepEnd p) s = .next (s.close (disableStep4 s.clear p))) ∧
        (s.f F.PRT_STAT_STEP p = 4 → Sys2Proof.Machine.exec (.disableStepEnd p) s = .next (s.close (disableStep5 s.clear p))) ∧
        (s.f F.PRT_STAT_STEP p = 5 → Sys2Proof.Machine.exec (.disableStepEnd p) s = .next (s.close (disableEnd s.clear p)))) ∧
      (st ≠ 2 ∨ disableEnds s p = false → Sys2Proof.Machine.exec (.disableStepEnd p) s = .next (s.close s.clear)) ∧
      (let due : Prop := st = 2 ∧ s.fb F.PRT_STAT_ABORT p = false ∧ s.f F.PRT_STAT_STEP p = 3 ∧ s.f F.PRT_CFG_DRAINLIM p ≠ 0 ∧
         (s.dis p).at3 + s.f F.PRT_CFG_DRAINLIM p * 1000000 ≤ s.time
       (due → Sys2Proof.Machine.exec (.drainlimExpiry p) s = .next (s.close (disableToAbort s.clear p))) ∧
       (¬ due → Sys2Proof.Machine.exec (.drainlimExpiry p) s = .next (s.close s.clear)))) ∧
  (
    ∀ (s : State) (p : Nat), p < 64 → s.f F.PRT_STAT_STATE p = 1 ∨ s.f F.PRT_STAT_STATE p = 2 → hostOk s = true →
      let mb := s.f F.PRT_MBOX_CTL_STATE p
      (HostReady s →
        (mb = 0 → Sys2Proof.Machine.exec (.mailboxSend p) s = .next (s.close (s.clear.setF F.PRT_MBOX_CTL_STATE p 1).ok)) ∧
        (mb ≠ 0 → Sys2Proof.Machine.exec (.mailboxSend p) s = .next (s.close s.clear.ok)) ∧
        (mb = 2 → Sys2Proof.Machine.exec (.reply p) s = .next (s.close ((setBitF (s.clear.setF F.PRT_MBOX_CTL_STATE p 3) F.PRT_PEND_PEND p false).irqP p).ok)) ∧
        (mb ≠ 2 → Sys2Proof.Machine.exec (.reply p) s = .next (s.close s.clear.ok)) ∧
        (mb = 3 → Sys2Proof.Machine.exec (.ack p) s = .next (s.close (s.clear.setF F.PRT_MBOX_CTL_STATE p 0).ok)) ∧
        (mb ≠ 3 → Sys2Proof.Machine.exec (.ack p) s = .next (s.close s.clear.ok))) ∧
      (postRuns s = true → mb = 1 → mboxGood s p = true → Sys2Proof.Machine.exec (.mailboxCheck p) s
        = .next (s.close ((setBitF (s.clear.setF F.PRT_MBOX_CTL_STATE p 2) F.PRT_PEND_PEND p true).irqG 4))) ∧
      (postRuns s = true → mb = 1 → mboxGood s p = false → Sys2Proof.Machine.exec (.mailboxCheck p) s = .next (s.close (mboxAnswer s.clear p 3))) ∧
      (postRuns s = false ∨ mb ≠ 1 → Sys2Proof.Machine.exec (.mailboxCheck p) s = .next (s.close s.clear)))

/-- ARM, COMMIT, the K-port's acknowledgements and the lane repairs. For every state: an ARM that no cause refuses stores its fields and arms, and a refused one, a SECURE_DEBUG without its token with cause 9, stores them and shows its cause; a COMMIT that repeats an ARM of the last second and that no cause refuses programs the entry of the setting's old and new value into the lowest empty slot, word 1 first; without an ARM, too late or of other fields it is refused with cause 6, 7 or 8. At the start-up each acknowledgement gives the word of the slot that is read, an error making the slot torn, and the read goes on; while the postmaster runs those of a program write word 0 and read both words back, and the commit takes effect when they read as programmed and fails when they do not or at an error; without a request, nothing happens. A lane repair that the log or the waiting ones do not hold waits its turn, or, with the K-port free, is committed, or raises OTP_ERROR when the log or the link's share is full; one that they hold changes nothing. (spec/16 R437, spec/16 R439, spec/16 R440, spec/16 R443, spec/18 R490) -/
def Obligations.CommitsAreArmedProgrammedAndReadBack : Prop :=
  ∀ (s : State) (w : W64) (n : Nat) (w0 w1 back v : W64) (err : Bool) (l rep : Nat),
    let code := fieldOf w 63 60
    let link := fieldOf w 59 57
    let val := fieldOf w 23 0
    let armed := ((((s.clear.setF F.CMT_ARM_SETTING 0 code).setF F.CMT_ARM_LINK 0 link).setF F.CMT_ARM_FORV 0 (fieldOf w 56 56)).setF
      F.CMT_ARM_FOR 0 (fieldOf w 55 50)).setF F.CMT_ARM_VALUE 0 val
    (WorkReady s →
      (commitCause armed code link val = 0 → (code = 5 → tokenOk armed = true) →
        Sys2Proof.Machine.exec (.cmtArm w.toNat) s = .next (s.close (setCmt (armed.setF F.CMT_STAT_STATE 0 1) { s.cmt with armAt := s.time }).ok)) ∧
      (commitCause armed code link val = 0 → code = 5 → tokenOk armed = false → Sys2Proof.Machine.exec (.cmtArm w.toNat) s = .next (s.close (cmtRefuse armed 9).ok)) ∧
      (commitCause armed code link val ≠ 0 → Sys2Proof.Machine.exec (.cmtArm w.toNat) s = .next (s.close (cmtRefuse armed (commitCause armed code link val)).ok)) ∧
      (let same : Prop := code = s.f F.CMT_ARM_SETTING ∧ link = s.f F.CMT_ARM_LINK ∧ fieldOf w 56 56 = s.f F.CMT_ARM_FORV ∧ fieldOf w 55 50 = s.f F.CMT_ARM_FOR ∧ val = s.f F.CMT_ARM_VALUE
       (s.f F.CMT_STAT_STATE = 1 → s.time ≤ s.cmt.armAt + 1000000 → same → commitCause s code link val = 0 → Sys2Proof.Machine.exec (.cmtCommit w.toNat) s
         = .next (s.close (program s.clear code (if code = 3 then link else 0) (if fieldOf w 56 56 = 1 then fieldOf w 55 50 else 64) (settingOf s code link) val).ok)) ∧
       (s.f F.CMT_STAT_STATE = 1 → s.time ≤ s.cmt.armAt + 1000000 → same → commitCause s code link val ≠ 0 → Sys2Proof.Machine.exec (.cmtCommit w.toNat) s
         = .next (s.close (cmtRefuse s.clear (commitCause s code link val)).ok)) ∧
       (s.f F.CMT_STAT_STATE = 1 → s.time ≤ s.cmt.armAt + 1000000 → ¬ same → Sys2Proof.Machine.exec (.cmtCommit w.toNat) s = .next (s.close (cmtRefuse s.clear 8).ok)) ∧
       (s.f F.CMT_STAT_STATE = 1 → s.cmt.armAt + 1000000 < s.time → Sys2Proof.Machine.exec (.cmtCommit w.toNat) s = .next (s.close (cmtRefuse s.clear 7).ok)) ∧
       (s.f F.CMT_STAT_STATE ≠ 1 → Sys2Proof.Machine.exec (.cmtCommit w.toNat) s = .next (s.close (cmtRefuse s.clear 6).ok)))) ∧
    (s.cmt.kreq ≠ none →
      let kd := setCmt s.clear { s.cmt with kreq := none }
      let torn := setCmt kd { kd.cmt with bad := addTo s.cmt.bad n, log := mdel s.cmt.log n }
      let read := setCmt kd { kd.cmt with log := if w0 = 0 ∧ v = 0 then mdel s.cmt.log n else mset s.cmt.log n (w0, v) }
      (s.cmt.job = some (.read n none) → Sys2Proof.Machine.exec (.kAck v err) s
        = .next (s.close (if err then logNext torn n else kSend kd (.read n (some v)) false (2 * n + 1) 0))) ∧
      (s.cmt.job = some (.read n (some w0)) → Sys2Proof.Machine.exec (.kAck v err) s = .next (s.close (logNext (if err then torn else read) n))) ∧
      (postRuns s = true →
        (s.cmt.job = some (.prog n w0 w1 0 0) → Sys2Proof.Machine.exec (.kAck v false) s = .next (s.close (kSend kd (.prog n w0 w1 1 0) true (2 * n) w0))) ∧
        (s.cmt.job = some (.prog n w0 w1 1 0) → Sys2Proof.Machine.exec (.kAck v false) s = .next (s.close (kSend kd (.prog n w0 w1 2 0) false (2 * n) 0))) ∧
        (s.cmt.job = some (.prog n w0 w1 2 0) → Sys2Proof.Machine.exec (.kAck v false) s = .next (s.close (kSend kd (.prog n w0 w1 3 v) false (2 * n + 1) 0))) ∧
        (s.cmt.job = some (.prog n w0 w1 3 back) → Sys2Proof.Machine.exec (.kAck v false) s
          = .next (s.close (if back = w0 ∧ v = w1 then commitDone kd n w0 w1 else commitFails kd n (!(back == 0 && v == 0))))) ∧
        (∀ k, s.cmt.job = some (.prog n w0 w1 k back) → Sys2Proof.Machine.exec (.kAck v true) s = .next (s.close (commitFails kd n true))))) ∧
    (s.cmt.kreq = none ∨ s.cmt.job = none → Sys2Proof.Machine.exec (.kAck v err) s = .next (s.close s.clear)) ∧
    (let known : Bool := (entriesOf s 8 l).any (fun e => fieldOf e.2 23 16 == rep % 256) || s.cmt.reps.contains (l, rep % 256)
     let free : Prop := s.cmt.job = none ∧ postRuns s = true ∧ s.f F.CMT_STAT_STATE ≠ 2
     let q := setCmt s.clear { s.cmt with reps := s.cmt.reps ++ [(l, rep % 256)] }
     let full : Prop := 8 ≤ (entriesOf s 8 l).length ∨ emptySlot s = none
     (s.b.links ≤ l ∨ known = true → Sys2Proof.Machine.exec (.laneRepair l rep) s = .next (s.close s.clear)) ∧
     (l < s.b.links → known = false →
       (¬ free → Sys2Proof.Machine.exec (.laneRepair l rep) s = .next (s.close q)) ∧
       (free → Sys2Proof.Machine.exec (.laneRepair l rep) s = .next (s.close (repairFrom q (s.cmt.reps ++ [(l, rep % 256)])))) ∧
       (free → s.cmt.reps = [] → ¬ full → Sys2Proof.Machine.exec (.laneRepair l rep) s = .next (s.close (program s.clear 8 l 65 (settingOf s 8 l) (rep % 256)))) ∧
       (free → s.cmt.reps = [] → full → ∃ e, Sys2Proof.Machine.exec (.laneRepair l rep) s = .next (s.close e) ∧ e.cmt.reps = [] ∧ e.flt = (otpError s.clear l).flt)))


/-- PORESET_N, removal of power, the warm resets, the release of a reset, and TRST_N. For every state: PORESET_N and the removal of power leave exactly the power-on state of the build, in reset and without power; a warm reset leaves fabric time, the TAP, the count of warm resets plus one, LAST, the count of safe resets, one more after SAFE_RESET_N unless it is full, and the levels at the TIEBREAK, SUPPLY_LOW, PCEIL and PSLEW inputs with what follows from them, and every other register at its reset value, memory, queues, commands and units empty, and acts in a reset of the wider scope not at all; the release of a reset requests the domains of step 2 ON, and does nothing without a reset or power; TRST_N resets the TAP alone. The model's identifiers, free values and waiting commands go on, and the levels stand (choices of the model, log 40). (spec/18 R470, spec/18 R471, spec/18 R491, spec/18 R494, spec/18 R496) -/
def Obligations.ResetsLeaveTheirScope : Prop :=
  ∀ s : State, s.b.Permitted →
    let warm (t : State) (safe : Bool) : Prop :=
      t.rst = (if safe then 3 else 2) ∧ t.time = s.time ∧ t.tap = s.tap ∧ t.f F.INT_RST_WARM = (s.f F.INT_RST_WARM + 1) % 2 ^ F.INT_RST_WARM.w ∧
        t.f F.INT_RST_LAST = (if safe then 2 else 1) ∧
        t.f F.INT_RST_SAFE = (let n := s.f F.INT_RST_SAFE % 2 ^ F.INT_RST_SAFE.w
                              if safe ∧ n + 1 < 2 ^ F.INT_RST_SAFE.w then n + 1 else n) ∧
        t.f F.ECH_STAT_TIEBREAK = s.f F.ECH_STAT_TIEBREAK % 2 ^ F.ECH_STAT_TIEBREAK.w ∧ t.f F.PWR_CLAMP_SUPPLY = s.f F.PWR_CLAMP_SUPPLY % 2 ^ F.PWR_CLAMP_SUPPLY.w ∧
        t.f F.PWR_CEIL_PPORT = s.f F.PWR_CEIL_PPORT % 2 ^ F.PWR_CEIL_PPORT.w ∧
        t.qs = [] ∧ t.cmds = [] ∧ t.units = [] ∧ t.ops = [] ∧ t.mreqs = [] ∧ t.gal = {} ∧ t.stns = [] ∧ t.waits = [] ∧ t.watches = [] ∧ t.ph = [] ∧ t.colls = [] ∧ t.pending = s.pending ∧
        (∀ x i, [F.INT_RST_WARM, F.INT_RST_SAFE, F.INT_RST_LAST, F.ECH_STAT_TIEBREAK, F.PWR_CLAMP_SUPPLY, F.PWR_CEIL_PPORT, F.PWR_CEIL_EFFECTIVE, F.PWR_STAT_EFFSLEW].all
          (fun y => x.key i != y.key 0) = true → t.f x i = (State.init s.b false).f x i)
    Sys2Proof.Machine.exec .poresetN s = .next { State.init s.b false with pending := s.pending, nid := s.nid, free := s.free, rst := 1 } ∧
    Sys2Proof.Machine.exec .removalOfPower s = .next { State.init s.b false with pending := s.pending, nid := s.nid, free := s.free, rst := 4 } ∧
    (s.rst = 1 ∨ s.rst = 4 → Sys2Proof.Machine.exec .wresetN s = .next (s.close s.clear) ∧ Sys2Proof.Machine.exec .safeResetN s = .next (s.close s.clear)) ∧
    (s.rst ≠ 1 → s.rst ≠ 4 → (∃ t, Sys2Proof.Machine.exec .wresetN s = .next t ∧ warm t false) ∧ (∃ t, Sys2Proof.Machine.exec .safeResetN s = .next t ∧ warm t true)) ∧
    (s.rst ≠ 0 → s.rst ≠ 4 → Sys2Proof.Machine.exec .resetRelease s = .next (s.close (reqAll { s.clear with rst := 0 } (s.b.domBank 0) 30 3))) ∧
    (s.rst = 0 ∨ s.rst = 4 → Sys2Proof.Machine.exec .resetRelease s = .next (s.close s.clear)) ∧
    Sys2Proof.Machine.exec .trstN s = .next (s.close { s.clear with tap := ([], 0) })

/-- Accesses of the H-port in every state of the block, and of the TAP. For every state: in reset a read is answered with all ones and a write discarded, both OKAY; in NAP and DORMANT a write outside the doorbells is discarded, one in them rings and wakes, and a read gives what the porter knows; before step 2 of the start-up the porter answers so too; with the control island running, an access that breaks the rules or lies outside the space is answered REFUSED with an error item and has no effect; below the doorbells a write stores each register's enabled bytes by its rule and a read gives each register's value, or DATAERR, both answered at once but those of the gallery's data registers, which their own access answers; in the doorbells a write rings and a read gives zeros. A write of a register is a whole write of the H-port. Through the TAP with power, IDCODE gives the fixed code, another instruction than the network's shifts through BYPASS, an open instrument gives what it reads and a closed one 0; without power nothing happens. (spec/18 R472, spec/18 R476, spec/18 R477, spec/18 R491, spec/18 R492, spec/18 R494, spec/14 R382) -/
def Obligations.HostAccessesAreAnswered : Prop :=
  ∀ (s : State) (off len strb v ir k : Nat) (wr : Bool) (data : List Byte) (w : W64),
    let a := off / 8 * 8
    let n := (len + 7) / 8
    (s.rst ≠ 0 → Sys2Proof.Machine.exec (.hPortRequest off wr len strb data) s
      = .next { s with out := [.hRsp wr .okay (if wr then [] else List.replicate len 0xFF)] }) ∧
    (s.rst = 0 → s.f F.PWR_STATE_STATE = 2 ∨ s.f F.PWR_STATE_STATE = 3 →
      (inDoorbells off = false → Sys2Proof.Machine.exec (.hPortRequest off true len strb data) s = .next (s.close s.clear.ok)) ∧
      (inDoorbells off = true → Sys2Proof.Machine.exec (.hPortRequest off true len strb data) s = .next (s.close (wakeEvent (ringLocs s.clear off len strb) 7).ok)) ∧
      Sys2Proof.Machine.exec (.hPortRequest off false len strb data) s = .next (s.close (s.clear.emit (.hRsp false .okay (porterRead s sleepReg off len))))) ∧
    (s.rst = 0 → s.f F.PWR_STATE_STATE ≤ 1 → s.f F.INT_STARTUP_STEP < 2 → Sys2Proof.Machine.exec (.hPortRequest off wr len strb data) s
      = .next (s.close (s.clear.emit (.hRsp wr .okay (if wr then [] else porterRead s earlyReg off len))))) ∧
    (HostReady s → hRules off len = false ∨ 0x1440000 ≤ off → Sys2Proof.Machine.exec (.hPortRequest off wr len strb data) s
      = .next (s.close ((s.clear.emit (.hRsp wr .refused (if wr then [] else List.replicate len 0))).emit (.hErr wr off .refused)))) ∧
    (HostReady s → hRules off len = true → off < 0x1400000 →
      (let y := writeWordsH n s.clear a (List.replicate (off % 8) 0 ++ data) (strb % 2 ^ len * 2 ^ (off % 8))
       Sys2Proof.Machine.exec (.hPortRequest off true len strb data) s = .next (s.close (if (List.range n).any (fun j => isGalData (a + 8 * j)) then y else y.ok))) ∧
      (let r := readWordsH n s.clear a
       Sys2Proof.Machine.exec (.hPortRequest off false len strb data) s = .next (s.close (if r.2.2.2 = true ∧ n = 1 then r.1
         else hAnswer r.1 false off (if r.2.2.1 then .okay else .dataerr) ((r.2.1.drop (off % 8)).take len))))) ∧
    (HostReady s → off % 8 = 0 → off < 0x1400000 → v < 2 ^ 64 → Sys2Proof.Machine.exec (.registerWrite off v) s
      = .next (s.close (if isGalData off then regWrite s.clear off v (2 ^ 64 - 1) else (regWrite s.clear off v (2 ^ 64 - 1)).ok))) ∧
    (HostReady s → hRules off len = true → off < 0x1440000 → inDoorbells off = true →
      Sys2Proof.Machine.exec (.hPortRequest off true len strb data) s = .next (s.close (ringLocs s.clear off len strb).ok) ∧
      Sys2Proof.Machine.exec (.hPortRequest off false len strb data) s = .next (s.close (s.clear.emit (.hRsp false .okay (List.replicate len 0))))) ∧
    Sys2Proof.Machine.exec (.registerWrite off v) s = Sys2Proof.Machine.exec (.hPortRequest off true 8 255 (toBytes 8 v)) s ∧
    (aonOn s = true →
      let y : State := { s.clear with tap := ([k], 0x10) }
      Sys2Proof.Machine.exec (.tapAccess 1 k off wr w) s = .next (s.close (({ s.clear with tap := (s.tap.1, 1) } : State).emit (.tdo idcode))) ∧
      (ir ≠ 1 → ir ≠ 0x10 → Sys2Proof.Machine.exec (.tapAccess ir k off wr w) s
        = .next (s.close (({ s.clear with tap := (s.tap.1, ir % 256) } : State).emit (.tdo (w.toNat * 2 % 2 ^ 64))))) ∧
      (instrOpen s k = true → Sys2Proof.Machine.exec (.tapAccess 0x10 k off wr w) s
        = .next (s.close ((instrument y k off wr w).1.emit (.tdo (instrument y k off wr w).2)))) ∧
      (instrOpen s k = false → Sys2Proof.Machine.exec (.tapAccess 0x10 k off wr w) s
        = .next (s.close (({ s.clear with tap := ([], 0x10) } : State).emit (.tdo 0))))) ∧
    (aonOn s = false → Sys2Proof.Machine.exec (.tapAccess ir k off wr w) s = .next (s.close s.clear))

/-- An M-port's answers: data and write responses end their request; an error waits for its address and raises BUS_ERROR. For every state and a request sent and unanswered under a tag: an OKAY answer to a read gives its data, filled with zeros to its length, to the access, removes the request and ends the access when it waits for nothing else; an OKAY answer to a write does so too and the watches that the write overlaps are read again; an error answer marks the request, and for a write the watches are read again; an error item of the port that names an address in a marked request, the oldest such, or the end of the wait for one, raises BUS_ERROR with that address, or 0, and gives the error to the access, which ends so too. An answer, an item or an end that names no such request changes nothing. (spec/18 R480, spec/18 R481, spec/05 R148, spec/13 R354) -/
def Obligations.MemoryAnswersReachTheirRequests : Prop :=
  ∀ (s : State) (tag port addr : Nat) (r : MReq) (data : List Byte) (resp : Resp),
    let marked : State := { s.clear with mreqs := s.mreqs.map fun x => if x.tag = tag then { x with errAt := some s.time } else x }
    let item := s.mreqs.find? (fun r => r.port == port && r.errAt.isSome && decide (r.pa ≤ addr) && decide (addr < r.pa + r.len))
    let late := s.mreqs.find? (fun r => r.tag == tag && r.errAt.isSome)
    (mreqOf s tag false = some r →
      Sys2Proof.Machine.exec (.mPortReadData tag .okay data) s
        = .next (s.close (answered (mDrop (mGive s.clear r .okay (r.bytes data)) tag) r.op)) ∧
      (resp ≠ .okay → Sys2Proof.Machine.exec (.mPortReadData tag resp data) s = .next (s.close marked))) ∧
    (mreqOf s tag false = none → Sys2Proof.Machine.exec (.mPortReadData tag resp data) s = .next (s.close s.clear)) ∧
    (mreqOf s tag true = some r →
      Sys2Proof.Machine.exec (.mPortWriteResponse tag .okay) s
        = .next (s.close (watchesHit (answered (mDrop (mGive s.clear r .okay []) tag) r.op) r.pa r.len)) ∧
      (resp ≠ .okay → Sys2Proof.Machine.exec (.mPortWriteResponse tag resp) s = .next (s.close (watchesHit marked r.pa r.len)))) ∧
    (mreqOf s tag true = none → Sys2Proof.Machine.exec (.mPortWriteResponse tag resp) s = .next (s.close s.clear)) ∧
    (item = some r → Sys2Proof.Machine.exec (.mPortErrorItem port addr) s
      = .next (s.close (answered (mDrop (mGive (busError s.clear r addr) r .dataerr []) r.tag) r.op))) ∧
    (item = none → Sys2Proof.Machine.exec (.mPortErrorItem port addr) s = .next (s.close s.clear)) ∧
    (late = some r → Sys2Proof.Machine.exec (.busErrorAddrWaitExpiry tag) s
      = .next (s.close (answered (mDrop (mGive (busError s.clear r 0) r .dataerr []) r.tag) r.op))) ∧
    (late = none → Sys2Proof.Machine.exec (.busErrorAddrWaitExpiry tag) s = .next (s.close s.clear))

/-- CAPS, READY and a gallery request of an engine. For every state with the control island running, the fabric not halted, and an engine's port: CAPS reports the class, with 6 and 8 to 15 as 7, the interface revision, and the compression modes of class 5 alone, and another word nothing; READY of a port that has reported makes it ready and ends its reset, and of another, or a ready one, does nothing. With fewer than 64 gallery requests of the port unanswered, one whose UTAG names no unit is refused with XLATE_FAULT and counted; one of a unit goes with its mask to the hall of its line or column line, with the unit's partition and context and not as privileged, or, where that hall has no power, is answered with CHAMBER_DARK; one beyond the 64, or of a unit that waits to complete, is not taken. (spec/18 R483, spec/18 R485, spec/18 R486, spec/07 R182, spec/07 R190) -/
def Obligations.EnginesReportAndAccessTheGallery : Prop :=
  ∀ (s : State) (k ut g a mask : Nat) (w : W64) (u : Wunit) (col wr sl tr : Bool) (data : List Byte), k < s.b.eports → s.ctlOn = true → s.flt.halt = 0 →
    (fieldOf w 63 56 = 1 → let c := fieldOf w 55 52
      Sys2Proof.Machine.exec (.caps k w) s = .next (s.close ((((s.clear.setF F.INT_EPORT_REPORTED k 1).setF F.INT_EPORT_CLASS k
        (if c = 6 ∨ 8 ≤ c then 7 else c)).setF F.INT_EPORT_IFREV k (fieldOf w 51 48)).setF F.INT_EPORT_COMP k (if c = 5 then fieldOf w 47 44 else 0)))) ∧
    (fieldOf w 63 56 ≠ 1 → Sys2Proof.Machine.exec (.caps k w) s = .next (s.close s.clear)) ∧
    (s.fb F.INT_EPORT_REPORTED k = true → s.fb F.INT_EPORT_READY k = false → Sys2Proof.Machine.exec (.ready k) s
      = .next (s.close (drainPort (State.setF { s.clear with sch := { s.sch with resets := mdel s.sch.resets k } } F.INT_EPORT_READY k 1) k))) ∧
    (s.fb F.INT_EPORT_REPORTED k = false ∨ s.fb F.INT_EPORT_READY k = true → Sys2Proof.Machine.exec (.ready k) s = .next (s.close s.clear)) ∧
    (engPending s k < 64 →
      (unitByTag s k ut = none → Sys2Proof.Machine.exec (.galleryRequest k ut g a col mask wr sl tr data) s
        = .next (s.close (State.incF (s.clear.emit (.eGal k g .xlateFault [])) F.GAL_STAT_REFUSED 0))) ∧
      (unitByTag s k ut = some u → s.cmdHeld u.cmd = false →
        let at_ := if col then a / 32 * 32 else a / 512 * 512
        let d := (data ++ List.replicate 512 0).take 512
        let o : Op := { mkOp (.engGal k ut g) ⟨u.part, some (s.qCtx u.q), false⟩ k .gal at_ 512 wr d with
          id := s.nid, trn := tr, sealed := sl, cur := 512, parts := [⟨s.nid + 1, 0, 512, at_, .gallery, true, none⟩], data := if wr then d else List.replicate 512 0 }
        let m : State := { s.clear with ops := s.ops ++ [o], nid := s.nid + 2 }
        (s.domOn (s.b.domLogic (s.hallOf at_)) = false → Sys2Proof.Machine.exec (.galleryRequest k ut g a col mask wr sl tr data) s
          = .next (s.close (partDone m s.nid (s.nid + 1) .chamberDark []))) ∧
        (s.domOn (s.b.domLogic (s.hallOf at_)) = true → Sys2Proof.Machine.exec (.galleryRequest k ut g a col mask wr sl tr data) s
          = .next (s.close (m.hIssue ⟨s.nid + 1, s.nid, k, ⟨u.part, some (s.qCtx u.q), false⟩, at_, 512, wr, col, 2 ^ 16 + mask % 2 ^ 16, tr, sl, false, if wr then d else [], none, none⟩)))) ∧
      (unitByTag s k ut = some u → s.cmdHeld u.cmd = true → Sys2Proof.Machine.exec (.galleryRequest k ut g a col mask wr sl tr data) s = .next (s.close s.clear))) ∧
    (64 ≤ engPending s k → Sys2Proof.Machine.exec (.galleryRequest k ut g a col mask wr sl tr data) s = .next (s.close s.clear))
end

