-- ==== Sys2Proof/Laws/Map.lean ====
section
/-! SUPPORT. The laws of the keyed tables: what a table reads after a write, and that a write keeps its keys rising. -/

namespace Sys2Proof.Machine

variable {β : Type}

/-- The keys of a table rise strictly. -/
def rising (m : SMap β) : Prop := m.Pairwise fun a c => a.1 < c.1

theorem mget_mset_same (d : β) (m : SMap β) (k : Nat) (v : β) : mget d (mset m k v) k = v := by
  induction m with
  | nil => simp [mset, mget]
  | cons e r ih =>
    obtain ⟨a, w⟩ := e
    simp only [mset]
    split
    · simp [mget]
    · split
      · simp [mget]
      · simp [mget, *]

theorem mget_mset_ne (d : β) (m : SMap β) (k j : Nat) (v : β) (h : j ≠ k) : mget d (mset m k v) j = mget d m j := by
  induction m with
  | nil => simp [mset, mget, Ne.symm h]
  | cons e r ih =>
    obtain ⟨a, w⟩ := e
    simp only [mset]
    split
    · subst_vars; simp [mget, Ne.symm h]
    · split
      · simp [mget, Ne.symm h]
      · simp [mget, ih]

theorem mem_mset {m : SMap β} {k : Nat} {v : β} {e : Nat × β} (h : e ∈ mset m k v) : e = (k, v) ∨ e ∈ m := by
  induction m with
  | nil => simpa [mset] using h
  | cons x r ih =>
    obtain ⟨a, w⟩ := x
    simp only [mset] at h
    split at h
    · simp at h; rcases h with h | h <;> simp [h]
    · split at h
      · simpa using h
      · simp at h
        rcases h with h | h
        · simp [h]
        · rcases ih h with h | h <;> simp [h]

/-- A write keeps the keys of a table rising. -/
theorem mset_rising {m : SMap β} (k : Nat) (v : β) (h : rising m) : rising (mset m k v) := by
  induction m with
  | nil => simp [rising, mset]
  | cons x r ih =>
    obtain ⟨a, w⟩ := x
    simp only [rising, List.pairwise_cons] at h
    simp only [mset]
    split
    · subst_vars; simpa [rising] using h
    · split
      · rename_i hlt
        simp only [rising, List.pairwise_cons, List.mem_cons]
        refine ⟨?_, h⟩
        rintro e (rfl | he)
        · exact hlt
        · exact Nat.lt_trans hlt (h.1 e he)
      · simp only [rising, List.pairwise_cons]
        refine ⟨?_, ih h.2⟩
        intro e he
        rcases mem_mset he with rfl | he
        · simp only; omega
        · exact h.1 e he

theorem mdel_rising {m : SMap β} (k : Nat) (h : rising m) : rising (mdel m k) := List.Pairwise.filter _ h

end Sys2Proof.Machine
end

