-- ==== Sys2Proof/Laws/State.lean ====
section
/-! SUPPORT. What each update of the state leaves: one lemma per field per update, so that no later proof unfolds a record update. -/

namespace Sys2Proof.Machine

variable (s : State)

/-! ### setF -/

@[simp] theorem State.setF_b (x : Fld) (i v : Nat) : (s.setF x i v).b = s.b := rfl
@[simp] theorem State.setF_pending (x : Fld) (i v : Nat) : (s.setF x i v).pending = s.pending := rfl
@[simp] theorem State.setF_time (x : Fld) (i v : Nat) : (s.setF x i v).time = s.time := rfl
@[simp] theorem State.setF_flds (x : Fld) (i v : Nat) : (s.setF x i v).flds = mset s.flds (x.key i) (v % 2 ^ x.w) := rfl
@[simp] theorem State.setF_out (x : Fld) (i v : Nat) : (s.setF x i v).out = s.out := rfl
@[simp] theorem State.setF_nid (x : Fld) (i v : Nat) : (s.setF x i v).nid = s.nid := rfl
@[simp] theorem State.setF_free (x : Fld) (i v : Nat) : (s.setF x i v).free = s.free := rfl
@[simp] theorem State.setF_qs (x : Fld) (i v : Nat) : (s.setF x i v).qs = s.qs := rfl
@[simp] theorem State.setF_cmds (x : Fld) (i v : Nat) : (s.setF x i v).cmds = s.cmds := rfl
@[simp] theorem State.setF_units (x : Fld) (i v : Nat) : (s.setF x i v).units = s.units := rfl
@[simp] theorem State.setF_pcls (x : Fld) (i v : Nat) : (s.setF x i v).pcls = s.pcls := rfl
@[simp] theorem State.setF_eds (x : Fld) (i v : Nat) : (s.setF x i v).eds = s.eds := rfl
@[simp] theorem State.setF_ops (x : Fld) (i v : Nat) : (s.setF x i v).ops = s.ops := rfl
@[simp] theorem State.setF_mreqs (x : Fld) (i v : Nat) : (s.setF x i v).mreqs = s.mreqs := rfl
@[simp] theorem State.setF_lreqs (x : Fld) (i v : Nat) : (s.setF x i v).lreqs = s.lreqs := rfl
@[simp] theorem State.setF_locks (x : Fld) (i v : Nat) : (s.setF x i v).locks = s.locks := rfl
@[simp] theorem State.setF_lout (x : Fld) (i v : Nat) : (s.setF x i v).lout = s.lout := rfl
@[simp] theorem State.setF_lcr (x : Fld) (i v : Nat) : (s.setF x i v).lcr = s.lcr := rfl
@[simp] theorem State.setF_ltx (x : Fld) (i v : Nat) : (s.setF x i v).ltx = s.ltx := rfl
@[simp] theorem State.setF_lret (x : Fld) (i v : Nat) : (s.setF x i v).lret = s.lret := rfl
@[simp] theorem State.setF_ltxn (x : Fld) (i v : Nat) : (s.setF x i v).ltxn = s.ltxn := rfl
@[simp] theorem State.setF_linkOut (x : Fld) (i v : Nat) : (s.setF x i v).linkOut = s.linkOut := rfl
@[simp] theorem State.setF_lsigs (x : Fld) (i v : Nat) : (s.setF x i v).lsigs = s.lsigs := rfl
@[simp] theorem State.setF_lpart (x : Fld) (i v : Nat) : (s.setF x i v).lpart = s.lpart := rfl
@[simp] theorem State.setF_lrx (x : Fld) (i v : Nat) : (s.setF x i v).lrx = s.lrx := rfl
@[simp] theorem State.setF_lneg (x : Fld) (i v : Nat) : (s.setF x i v).lneg = s.lneg := rfl
@[simp] theorem State.setF_gmem (x : Fld) (i v : Nat) : (s.setF x i v).gmem = s.gmem := rfl
@[simp] theorem State.setF_colls (x : Fld) (i v : Nat) : (s.setF x i v).colls = s.colls := rfl
@[simp] theorem State.setF_colRx (x : Fld) (i v : Nat) : (s.setF x i v).colRx = s.colRx := rfl
@[simp] theorem State.setF_colN (x : Fld) (i v : Nat) : (s.setF x i v).colN = s.colN := rfl
@[simp] theorem State.setF_tsync (x : Fld) (i v : Nat) : (s.setF x i v).tsync = s.tsync := rfl
@[simp] theorem State.setF_gal (x : Fld) (i v : Nat) : (s.setF x i v).gal = s.gal := rfl
@[simp] theorem State.setF_ph (x : Fld) (i v : Nat) : (s.setF x i v).ph = s.ph := rfl
@[simp] theorem State.setF_waits (x : Fld) (i v : Nat) : (s.setF x i v).waits = s.waits := rfl
@[simp] theorem State.setF_watches (x : Fld) (i v : Nat) : (s.setF x i v).watches = s.watches := rfl
@[simp] theorem State.setF_sch (x : Fld) (i v : Nat) : (s.setF x i v).sch = s.sch := rfl
@[simp] theorem State.setF_stns (x : Fld) (i v : Nat) : (s.setF x i v).stns = s.stns := rfl
@[simp] theorem State.setF_xlt (x : Fld) (i v : Nat) : (s.setF x i v).xlt = s.xlt := rfl
@[simp] theorem State.setF_flt (x : Fld) (i v : Nat) : (s.setF x i v).flt = s.flt := rfl
@[simp] theorem State.setF_obs (x : Fld) (i v : Nat) : (s.setF x i v).obs = s.obs := rfl
@[simp] theorem State.setF_ech (x : Fld) (i v : Nat) : (s.setF x i v).ech = s.ech := rfl
@[simp] theorem State.setF_pwr (x : Fld) (i v : Nat) : (s.setF x i v).pwr = s.pwr := rfl
@[simp] theorem State.setF_fw (x : Fld) (i v : Nat) : (s.setF x i v).fw = s.fw := rfl
@[simp] theorem State.setF_cmt (x : Fld) (i v : Nat) : (s.setF x i v).cmt = s.cmt := rfl
@[simp] theorem State.setF_prt (x : Fld) (i v : Nat) : (s.setF x i v).prt = s.prt := rfl
@[simp] theorem State.setF_tap (x : Fld) (i v : Nat) : (s.setF x i v).tap = s.tap := rfl
@[simp] theorem State.setF_latch (x : Fld) (i v : Nat) : (s.setF x i v).latch = s.latch := rfl
@[simp] theorem State.setF_cbuf (x : Fld) (i v : Nat) : (s.setF x i v).cbuf = s.cbuf := rfl
@[simp] theorem State.setF_stall (x : Fld) (i v : Nat) : (s.setF x i v).stall = s.stall := rfl
@[simp] theorem State.setF_cyc (x : Fld) (i v : Nat) : (s.setF x i v).cyc = s.cyc := rfl
@[simp] theorem State.setF_irq (x : Fld) (i v : Nat) : (s.setF x i v).irq = s.irq := rfl
@[simp] theorem State.setF_rr (x : Fld) (i v : Nat) : (s.setF x i v).rr = s.rr := rfl
@[simp] theorem State.setF_rst (x : Fld) (i v : Nat) : (s.setF x i v).rst = s.rst := rfl
@[simp] theorem State.setF_q (x : Fld) (i v : Nat) (k : Nat) : (s.setF x i v).q k = s.q k := rfl

/-! ### incF -/

@[simp] theorem State.incF_b (x : Fld) (i k : Nat) : (s.incF x i k).b = s.b := rfl
@[simp] theorem State.incF_pending (x : Fld) (i k : Nat) : (s.incF x i k).pending = s.pending := rfl
@[simp] theorem State.incF_time (x : Fld) (i k : Nat) : (s.incF x i k).time = s.time := rfl
@[simp] theorem State.incF_flds (x : Fld) (i k : Nat) : (s.incF x i k).flds = mset s.flds (x.key i) ((s.f x i + k) % 2 ^ x.w) := rfl
@[simp] theorem State.incF_out (x : Fld) (i k : Nat) : (s.incF x i k).out = s.out := rfl
@[simp] theorem State.incF_nid (x : Fld) (i k : Nat) : (s.incF x i k).nid = s.nid := rfl
@[simp] theorem State.incF_free (x : Fld) (i k : Nat) : (s.incF x i k).free = s.free := rfl
@[simp] theorem State.incF_qs (x : Fld) (i k : Nat) : (s.incF x i k).qs = s.qs := rfl
@[simp] theorem State.incF_cmds (x : Fld) (i k : Nat) : (s.incF x i k).cmds = s.cmds := rfl
@[simp] theorem State.incF_units (x : Fld) (i k : Nat) : (s.incF x i k).units = s.units := rfl
@[simp] theorem State.incF_pcls (x : Fld) (i k : Nat) : (s.incF x i k).pcls = s.pcls := rfl
@[simp] theorem State.incF_eds (x : Fld) (i k : Nat) : (s.incF x i k).eds = s.eds := rfl
@[simp] theorem State.incF_ops (x : Fld) (i k : Nat) : (s.incF x i k).ops = s.ops := rfl
@[simp] theorem State.incF_mreqs (x : Fld) (i k : Nat) : (s.incF x i k).mreqs = s.mreqs := rfl
@[simp] theorem State.incF_lreqs (x : Fld) (i k : Nat) : (s.incF x i k).lreqs = s.lreqs := rfl
@[simp] theorem State.incF_locks (x : Fld) (i k : Nat) : (s.incF x i k).locks = s.locks := rfl
@[simp] theorem State.incF_lout (x : Fld) (i k : Nat) : (s.incF x i k).lout = s.lout := rfl
@[simp] theorem State.incF_lcr (x : Fld) (i k : Nat) : (s.incF x i k).lcr = s.lcr := rfl
@[simp] theorem State.incF_ltx (x : Fld) (i k : Nat) : (s.incF x i k).ltx = s.ltx := rfl
@[simp] theorem State.incF_lret (x : Fld) (i k : Nat) : (s.incF x i k).lret = s.lret := rfl
@[simp] theorem State.incF_ltxn (x : Fld) (i k : Nat) : (s.incF x i k).ltxn = s.ltxn := rfl
@[simp] theorem State.incF_linkOut (x : Fld) (i k : Nat) : (s.incF x i k).linkOut = s.linkOut := rfl
@[simp] theorem State.incF_lsigs (x : Fld) (i k : Nat) : (s.incF x i k).lsigs = s.lsigs := rfl
@[simp] theorem State.incF_lpart (x : Fld) (i k : Nat) : (s.incF x i k).lpart = s.lpart := rfl
@[simp] theorem State.incF_lrx (x : Fld) (i k : Nat) : (s.incF x i k).lrx = s.lrx := rfl
@[simp] theorem State.incF_lneg (x : Fld) (i k : Nat) : (s.incF x i k).lneg = s.lneg := rfl
@[simp] theorem State.incF_gmem (x : Fld) (i k : Nat) : (s.incF x i k).gmem = s.gmem := rfl
@[simp] theorem State.incF_colls (x : Fld) (i k : Nat) : (s.incF x i k).colls = s.colls := rfl
@[simp] theorem State.incF_colRx (x : Fld) (i k : Nat) : (s.incF x i k).colRx = s.colRx := rfl
@[simp] theorem State.incF_colN (x : Fld) (i k : Nat) : (s.incF x i k).colN = s.colN := rfl
@[simp] theorem State.incF_tsync (x : Fld) (i k : Nat) : (s.incF x i k).tsync = s.tsync := rfl
@[simp] theorem State.incF_gal (x : Fld) (i k : Nat) : (s.incF x i k).gal = s.gal := rfl
@[simp] theorem State.incF_ph (x : Fld) (i k : Nat) : (s.incF x i k).ph = s.ph := rfl
@[simp] theorem State.incF_waits (x : Fld) (i k : Nat) : (s.incF x i k).waits = s.waits := rfl
@[simp] theorem State.incF_watches (x : Fld) (i k : Nat) : (s.incF x i k).watches = s.watches := rfl
@[simp] theorem State.incF_sch (x : Fld) (i k : Nat) : (s.incF x i k).sch = s.sch := rfl
@[simp] theorem State.incF_stns (x : Fld) (i k : Nat) : (s.incF x i k).stns = s.stns := rfl
@[simp] theorem State.incF_xlt (x : Fld) (i k : Nat) : (s.incF x i k).xlt = s.xlt := rfl
@[simp] theorem State.incF_flt (x : Fld) (i k : Nat) : (s.incF x i k).flt = s.flt := rfl
@[simp] theorem State.incF_obs (x : Fld) (i k : Nat) : (s.incF x i k).obs = s.obs := rfl
@[simp] theorem State.incF_ech (x : Fld) (i k : Nat) : (s.incF x i k).ech = s.ech := rfl
@[simp] theorem State.incF_pwr (x : Fld) (i k : Nat) : (s.incF x i k).pwr = s.pwr := rfl
@[simp] theorem State.incF_fw (x : Fld) (i k : Nat) : (s.incF x i k).fw = s.fw := rfl
@[simp] theorem State.incF_cmt (x : Fld) (i k : Nat) : (s.incF x i k).cmt = s.cmt := rfl
@[simp] theorem State.incF_prt (x : Fld) (i k : Nat) : (s.incF x i k).prt = s.prt := rfl
@[simp] theorem State.incF_tap (x : Fld) (i k : Nat) : (s.incF x i k).tap = s.tap := rfl
@[simp] theorem State.incF_latch (x : Fld) (i k : Nat) : (s.incF x i k).latch = s.latch := rfl
@[simp] theorem State.incF_cbuf (x : Fld) (i k : Nat) : (s.incF x i k).cbuf = s.cbuf := rfl
@[simp] theorem State.incF_stall (x : Fld) (i k : Nat) : (s.incF x i k).stall = s.stall := rfl
@[simp] theorem State.incF_cyc (x : Fld) (i k : Nat) : (s.incF x i k).cyc = s.cyc := rfl
@[simp] theorem State.incF_irq (x : Fld) (i k : Nat) : (s.incF x i k).irq = s.irq := rfl
@[simp] theorem State.incF_rr (x : Fld) (i k : Nat) : (s.incF x i k).rr = s.rr := rfl
@[simp] theorem State.incF_rst (x : Fld) (i k : Nat) : (s.incF x i k).rst = s.rst := rfl
@[simp] theorem State.incF_q (x : Fld) (i k : Nat) (k : Nat) : (s.incF x i k).q k = s.q k := rfl

/-! ### emit -/

@[simp] theorem State.emit_b (o : Out) : (s.emit o).b = s.b := rfl
@[simp] theorem State.emit_pending (o : Out) : (s.emit o).pending = s.pending := rfl
@[simp] theorem State.emit_time (o : Out) : (s.emit o).time = s.time := rfl
@[simp] theorem State.emit_flds (o : Out) : (s.emit o).flds = s.flds := rfl
@[simp] theorem State.emit_out (o : Out) : (s.emit o).out = s.out ++ [o] := rfl
@[simp] theorem State.emit_nid (o : Out) : (s.emit o).nid = s.nid := rfl
@[simp] theorem State.emit_free (o : Out) : (s.emit o).free = s.free := rfl
@[simp] theorem State.emit_qs (o : Out) : (s.emit o).qs = s.qs := rfl
@[simp] theorem State.emit_cmds (o : Out) : (s.emit o).cmds = s.cmds := rfl
@[simp] theorem State.emit_units (o : Out) : (s.emit o).units = s.units := rfl
@[simp] theorem State.emit_pcls (o : Out) : (s.emit o).pcls = s.pcls := rfl
@[simp] theorem State.emit_eds (o : Out) : (s.emit o).eds = s.eds := rfl
@[simp] theorem State.emit_ops (o : Out) : (s.emit o).ops = s.ops := rfl
@[simp] theorem State.emit_mreqs (o : Out) : (s.emit o).mreqs = s.mreqs := rfl
@[simp] theorem State.emit_lreqs (o : Out) : (s.emit o).lreqs = s.lreqs := rfl
@[simp] theorem State.emit_locks (o : Out) : (s.emit o).locks = s.locks := rfl
@[simp] theorem State.emit_lout (o : Out) : (s.emit o).lout = s.lout := rfl
@[simp] theorem State.emit_lcr (o : Out) : (s.emit o).lcr = s.lcr := rfl
@[simp] theorem State.emit_ltx (o : Out) : (s.emit o).ltx = s.ltx := rfl
@[simp] theorem State.emit_lret (o : Out) : (s.emit o).lret = s.lret := rfl
@[simp] theorem State.emit_ltxn (o : Out) : (s.emit o).ltxn = s.ltxn := rfl
@[simp] theorem State.emit_linkOut (o : Out) : (s.emit o).linkOut = s.linkOut := rfl
@[simp] theorem State.emit_lsigs (o : Out) : (s.emit o).lsigs = s.lsigs := rfl
@[simp] theorem State.emit_lpart (o : Out) : (s.emit o).lpart = s.lpart := rfl
@[simp] theorem State.emit_lrx (o : Out) : (s.emit o).lrx = s.lrx := rfl
@[simp] theorem State.emit_lneg (o : Out) : (s.emit o).lneg = s.lneg := rfl
@[simp] theorem State.emit_gmem (o : Out) : (s.emit o).gmem = s.gmem := rfl
@[simp] theorem State.emit_colls (o : Out) : (s.emit o).colls = s.colls := rfl
@[simp] theorem State.emit_colRx (o : Out) : (s.emit o).colRx = s.colRx := rfl
@[simp] theorem State.emit_colN (o : Out) : (s.emit o).colN = s.colN := rfl
@[simp] theorem State.emit_tsync (o : Out) : (s.emit o).tsync = s.tsync := rfl
@[simp] theorem State.emit_gal (o : Out) : (s.emit o).gal = s.gal := rfl
@[simp] theorem State.emit_ph (o : Out) : (s.emit o).ph = s.ph := rfl
@[simp] theorem State.emit_waits (o : Out) : (s.emit o).waits = s.waits := rfl
@[simp] theorem State.emit_watches (o : Out) : (s.emit o).watches = s.watches := rfl
@[simp] theorem State.emit_sch (o : Out) : (s.emit o).sch = s.sch := rfl
@[simp] theorem State.emit_stns (o : Out) : (s.emit o).stns = s.stns := rfl
@[simp] theorem State.emit_xlt (o : Out) : (s.emit o).xlt = s.xlt := rfl
@[simp] theorem State.emit_flt (o : Out) : (s.emit o).flt = s.flt := rfl
@[simp] theorem State.emit_obs (o : Out) : (s.emit o).obs = s.obs := rfl
@[simp] theorem State.emit_ech (o : Out) : (s.emit o).ech = s.ech := rfl
@[simp] theorem State.emit_pwr (o : Out) : (s.emit o).pwr = s.pwr := rfl
@[simp] theorem State.emit_fw (o : Out) : (s.emit o).fw = s.fw := rfl
@[simp] theorem State.emit_cmt (o : Out) : (s.emit o).cmt = s.cmt := rfl
@[simp] theorem State.emit_prt (o : Out) : (s.emit o).prt = s.prt := rfl
@[simp] theorem State.emit_tap (o : Out) : (s.emit o).tap = s.tap := rfl
@[simp] theorem State.emit_latch (o : Out) : (s.emit o).latch = s.latch := rfl
@[simp] theorem State.emit_cbuf (o : Out) : (s.emit o).cbuf = s.cbuf := rfl
@[simp] theorem State.emit_stall (o : Out) : (s.emit o).stall = s.stall := rfl
@[simp] theorem State.emit_cyc (o : Out) : (s.emit o).cyc = s.cyc := rfl
@[simp] theorem State.emit_irq (o : Out) : (s.emit o).irq = s.irq := rfl
@[simp] theorem State.emit_rr (o : Out) : (s.emit o).rr = s.rr := rfl
@[simp] theorem State.emit_rst (o : Out) : (s.emit o).rst = s.rst := rfl
@[simp] theorem State.emit_f (o : Out) (y : Fld) (j : Nat) : (s.emit o).f y j = s.f y j := rfl
@[simp] theorem State.emit_fb (o : Out) (y : Fld) (j : Nat) : (s.emit o).fb y j = s.fb y j := rfl
@[simp] theorem State.emit_q (o : Out) (k : Nat) : (s.emit o).q k = s.q k := rfl

/-! ### clear -/

@[simp] theorem State.clear_b : (s.clear).b = s.b := rfl
@[simp] theorem State.clear_pending : (s.clear).pending = s.pending := rfl
@[simp] theorem State.clear_time : (s.clear).time = s.time := rfl
@[simp] theorem State.clear_flds : (s.clear).flds = s.flds := rfl
@[simp] theorem State.clear_out : (s.clear).out = [] := rfl
@[simp] theorem State.clear_nid : (s.clear).nid = s.nid := rfl
@[simp] theorem State.clear_free : (s.clear).free = s.free := rfl
@[simp] theorem State.clear_qs : (s.clear).qs = s.qs := rfl
@[simp] theorem State.clear_cmds : (s.clear).cmds = s.cmds := rfl
@[simp] theorem State.clear_units : (s.clear).units = s.units := rfl
@[simp] theorem State.clear_pcls : (s.clear).pcls = s.pcls := rfl
@[simp] theorem State.clear_eds : (s.clear).eds = s.eds := rfl
@[simp] theorem State.clear_ops : (s.clear).ops = s.ops := rfl
@[simp] theorem State.clear_mreqs : (s.clear).mreqs = s.mreqs := rfl
@[simp] theorem State.clear_lreqs : (s.clear).lreqs = s.lreqs := rfl
@[simp] theorem State.clear_locks : (s.clear).locks = s.locks := rfl
@[simp] theorem State.clear_lout : (s.clear).lout = s.lout := rfl
@[simp] theorem State.clear_lcr : (s.clear).lcr = s.lcr := rfl
@[simp] theorem State.clear_ltx : (s.clear).ltx = s.ltx := rfl
@[simp] theorem State.clear_lret : (s.clear).lret = s.lret := rfl
@[simp] theorem State.clear_ltxn : (s.clear).ltxn = s.ltxn := rfl
@[simp] theorem State.clear_linkOut : (s.clear).linkOut = s.linkOut := rfl
@[simp] theorem State.clear_lsigs : (s.clear).lsigs = s.lsigs := rfl
@[simp] theorem State.clear_lpart : (s.clear).lpart = s.lpart := rfl
@[simp] theorem State.clear_lrx : (s.clear).lrx = s.lrx := rfl
@[simp] theorem State.clear_lneg : (s.clear).lneg = s.lneg := rfl
@[simp] theorem State.clear_gmem : (s.clear).gmem = s.gmem := rfl
@[simp] theorem State.clear_colls : (s.clear).colls = s.colls := rfl
@[simp] theorem State.clear_colRx : (s.clear).colRx = s.colRx := rfl
@[simp] theorem State.clear_colN : (s.clear).colN = s.colN := rfl
@[simp] theorem State.clear_tsync : (s.clear).tsync = s.tsync := rfl
@[simp] theorem State.clear_gal : (s.clear).gal = s.gal := rfl
@[simp] theorem State.clear_ph : (s.clear).ph = s.ph := rfl
@[simp] theorem State.clear_waits : (s.clear).waits = s.waits := rfl
@[simp] theorem State.clear_watches : (s.clear).watches = s.watches := rfl
@[simp] theorem State.clear_sch : (s.clear).sch = s.sch := rfl
@[simp] theorem State.clear_stns : (s.clear).stns = s.stns := rfl
@[simp] theorem State.clear_xlt : (s.clear).xlt = s.xlt := rfl
@[simp] theorem State.clear_flt : (s.clear).flt = s.flt := rfl
@[simp] theorem State.clear_obs : (s.clear).obs = s.obs := rfl
@[simp] theorem State.clear_ech : (s.clear).ech = s.ech := rfl
@[simp] theorem State.clear_pwr : (s.clear).pwr = s.pwr := rfl
@[simp] theorem State.clear_fw : (s.clear).fw = s.fw := rfl
@[simp] theorem State.clear_cmt : (s.clear).cmt = s.cmt := rfl
@[simp] theorem State.clear_prt : (s.clear).prt = s.prt := rfl
@[simp] theorem State.clear_tap : (s.clear).tap = s.tap := rfl
@[simp] theorem State.clear_latch : (s.clear).latch = s.latch := rfl
@[simp] theorem State.clear_cbuf : (s.clear).cbuf = s.cbuf := rfl
@[simp] theorem State.clear_stall : (s.clear).stall = s.stall := rfl
@[simp] theorem State.clear_cyc : (s.clear).cyc = s.cyc := rfl
@[simp] theorem State.clear_irq : (s.clear).irq = s.irq := rfl
@[simp] theorem State.clear_rr : (s.clear).rr = s.rr := rfl
@[simp] theorem State.clear_rst : (s.clear).rst = s.rst := rfl
@[simp] theorem State.clear_f (y : Fld) (j : Nat) : (s.clear).f y j = s.f y j := rfl
@[simp] theorem State.clear_fb (y : Fld) (j : Nat) : (s.clear).fb y j = s.fb y j := rfl
@[simp] theorem State.clear_q (k : Nat) : (s.clear).q k = s.q k := rfl

/-! ### bump -/

@[simp] theorem State.bump_b : (s.bump).b = s.b := rfl
@[simp] theorem State.bump_pending : (s.bump).pending = s.pending := rfl
@[simp] theorem State.bump_time : (s.bump).time = s.time := rfl
@[simp] theorem State.bump_flds : (s.bump).flds = s.flds := rfl
@[simp] theorem State.bump_out : (s.bump).out = s.out := rfl
@[simp] theorem State.bump_nid : (s.bump).nid = s.nid + 1 := rfl
@[simp] theorem State.bump_free : (s.bump).free = s.free := rfl
@[simp] theorem State.bump_qs : (s.bump).qs = s.qs := rfl
@[simp] theorem State.bump_cmds : (s.bump).cmds = s.cmds := rfl
@[simp] theorem State.bump_units : (s.bump).units = s.units := rfl
@[simp] theorem State.bump_pcls : (s.bump).pcls = s.pcls := rfl
@[simp] theorem State.bump_eds : (s.bump).eds = s.eds := rfl
@[simp] theorem State.bump_ops : (s.bump).ops = s.ops := rfl
@[simp] theorem State.bump_mreqs : (s.bump).mreqs = s.mreqs := rfl
@[simp] theorem State.bump_lreqs : (s.bump).lreqs = s.lreqs := rfl
@[simp] theorem State.bump_locks : (s.bump).locks = s.locks := rfl
@[simp] theorem State.bump_lout : (s.bump).lout = s.lout := rfl
@[simp] theorem State.bump_lcr : (s.bump).lcr = s.lcr := rfl
@[simp] theorem State.bump_ltx : (s.bump).ltx = s.ltx := rfl
@[simp] theorem State.bump_lret : (s.bump).lret = s.lret := rfl
@[simp] theorem State.bump_ltxn : (s.bump).ltxn = s.ltxn := rfl
@[simp] theorem State.bump_linkOut : (s.bump).linkOut = s.linkOut := rfl
@[simp] theorem State.bump_lsigs : (s.bump).lsigs = s.lsigs := rfl
@[simp] theorem State.bump_lpart : (s.bump).lpart = s.lpart := rfl
@[simp] theorem State.bump_lrx : (s.bump).lrx = s.lrx := rfl
@[simp] theorem State.bump_lneg : (s.bump).lneg = s.lneg := rfl
@[simp] theorem State.bump_gmem : (s.bump).gmem = s.gmem := rfl
@[simp] theorem State.bump_colls : (s.bump).colls = s.colls := rfl
@[simp] theorem State.bump_colRx : (s.bump).colRx = s.colRx := rfl
@[simp] theorem State.bump_colN : (s.bump).colN = s.colN := rfl
@[simp] theorem State.bump_tsync : (s.bump).tsync = s.tsync := rfl
@[simp] theorem State.bump_gal : (s.bump).gal = s.gal := rfl
@[simp] theorem State.bump_ph : (s.bump).ph = s.ph := rfl
@[simp] theorem State.bump_waits : (s.bump).waits = s.waits := rfl
@[simp] theorem State.bump_watches : (s.bump).watches = s.watches := rfl
@[simp] theorem State.bump_sch : (s.bump).sch = s.sch := rfl
@[simp] theorem State.bump_stns : (s.bump).stns = s.stns := rfl
@[simp] theorem State.bump_xlt : (s.bump).xlt = s.xlt := rfl
@[simp] theorem State.bump_flt : (s.bump).flt = s.flt := rfl
@[simp] theorem State.bump_obs : (s.bump).obs = s.obs := rfl
@[simp] theorem State.bump_ech : (s.bump).ech = s.ech := rfl
@[simp] theorem State.bump_pwr : (s.bump).pwr = s.pwr := rfl
@[simp] theorem State.bump_fw : (s.bump).fw = s.fw := rfl
@[simp] theorem State.bump_cmt : (s.bump).cmt = s.cmt := rfl
@[simp] theorem State.bump_prt : (s.bump).prt = s.prt := rfl
@[simp] theorem State.bump_tap : (s.bump).tap = s.tap := rfl
@[simp] theorem State.bump_latch : (s.bump).latch = s.latch := rfl
@[simp] theorem State.bump_cbuf : (s.bump).cbuf = s.cbuf := rfl
@[simp] theorem State.bump_stall : (s.bump).stall = s.stall := rfl
@[simp] theorem State.bump_cyc : (s.bump).cyc = s.cyc := rfl
@[simp] theorem State.bump_irq : (s.bump).irq = s.irq := rfl
@[simp] theorem State.bump_rr : (s.bump).rr = s.rr := rfl
@[simp] theorem State.bump_rst : (s.bump).rst = s.rst := rfl
@[simp] theorem State.bump_f (y : Fld) (j : Nat) : (s.bump).f y j = s.f y j := rfl
@[simp] theorem State.bump_fb (y : Fld) (j : Nat) : (s.bump).fb y j = s.fb y j := rfl
@[simp] theorem State.bump_q (k : Nat) : (s.bump).q k = s.q k := rfl

/-! ### raise -/

@[simp] theorem State.raise_b (x : Flt) : (s.raise x).b = s.b := rfl
@[simp] theorem State.raise_pending (x : Flt) : (s.raise x).pending = s.pending := rfl
@[simp] theorem State.raise_time (x : Flt) : (s.raise x).time = s.time := rfl
@[simp] theorem State.raise_flds (x : Flt) : (s.raise x).flds = s.flds := rfl
@[simp] theorem State.raise_out (x : Flt) : (s.raise x).out = s.out := rfl
@[simp] theorem State.raise_nid (x : Flt) : (s.raise x).nid = s.nid := rfl
@[simp] theorem State.raise_free (x : Flt) : (s.raise x).free = s.free := rfl
@[simp] theorem State.raise_qs (x : Flt) : (s.raise x).qs = s.qs := rfl
@[simp] theorem State.raise_cmds (x : Flt) : (s.raise x).cmds = s.cmds := rfl
@[simp] theorem State.raise_units (x : Flt) : (s.raise x).units = s.units := rfl
@[simp] theorem State.raise_pcls (x : Flt) : (s.raise x).pcls = s.pcls := rfl
@[simp] theorem State.raise_eds (x : Flt) : (s.raise x).eds = s.eds := rfl
@[simp] theorem State.raise_ops (x : Flt) : (s.raise x).ops = s.ops := rfl
@[simp] theorem State.raise_mreqs (x : Flt) : (s.raise x).mreqs = s.mreqs := rfl
@[simp] theorem State.raise_lreqs (x : Flt) : (s.raise x).lreqs = s.lreqs := rfl
@[simp] theorem State.raise_locks (x : Flt) : (s.raise x).locks = s.locks := rfl
@[simp] theorem State.raise_lout (x : Flt) : (s.raise x).lout = s.lout := rfl
@[simp] theorem State.raise_lcr (x : Flt) : (s.raise x).lcr = s.lcr := rfl
@[simp] theorem State.raise_ltx (x : Flt) : (s.raise x).ltx = s.ltx := rfl
@[simp] theorem State.raise_lret (x : Flt) : (s.raise x).lret = s.lret := rfl
@[simp] theorem State.raise_ltxn (x : Flt) : (s.raise x).ltxn = s.ltxn := rfl
@[simp] theorem State.raise_linkOut (x : Flt) : (s.raise x).linkOut = s.linkOut := rfl
@[simp] theorem State.raise_lsigs (x : Flt) : (s.raise x).lsigs = s.lsigs := rfl
@[simp] theorem State.raise_lpart (x : Flt) : (s.raise x).lpart = s.lpart := rfl
@[simp] theorem State.raise_lrx (x : Flt) : (s.raise x).lrx = s.lrx := rfl
@[simp] theorem State.raise_lneg (x : Flt) : (s.raise x).lneg = s.lneg := rfl
@[simp] theorem State.raise_gmem (x : Flt) : (s.raise x).gmem = s.gmem := rfl
@[simp] theorem State.raise_colls (x : Flt) : (s.raise x).colls = s.colls := rfl
@[simp] theorem State.raise_colRx (x : Flt) : (s.raise x).colRx = s.colRx := rfl
@[simp] theorem State.raise_colN (x : Flt) : (s.raise x).colN = s.colN := rfl
@[simp] theorem State.raise_tsync (x : Flt) : (s.raise x).tsync = s.tsync := rfl
@[simp] theorem State.raise_gal (x : Flt) : (s.raise x).gal = s.gal := rfl
@[simp] theorem State.raise_ph (x : Flt) : (s.raise x).ph = s.ph := rfl
@[simp] theorem State.raise_waits (x : Flt) : (s.raise x).waits = s.waits := rfl
@[simp] theorem State.raise_watches (x : Flt) : (s.raise x).watches = s.watches := rfl
@[simp] theorem State.raise_sch (x : Flt) : (s.raise x).sch = s.sch := rfl
@[simp] theorem State.raise_stns (x : Flt) : (s.raise x).stns = s.stns := rfl
@[simp] theorem State.raise_xlt (x : Flt) : (s.raise x).xlt = s.xlt := rfl
@[simp] theorem State.raise_flt (x : Flt) : (s.raise x).flt = { s.flt with pend := s.flt.pend ++ [(s.time, x)] } := rfl
@[simp] theorem State.raise_obs (x : Flt) : (s.raise x).obs = s.obs := rfl
@[simp] theorem State.raise_ech (x : Flt) : (s.raise x).ech = s.ech := rfl
@[simp] theorem State.raise_pwr (x : Flt) : (s.raise x).pwr = s.pwr := rfl
@[simp] theorem State.raise_fw (x : Flt) : (s.raise x).fw = s.fw := rfl
@[simp] theorem State.raise_cmt (x : Flt) : (s.raise x).cmt = s.cmt := rfl
@[simp] theorem State.raise_prt (x : Flt) : (s.raise x).prt = s.prt := rfl
@[simp] theorem State.raise_tap (x : Flt) : (s.raise x).tap = s.tap := rfl
@[simp] theorem State.raise_latch (x : Flt) : (s.raise x).latch = s.latch := rfl
@[simp] theorem State.raise_cbuf (x : Flt) : (s.raise x).cbuf = s.cbuf := rfl
@[simp] theorem State.raise_stall (x : Flt) : (s.raise x).stall = s.stall := rfl
@[simp] theorem State.raise_cyc (x : Flt) : (s.raise x).cyc = s.cyc := rfl
@[simp] theorem State.raise_irq (x : Flt) : (s.raise x).irq = s.irq := rfl
@[simp] theorem State.raise_rr (x : Flt) : (s.raise x).rr = s.rr := rfl
@[simp] theorem State.raise_rst (x : Flt) : (s.raise x).rst = s.rst := rfl
@[simp] theorem State.raise_f (x : Flt) (y : Fld) (j : Nat) : (s.raise x).f y j = s.f y j := rfl
@[simp] theorem State.raise_fb (x : Flt) (y : Fld) (j : Nat) : (s.raise x).fb y j = s.fb y j := rfl
@[simp] theorem State.raise_q (x : Flt) (k : Nat) : (s.raise x).q k = s.q k := rfl

/-! ### pulse -/

@[simp] theorem State.pulse_b (l : Nat) : (s.pulse l).b = s.b := rfl
@[simp] theorem State.pulse_pending (l : Nat) : (s.pulse l).pending = s.pending := rfl
@[simp] theorem State.pulse_time (l : Nat) : (s.pulse l).time = s.time := rfl
@[simp] theorem State.pulse_flds (l : Nat) : (s.pulse l).flds = s.flds := rfl
@[simp] theorem State.pulse_out (l : Nat) : (s.pulse l).out = s.out := rfl
@[simp] theorem State.pulse_nid (l : Nat) : (s.pulse l).nid = s.nid := rfl
@[simp] theorem State.pulse_free (l : Nat) : (s.pulse l).free = s.free := rfl
@[simp] theorem State.pulse_qs (l : Nat) : (s.pulse l).qs = s.qs := rfl
@[simp] theorem State.pulse_cmds (l : Nat) : (s.pulse l).cmds = s.cmds := rfl
@[simp] theorem State.pulse_units (l : Nat) : (s.pulse l).units = s.units := rfl
@[simp] theorem State.pulse_pcls (l : Nat) : (s.pulse l).pcls = s.pcls := rfl
@[simp] theorem State.pulse_eds (l : Nat) : (s.pulse l).eds = s.eds := rfl
@[simp] theorem State.pulse_ops (l : Nat) : (s.pulse l).ops = s.ops := rfl
@[simp] theorem State.pulse_mreqs (l : Nat) : (s.pulse l).mreqs = s.mreqs := rfl
@[simp] theorem State.pulse_lreqs (l : Nat) : (s.pulse l).lreqs = s.lreqs := rfl
@[simp] theorem State.pulse_locks (l : Nat) : (s.pulse l).locks = s.locks := rfl
@[simp] theorem State.pulse_lout (l : Nat) : (s.pulse l).lout = s.lout := rfl
@[simp] theorem State.pulse_lcr (l : Nat) : (s.pulse l).lcr = s.lcr := rfl
@[simp] theorem State.pulse_ltx (l : Nat) : (s.pulse l).ltx = s.ltx := rfl
@[simp] theorem State.pulse_lret (l : Nat) : (s.pulse l).lret = s.lret := rfl
@[simp] theorem State.pulse_ltxn (l : Nat) : (s.pulse l).ltxn = s.ltxn := rfl
@[simp] theorem State.pulse_linkOut (l : Nat) : (s.pulse l).linkOut = s.linkOut := rfl
@[simp] theorem State.pulse_lsigs (l : Nat) : (s.pulse l).lsigs = s.lsigs := rfl
@[simp] theorem State.pulse_lpart (l : Nat) : (s.pulse l).lpart = s.lpart := rfl
@[simp] theorem State.pulse_lrx (l : Nat) : (s.pulse l).lrx = s.lrx := rfl
@[simp] theorem State.pulse_lneg (l : Nat) : (s.pulse l).lneg = s.lneg := rfl
@[simp] theorem State.pulse_gmem (l : Nat) : (s.pulse l).gmem = s.gmem := rfl
@[simp] theorem State.pulse_colls (l : Nat) : (s.pulse l).colls = s.colls := rfl
@[simp] theorem State.pulse_colRx (l : Nat) : (s.pulse l).colRx = s.colRx := rfl
@[simp] theorem State.pulse_colN (l : Nat) : (s.pulse l).colN = s.colN := rfl
@[simp] theorem State.pulse_tsync (l : Nat) : (s.pulse l).tsync = s.tsync := rfl
@[simp] theorem State.pulse_gal (l : Nat) : (s.pulse l).gal = s.gal := rfl
@[simp] theorem State.pulse_ph (l : Nat) : (s.pulse l).ph = s.ph := rfl
@[simp] theorem State.pulse_waits (l : Nat) : (s.pulse l).waits = s.waits := rfl
@[simp] theorem State.pulse_watches (l : Nat) : (s.pulse l).watches = s.watches := rfl
@[simp] theorem State.pulse_sch (l : Nat) : (s.pulse l).sch = s.sch := rfl
@[simp] theorem State.pulse_stns (l : Nat) : (s.pulse l).stns = s.stns := rfl
@[simp] theorem State.pulse_xlt (l : Nat) : (s.pulse l).xlt = s.xlt := rfl
@[simp] theorem State.pulse_flt (l : Nat) : (s.pulse l).flt = s.flt := rfl
@[simp] theorem State.pulse_obs (l : Nat) : (s.pulse l).obs = s.obs := rfl
@[simp] theorem State.pulse_ech (l : Nat) : (s.pulse l).ech = s.ech := rfl
@[simp] theorem State.pulse_pwr (l : Nat) : (s.pulse l).pwr = s.pwr := rfl
@[simp] theorem State.pulse_fw (l : Nat) : (s.pulse l).fw = s.fw := rfl
@[simp] theorem State.pulse_cmt (l : Nat) : (s.pulse l).cmt = s.cmt := rfl
@[simp] theorem State.pulse_prt (l : Nat) : (s.pulse l).prt = s.prt := rfl
@[simp] theorem State.pulse_tap (l : Nat) : (s.pulse l).tap = s.tap := rfl
@[simp] theorem State.pulse_latch (l : Nat) : (s.pulse l).latch = s.latch := rfl
@[simp] theorem State.pulse_cbuf (l : Nat) : (s.pulse l).cbuf = s.cbuf := rfl
@[simp] theorem State.pulse_stall (l : Nat) : (s.pulse l).stall = s.stall := rfl
@[simp] theorem State.pulse_cyc (l : Nat) : (s.pulse l).cyc = s.cyc := rfl
@[simp] theorem State.pulse_rr (l : Nat) : (s.pulse l).rr = s.rr := rfl
@[simp] theorem State.pulse_rst (l : Nat) : (s.pulse l).rst = s.rst := rfl
@[simp] theorem State.pulse_f (l : Nat) (y : Fld) (j : Nat) : (s.pulse l).f y j = s.f y j := rfl
@[simp] theorem State.pulse_fb (l : Nat) (y : Fld) (j : Nat) : (s.pulse l).fb y j = s.fb y j := rfl
@[simp] theorem State.pulse_q (l : Nat) (k : Nat) : (s.pulse l).q k = s.q k := rfl

/-! ### setQ -/

@[simp] theorem State.setQ_b (n : Nat) (v : Queue) : (s.setQ n v).b = s.b := rfl
@[simp] theorem State.setQ_pending (n : Nat) (v : Queue) : (s.setQ n v).pending = s.pending := rfl
@[simp] theorem State.setQ_time (n : Nat) (v : Queue) : (s.setQ n v).time = s.time := rfl
@[simp] theorem State.setQ_flds (n : Nat) (v : Queue) : (s.setQ n v).flds = s.flds := rfl
@[simp] theorem State.setQ_out (n : Nat) (v : Queue) : (s.setQ n v).out = s.out := rfl
@[simp] theorem State.setQ_nid (n : Nat) (v : Queue) : (s.setQ n v).nid = s.nid := rfl
@[simp] theorem State.setQ_free (n : Nat) (v : Queue) : (s.setQ n v).free = s.free := rfl
@[simp] theorem State.setQ_qs (n : Nat) (v : Queue) : (s.setQ n v).qs = mset s.qs n v := rfl
@[simp] theorem State.setQ_cmds (n : Nat) (v : Queue) : (s.setQ n v).cmds = s.cmds := rfl
@[simp] theorem State.setQ_units (n : Nat) (v : Queue) : (s.setQ n v).units = s.units := rfl
@[simp] theorem State.setQ_pcls (n : Nat) (v : Queue) : (s.setQ n v).pcls = s.pcls := rfl
@[simp] theorem State.setQ_eds (n : Nat) (v : Queue) : (s.setQ n v).eds = s.eds := rfl
@[simp] theorem State.setQ_ops (n : Nat) (v : Queue) : (s.setQ n v).ops = s.ops := rfl
@[simp] theorem State.setQ_mreqs (n : Nat) (v : Queue) : (s.setQ n v).mreqs = s.mreqs := rfl
@[simp] theorem State.setQ_lreqs (n : Nat) (v : Queue) : (s.setQ n v).lreqs = s.lreqs := rfl
@[simp] theorem State.setQ_locks (n : Nat) (v : Queue) : (s.setQ n v).locks = s.locks := rfl
@[simp] theorem State.setQ_lout (n : Nat) (v : Queue) : (s.setQ n v).lout = s.lout := rfl
@[simp] theorem State.setQ_lcr (n : Nat) (v : Queue) : (s.setQ n v).lcr = s.lcr := rfl
@[simp] theorem State.setQ_ltx (n : Nat) (v : Queue) : (s.setQ n v).ltx = s.ltx := rfl
@[simp] theorem State.setQ_lret (n : Nat) (v : Queue) : (s.setQ n v).lret = s.lret := rfl
@[simp] theorem State.setQ_ltxn (n : Nat) (v : Queue) : (s.setQ n v).ltxn = s.ltxn := rfl
@[simp] theorem State.setQ_linkOut (n : Nat) (v : Queue) : (s.setQ n v).linkOut = s.linkOut := rfl
@[simp] theorem State.setQ_lsigs (n : Nat) (v : Queue) : (s.setQ n v).lsigs = s.lsigs := rfl
@[simp] theorem State.setQ_lpart (n : Nat) (v : Queue) : (s.setQ n v).lpart = s.lpart := rfl
@[simp] theorem State.setQ_lrx (n : Nat) (v : Queue) : (s.setQ n v).lrx = s.lrx := rfl
@[simp] theorem State.setQ_lneg (n : Nat) (v : Queue) : (s.setQ n v).lneg = s.lneg := rfl
@[simp] theorem State.setQ_gmem (n : Nat) (v : Queue) : (s.setQ n v).gmem = s.gmem := rfl
@[simp] theorem State.setQ_colls (n : Nat) (v : Queue) : (s.setQ n v).colls = s.colls := rfl
@[simp] theorem State.setQ_colRx (n : Nat) (v : Queue) : (s.setQ n v).colRx = s.colRx := rfl
@[simp] theorem State.setQ_colN (n : Nat) (v : Queue) : (s.setQ n v).colN = s.colN := rfl
@[simp] theorem State.setQ_tsync (n : Nat) (v : Queue) : (s.setQ n v).tsync = s.tsync := rfl
@[simp] theorem State.setQ_gal (n : Nat) (v : Queue) : (s.setQ n v).gal = s.gal := rfl
@[simp] theorem State.setQ_ph (n : Nat) (v : Queue) : (s.setQ n v).ph = s.ph := rfl
@[simp] theorem State.setQ_waits (n : Nat) (v : Queue) : (s.setQ n v).waits = s.waits := rfl
@[simp] theorem State.setQ_watches (n : Nat) (v : Queue) : (s.setQ n v).watches = s.watches := rfl
@[simp] theorem State.setQ_sch (n : Nat) (v : Queue) : (s.setQ n v).sch = s.sch := rfl
@[simp] theorem State.setQ_stns (n : Nat) (v : Queue) : (s.setQ n v).stns = s.stns := rfl
@[simp] theorem State.setQ_xlt (n : Nat) (v : Queue) : (s.setQ n v).xlt = s.xlt := rfl
@[simp] theorem State.setQ_flt (n : Nat) (v : Queue) : (s.setQ n v).flt = s.flt := rfl
@[simp] theorem State.setQ_obs (n : Nat) (v : Queue) : (s.setQ n v).obs = s.obs := rfl
@[simp] theorem State.setQ_ech (n : Nat) (v : Queue) : (s.setQ n v).ech = s.ech := rfl
@[simp] theorem State.setQ_pwr (n : Nat) (v : Queue) : (s.setQ n v).pwr = s.pwr := rfl
@[simp] theorem State.setQ_fw (n : Nat) (v : Queue) : (s.setQ n v).fw = s.fw := rfl
@[simp] theorem State.setQ_cmt (n : Nat) (v : Queue) : (s.setQ n v).cmt = s.cmt := rfl
@[simp] theorem State.setQ_prt (n : Nat) (v : Queue) : (s.setQ n v).prt = s.prt := rfl
@[simp] theorem State.setQ_tap (n : Nat) (v : Queue) : (s.setQ n v).tap = s.tap := rfl
@[simp] theorem State.setQ_latch (n : Nat) (v : Queue) : (s.setQ n v).latch = s.latch := rfl
@[simp] theorem State.setQ_cbuf (n : Nat) (v : Queue) : (s.setQ n v).cbuf = s.cbuf := rfl
@[simp] theorem State.setQ_stall (n : Nat) (v : Queue) : (s.setQ n v).stall = s.stall := rfl
@[simp] theorem State.setQ_cyc (n : Nat) (v : Queue) : (s.setQ n v).cyc = s.cyc := rfl
@[simp] theorem State.setQ_irq (n : Nat) (v : Queue) : (s.setQ n v).irq = s.irq := rfl
@[simp] theorem State.setQ_rr (n : Nat) (v : Queue) : (s.setQ n v).rr = s.rr := rfl
@[simp] theorem State.setQ_rst (n : Nat) (v : Queue) : (s.setQ n v).rst = s.rst := rfl
@[simp] theorem State.setQ_f (n : Nat) (v : Queue) (y : Fld) (j : Nat) : (s.setQ n v).f y j = s.f y j := rfl
@[simp] theorem State.setQ_fb (n : Nat) (v : Queue) (y : Fld) (j : Nat) : (s.setQ n v).fb y j = s.fb y j := rfl

/-! ### setG -/

@[simp] theorem State.setG_b (n g : Nat) (v : W64) : (s.setG n g v).b = s.b := by unfold State.setG; split <;> rfl
@[simp] theorem State.setG_pending (n g : Nat) (v : W64) : (s.setG n g v).pending = s.pending := by unfold State.setG; split <;> rfl
@[simp] theorem State.setG_time (n g : Nat) (v : W64) : (s.setG n g v).time = s.time := by unfold State.setG; split <;> rfl
@[simp] theorem State.setG_flds (n g : Nat) (v : W64) : (s.setG n g v).flds = s.flds := by unfold State.setG; split <;> rfl
@[simp] theorem State.setG_out (n g : Nat) (v : W64) : (s.setG n g v).out = s.out := by unfold State.setG; split <;> rfl
@[simp] theorem State.setG_nid (n g : Nat) (v : W64) : (s.setG n g v).nid = s.nid := by unfold State.setG; split <;> rfl
@[simp] theorem State.setG_free (n g : Nat) (v : W64) : (s.setG n g v).free = s.free := by unfold State.setG; split <;> rfl
@[simp] theorem State.setG_cmds (n g : Nat) (v : W64) : (s.setG n g v).cmds = s.cmds := by unfold State.setG; split <;> rfl
@[simp] theorem State.setG_units (n g : Nat) (v : W64) : (s.setG n g v).units = s.units := by unfold State.setG; split <;> rfl
@[simp] theorem State.setG_pcls (n g : Nat) (v : W64) : (s.setG n g v).pcls = s.pcls := by unfold State.setG; split <;> rfl
@[simp] theorem State.setG_eds (n g : Nat) (v : W64) : (s.setG n g v).eds = s.eds := by unfold State.setG; split <;> rfl
@[simp] theorem State.setG_ops (n g : Nat) (v : W64) : (s.setG n g v).ops = s.ops := by unfold State.setG; split <;> rfl
@[simp] theorem State.setG_mreqs (n g : Nat) (v : W64) : (s.setG n g v).mreqs = s.mreqs := by unfold State.setG; split <;> rfl
@[simp] theorem State.setG_lreqs (n g : Nat) (v : W64) : (s.setG n g v).lreqs = s.lreqs := by unfold State.setG; split <;> rfl
@[simp] theorem State.setG_locks (n g : Nat) (v : W64) : (s.setG n g v).locks = s.locks := by unfold State.setG; split <;> rfl
@[simp] theorem State.setG_lout (n g : Nat) (v : W64) : (s.setG n g v).lout = s.lout := by unfold State.setG; split <;> rfl
@[simp] theorem State.setG_lcr (n g : Nat) (v : W64) : (s.setG n g v).lcr = s.lcr := by unfold State.setG; split <;> rfl
@[simp] theorem State.setG_ltx (n g : Nat) (v : W64) : (s.setG n g v).ltx = s.ltx := by unfold State.setG; split <;> rfl
@[simp] theorem State.setG_lret (n g : Nat) (v : W64) : (s.setG n g v).lret = s.lret := by unfold State.setG; split <;> rfl
@[simp] theorem State.setG_ltxn (n g : Nat) (v : W64) : (s.setG n g v).ltxn = s.ltxn := by unfold State.setG; split <;> rfl
@[simp] theorem State.setG_linkOut (n g : Nat) (v : W64) : (s.setG n g v).linkOut = s.linkOut := by unfold State.setG; split <;> rfl
@[simp] theorem State.setG_lsigs (n g : Nat) (v : W64) : (s.setG n g v).lsigs = s.lsigs := by unfold State.setG; split <;> rfl
@[simp] theorem State.setG_lpart (n g : Nat) (v : W64) : (s.setG n g v).lpart = s.lpart := by unfold State.setG; split <;> rfl
@[simp] theorem State.setG_lrx (n g : Nat) (v : W64) : (s.setG n g v).lrx = s.lrx := by unfold State.setG; split <;> rfl
@[simp] theorem State.setG_lneg (n g : Nat) (v : W64) : (s.setG n g v).lneg = s.lneg := by unfold State.setG; split <;> rfl
@[simp] theorem State.setG_gmem (n g : Nat) (v : W64) : (s.setG n g v).gmem = s.gmem := by unfold State.setG; split <;> rfl
@[simp] theorem State.setG_colls (n g : Nat) (v : W64) : (s.setG n g v).colls = s.colls := by unfold State.setG; split <;> rfl
@[simp] theorem State.setG_colRx (n g : Nat) (v : W64) : (s.setG n g v).colRx = s.colRx := by unfold State.setG; split <;> rfl
@[simp] theorem State.setG_colN (n g : Nat) (v : W64) : (s.setG n g v).colN = s.colN := by unfold State.setG; split <;> rfl
@[simp] theorem State.setG_tsync (n g : Nat) (v : W64) : (s.setG n g v).tsync = s.tsync := by unfold State.setG; split <;> rfl
@[simp] theorem State.setG_gal (n g : Nat) (v : W64) : (s.setG n g v).gal = s.gal := by unfold State.setG; split <;> rfl
@[simp] theorem State.setG_ph (n g : Nat) (v : W64) : (s.setG n g v).ph = s.ph := by unfold State.setG; split <;> rfl
@[simp] theorem State.setG_waits (n g : Nat) (v : W64) : (s.setG n g v).waits = s.waits := by unfold State.setG; split <;> rfl
@[simp] theorem State.setG_watches (n g : Nat) (v : W64) : (s.setG n g v).watches = s.watches := by unfold State.setG; split <;> rfl
@[simp] theorem State.setG_sch (n g : Nat) (v : W64) : (s.setG n g v).sch = s.sch := by unfold State.setG; split <;> rfl
@[simp] theorem State.setG_stns (n g : Nat) (v : W64) : (s.setG n g v).stns = s.stns := by unfold State.setG; split <;> rfl
@[simp] theorem State.setG_xlt (n g : Nat) (v : W64) : (s.setG n g v).xlt = s.xlt := by unfold State.setG; split <;> rfl
@[simp] theorem State.setG_flt (n g : Nat) (v : W64) : (s.setG n g v).flt = s.flt := by unfold State.setG; split <;> rfl
@[simp] theorem State.setG_obs (n g : Nat) (v : W64) : (s.setG n g v).obs = s.obs := by unfold State.setG; split <;> rfl
@[simp] theorem State.setG_ech (n g : Nat) (v : W64) : (s.setG n g v).ech = s.ech := by unfold State.setG; split <;> rfl
@[simp] theorem State.setG_pwr (n g : Nat) (v : W64) : (s.setG n g v).pwr = s.pwr := by unfold State.setG; split <;> rfl
@[simp] theorem State.setG_fw (n g : Nat) (v : W64) : (s.setG n g v).fw = s.fw := by unfold State.setG; split <;> rfl
@[simp] theorem State.setG_cmt (n g : Nat) (v : W64) : (s.setG n g v).cmt = s.cmt := by unfold State.setG; split <;> rfl
@[simp] theorem State.setG_prt (n g : Nat) (v : W64) : (s.setG n g v).prt = s.prt := by unfold State.setG; split <;> rfl
@[simp] theorem State.setG_tap (n g : Nat) (v : W64) : (s.setG n g v).tap = s.tap := by unfold State.setG; split <;> rfl
@[simp] theorem State.setG_latch (n g : Nat) (v : W64) : (s.setG n g v).latch = s.latch := by unfold State.setG; split <;> rfl
@[simp] theorem State.setG_cbuf (n g : Nat) (v : W64) : (s.setG n g v).cbuf = s.cbuf := by unfold State.setG; split <;> rfl
@[simp] theorem State.setG_stall (n g : Nat) (v : W64) : (s.setG n g v).stall = s.stall := by unfold State.setG; split <;> rfl
@[simp] theorem State.setG_cyc (n g : Nat) (v : W64) : (s.setG n g v).cyc = s.cyc := by unfold State.setG; split <;> rfl
@[simp] theorem State.setG_irq (n g : Nat) (v : W64) : (s.setG n g v).irq = s.irq := by unfold State.setG; split <;> rfl
@[simp] theorem State.setG_rr (n g : Nat) (v : W64) : (s.setG n g v).rr = s.rr := by unfold State.setG; split <;> rfl
@[simp] theorem State.setG_rst (n g : Nat) (v : W64) : (s.setG n g v).rst = s.rst := by unfold State.setG; split <;> rfl
@[simp] theorem State.setG_f (n g : Nat) (v : W64) (y : Fld) (j : Nat) : (s.setG n g v).f y j = s.f y j := by unfold State.setG; split <;> rfl
@[simp] theorem State.setG_fb (n g : Nat) (v : W64) (y : Fld) (j : Nat) : (s.setG n g v).fb y j = s.fb y j := by unfold State.setG; split <;> rfl

/-! ### setP -/

@[simp] theorem State.setP_b (n k : Nat) (v : Bool) : (s.setP n k v).b = s.b := by unfold State.setP; split <;> rfl
@[simp] theorem State.setP_pending (n k : Nat) (v : Bool) : (s.setP n k v).pending = s.pending := by unfold State.setP; split <;> rfl
@[simp] theorem State.setP_time (n k : Nat) (v : Bool) : (s.setP n k v).time = s.time := by unfold State.setP; split <;> rfl
@[simp] theorem State.setP_flds (n k : Nat) (v : Bool) : (s.setP n k v).flds = s.flds := by unfold State.setP; split <;> rfl
@[simp] theorem State.setP_out (n k : Nat) (v : Bool) : (s.setP n k v).out = s.out := by unfold State.setP; split <;> rfl
@[simp] theorem State.setP_nid (n k : Nat) (v : Bool) : (s.setP n k v).nid = s.nid := by unfold State.setP; split <;> rfl
@[simp] theorem State.setP_free (n k : Nat) (v : Bool) : (s.setP n k v).free = s.free := by unfold State.setP; split <;> rfl
@[simp] theorem State.setP_cmds (n k : Nat) (v : Bool) : (s.setP n k v).cmds = s.cmds := by unfold State.setP; split <;> rfl
@[simp] theorem State.setP_units (n k : Nat) (v : Bool) : (s.setP n k v).units = s.units := by unfold State.setP; split <;> rfl
@[simp] theorem State.setP_pcls (n k : Nat) (v : Bool) : (s.setP n k v).pcls = s.pcls := by unfold State.setP; split <;> rfl
@[simp] theorem State.setP_eds (n k : Nat) (v : Bool) : (s.setP n k v).eds = s.eds := by unfold State.setP; split <;> rfl
@[simp] theorem State.setP_ops (n k : Nat) (v : Bool) : (s.setP n k v).ops = s.ops := by unfold State.setP; split <;> rfl
@[simp] theorem State.setP_mreqs (n k : Nat) (v : Bool) : (s.setP n k v).mreqs = s.mreqs := by unfold State.setP; split <;> rfl
@[simp] theorem State.setP_lreqs (n k : Nat) (v : Bool) : (s.setP n k v).lreqs = s.lreqs := by unfold State.setP; split <;> rfl
@[simp] theorem State.setP_locks (n k : Nat) (v : Bool) : (s.setP n k v).locks = s.locks := by unfold State.setP; split <;> rfl
@[simp] theorem State.setP_lout (n k : Nat) (v : Bool) : (s.setP n k v).lout = s.lout := by unfold State.setP; split <;> rfl
@[simp] theorem State.setP_lcr (n k : Nat) (v : Bool) : (s.setP n k v).lcr = s.lcr := by unfold State.setP; split <;> rfl
@[simp] theorem State.setP_ltx (n k : Nat) (v : Bool) : (s.setP n k v).ltx = s.ltx := by unfold State.setP; split <;> rfl
@[simp] theorem State.setP_lret (n k : Nat) (v : Bool) : (s.setP n k v).lret = s.lret := by unfold State.setP; split <;> rfl
@[simp] theorem State.setP_ltxn (n k : Nat) (v : Bool) : (s.setP n k v).ltxn = s.ltxn := by unfold State.setP; split <;> rfl
@[simp] theorem State.setP_linkOut (n k : Nat) (v : Bool) : (s.setP n k v).linkOut = s.linkOut := by unfold State.setP; split <;> rfl
@[simp] theorem State.setP_lsigs (n k : Nat) (v : Bool) : (s.setP n k v).lsigs = s.lsigs := by unfold State.setP; split <;> rfl
@[simp] theorem State.setP_lpart (n k : Nat) (v : Bool) : (s.setP n k v).lpart = s.lpart := by unfold State.setP; split <;> rfl
@[simp] theorem State.setP_lrx (n k : Nat) (v : Bool) : (s.setP n k v).lrx = s.lrx := by unfold State.setP; split <;> rfl
@[simp] theorem State.setP_lneg (n k : Nat) (v : Bool) : (s.setP n k v).lneg = s.lneg := by unfold State.setP; split <;> rfl
@[simp] theorem State.setP_gmem (n k : Nat) (v : Bool) : (s.setP n k v).gmem = s.gmem := by unfold State.setP; split <;> rfl
@[simp] theorem State.setP_colls (n k : Nat) (v : Bool) : (s.setP n k v).colls = s.colls := by unfold State.setP; split <;> rfl
@[simp] theorem State.setP_colRx (n k : Nat) (v : Bool) : (s.setP n k v).colRx = s.colRx := by unfold State.setP; split <;> rfl
@[simp] theorem State.setP_colN (n k : Nat) (v : Bool) : (s.setP n k v).colN = s.colN := by unfold State.setP; split <;> rfl
@[simp] theorem State.setP_tsync (n k : Nat) (v : Bool) : (s.setP n k v).tsync = s.tsync := by unfold State.setP; split <;> rfl
@[simp] theorem State.setP_gal (n k : Nat) (v : Bool) : (s.setP n k v).gal = s.gal := by unfold State.setP; split <;> rfl
@[simp] theorem State.setP_ph (n k : Nat) (v : Bool) : (s.setP n k v).ph = s.ph := by unfold State.setP; split <;> rfl
@[simp] theorem State.setP_waits (n k : Nat) (v : Bool) : (s.setP n k v).waits = s.waits := by unfold State.setP; split <;> rfl
@[simp] theorem State.setP_watches (n k : Nat) (v : Bool) : (s.setP n k v).watches = s.watches := by unfold State.setP; split <;> rfl
@[simp] theorem State.setP_sch (n k : Nat) (v : Bool) : (s.setP n k v).sch = s.sch := by unfold State.setP; split <;> rfl
@[simp] theorem State.setP_stns (n k : Nat) (v : Bool) : (s.setP n k v).stns = s.stns := by unfold State.setP; split <;> rfl
@[simp] theorem State.setP_xlt (n k : Nat) (v : Bool) : (s.setP n k v).xlt = s.xlt := by unfold State.setP; split <;> rfl
@[simp] theorem State.setP_flt (n k : Nat) (v : Bool) : (s.setP n k v).flt = s.flt := by unfold State.setP; split <;> rfl
@[simp] theorem State.setP_obs (n k : Nat) (v : Bool) : (s.setP n k v).obs = s.obs := by unfold State.setP; split <;> rfl
@[simp] theorem State.setP_ech (n k : Nat) (v : Bool) : (s.setP n k v).ech = s.ech := by unfold State.setP; split <;> rfl
@[simp] theorem State.setP_pwr (n k : Nat) (v : Bool) : (s.setP n k v).pwr = s.pwr := by unfold State.setP; split <;> rfl
@[simp] theorem State.setP_fw (n k : Nat) (v : Bool) : (s.setP n k v).fw = s.fw := by unfold State.setP; split <;> rfl
@[simp] theorem State.setP_cmt (n k : Nat) (v : Bool) : (s.setP n k v).cmt = s.cmt := by unfold State.setP; split <;> rfl
@[simp] theorem State.setP_prt (n k : Nat) (v : Bool) : (s.setP n k v).prt = s.prt := by unfold State.setP; split <;> rfl
@[simp] theorem State.setP_tap (n k : Nat) (v : Bool) : (s.setP n k v).tap = s.tap := by unfold State.setP; split <;> rfl
@[simp] theorem State.setP_latch (n k : Nat) (v : Bool) : (s.setP n k v).latch = s.latch := by unfold State.setP; split <;> rfl
@[simp] theorem State.setP_cbuf (n k : Nat) (v : Bool) : (s.setP n k v).cbuf = s.cbuf := by unfold State.setP; split <;> rfl
@[simp] theorem State.setP_stall (n k : Nat) (v : Bool) : (s.setP n k v).stall = s.stall := by unfold State.setP; split <;> rfl
@[simp] theorem State.setP_cyc (n k : Nat) (v : Bool) : (s.setP n k v).cyc = s.cyc := by unfold State.setP; split <;> rfl
@[simp] theorem State.setP_irq (n k : Nat) (v : Bool) : (s.setP n k v).irq = s.irq := by unfold State.setP; split <;> rfl
@[simp] theorem State.setP_rr (n k : Nat) (v : Bool) : (s.setP n k v).rr = s.rr := by unfold State.setP; split <;> rfl
@[simp] theorem State.setP_rst (n k : Nat) (v : Bool) : (s.setP n k v).rst = s.rst := by unfold State.setP; split <;> rfl
@[simp] theorem State.setP_f (n k : Nat) (v : Bool) (y : Fld) (j : Nat) : (s.setP n k v).f y j = s.f y j := by unfold State.setP; split <;> rfl
@[simp] theorem State.setP_fb (n k : Nat) (v : Bool) (y : Fld) (j : Nat) : (s.setP n k v).fb y j = s.fb y j := by unfold State.setP; split <;> rfl

/-! ### setCmd -/

@[simp] theorem State.setCmd_b (c : Cmd) : (s.setCmd c).b = s.b := rfl
@[simp] theorem State.setCmd_pending (c : Cmd) : (s.setCmd c).pending = s.pending := rfl
@[simp] theorem State.setCmd_time (c : Cmd) : (s.setCmd c).time = s.time := rfl
@[simp] theorem State.setCmd_flds (c : Cmd) : (s.setCmd c).flds = s.flds := rfl
@[simp] theorem State.setCmd_out (c : Cmd) : (s.setCmd c).out = s.out := rfl
@[simp] theorem State.setCmd_nid (c : Cmd) : (s.setCmd c).nid = s.nid := rfl
@[simp] theorem State.setCmd_free (c : Cmd) : (s.setCmd c).free = s.free := rfl
@[simp] theorem State.setCmd_qs (c : Cmd) : (s.setCmd c).qs = s.qs := rfl
@[simp] theorem State.setCmd_cmds (c : Cmd) : (s.setCmd c).cmds = s.cmds.map fun x => if x.id = c.id then c else x := rfl
@[simp] theorem State.setCmd_units (c : Cmd) : (s.setCmd c).units = s.units := rfl
@[simp] theorem State.setCmd_pcls (c : Cmd) : (s.setCmd c).pcls = s.pcls := rfl
@[simp] theorem State.setCmd_eds (c : Cmd) : (s.setCmd c).eds = s.eds := rfl
@[simp] theorem State.setCmd_ops (c : Cmd) : (s.setCmd c).ops = s.ops := rfl
@[simp] theorem State.setCmd_mreqs (c : Cmd) : (s.setCmd c).mreqs = s.mreqs := rfl
@[simp] theorem State.setCmd_lreqs (c : Cmd) : (s.setCmd c).lreqs = s.lreqs := rfl
@[simp] theorem State.setCmd_locks (c : Cmd) : (s.setCmd c).locks = s.locks := rfl
@[simp] theorem State.setCmd_lout (c : Cmd) : (s.setCmd c).lout = s.lout := rfl
@[simp] theorem State.setCmd_lcr (c : Cmd) : (s.setCmd c).lcr = s.lcr := rfl
@[simp] theorem State.setCmd_ltx (c : Cmd) : (s.setCmd c).ltx = s.ltx := rfl
@[simp] theorem State.setCmd_lret (c : Cmd) : (s.setCmd c).lret = s.lret := rfl
@[simp] theorem State.setCmd_ltxn (c : Cmd) : (s.setCmd c).ltxn = s.ltxn := rfl
@[simp] theorem State.setCmd_linkOut (c : Cmd) : (s.setCmd c).linkOut = s.linkOut := rfl
@[simp] theorem State.setCmd_lsigs (c : Cmd) : (s.setCmd c).lsigs = s.lsigs := rfl
@[simp] theorem State.setCmd_lpart (c : Cmd) : (s.setCmd c).lpart = s.lpart := rfl
@[simp] theorem State.setCmd_lrx (c : Cmd) : (s.setCmd c).lrx = s.lrx := rfl
@[simp] theorem State.setCmd_lneg (c : Cmd) : (s.setCmd c).lneg = s.lneg := rfl
@[simp] theorem State.setCmd_gmem (c : Cmd) : (s.setCmd c).gmem = s.gmem := rfl
@[simp] theorem State.setCmd_colls (c : Cmd) : (s.setCmd c).colls = s.colls := rfl
@[simp] theorem State.setCmd_colRx (c : Cmd) : (s.setCmd c).colRx = s.colRx := rfl
@[simp] theorem State.setCmd_colN (c : Cmd) : (s.setCmd c).colN = s.colN := rfl
@[simp] theorem State.setCmd_tsync (c : Cmd) : (s.setCmd c).tsync = s.tsync := rfl
@[simp] theorem State.setCmd_gal (c : Cmd) : (s.setCmd c).gal = s.gal := rfl
@[simp] theorem State.setCmd_ph (c : Cmd) : (s.setCmd c).ph = s.ph := rfl
@[simp] theorem State.setCmd_waits (c : Cmd) : (s.setCmd c).waits = s.waits := rfl
@[simp] theorem State.setCmd_watches (c : Cmd) : (s.setCmd c).watches = s.watches := rfl
@[simp] theorem State.setCmd_sch (c : Cmd) : (s.setCmd c).sch = s.sch := rfl
@[simp] theorem State.setCmd_stns (c : Cmd) : (s.setCmd c).stns = s.stns := rfl
@[simp] theorem State.setCmd_xlt (c : Cmd) : (s.setCmd c).xlt = s.xlt := rfl
@[simp] theorem State.setCmd_flt (c : Cmd) : (s.setCmd c).flt = s.flt := rfl
@[simp] theorem State.setCmd_obs (c : Cmd) : (s.setCmd c).obs = s.obs := rfl
@[simp] theorem State.setCmd_ech (c : Cmd) : (s.setCmd c).ech = s.ech := rfl
@[simp] theorem State.setCmd_pwr (c : Cmd) : (s.setCmd c).pwr = s.pwr := rfl
@[simp] theorem State.setCmd_fw (c : Cmd) : (s.setCmd c).fw = s.fw := rfl
@[simp] theorem State.setCmd_cmt (c : Cmd) : (s.setCmd c).cmt = s.cmt := rfl
@[simp] theorem State.setCmd_prt (c : Cmd) : (s.setCmd c).prt = s.prt := rfl
@[simp] theorem State.setCmd_tap (c : Cmd) : (s.setCmd c).tap = s.tap := rfl
@[simp] theorem State.setCmd_latch (c : Cmd) : (s.setCmd c).latch = s.latch := rfl
@[simp] theorem State.setCmd_cbuf (c : Cmd) : (s.setCmd c).cbuf = s.cbuf := rfl
@[simp] theorem State.setCmd_stall (c : Cmd) : (s.setCmd c).stall = s.stall := rfl
@[simp] theorem State.setCmd_cyc (c : Cmd) : (s.setCmd c).cyc = s.cyc := rfl
@[simp] theorem State.setCmd_irq (c : Cmd) : (s.setCmd c).irq = s.irq := rfl
@[simp] theorem State.setCmd_rr (c : Cmd) : (s.setCmd c).rr = s.rr := rfl
@[simp] theorem State.setCmd_rst (c : Cmd) : (s.setCmd c).rst = s.rst := rfl
@[simp] theorem State.setCmd_f (c : Cmd) (y : Fld) (j : Nat) : (s.setCmd c).f y j = s.f y j := rfl
@[simp] theorem State.setCmd_fb (c : Cmd) (y : Fld) (j : Nat) : (s.setCmd c).fb y j = s.fb y j := rfl
@[simp] theorem State.setCmd_q (c : Cmd) (k : Nat) : (s.setCmd c).q k = s.q k := rfl

/-! ### dropCmd -/

@[simp] theorem State.dropCmd_b (n : Nat) : (s.dropCmd n).b = s.b := rfl
@[simp] theorem State.dropCmd_pending (n : Nat) : (s.dropCmd n).pending = s.pending := rfl
@[simp] theorem State.dropCmd_time (n : Nat) : (s.dropCmd n).time = s.time := rfl
@[simp] theorem State.dropCmd_flds (n : Nat) : (s.dropCmd n).flds = s.flds := rfl
@[simp] theorem State.dropCmd_out (n : Nat) : (s.dropCmd n).out = s.out := rfl
@[simp] theorem State.dropCmd_nid (n : Nat) : (s.dropCmd n).nid = s.nid := rfl
@[simp] theorem State.dropCmd_free (n : Nat) : (s.dropCmd n).free = s.free := rfl
@[simp] theorem State.dropCmd_qs (n : Nat) : (s.dropCmd n).qs = s.qs := rfl
@[simp] theorem State.dropCmd_cmds (n : Nat) : (s.dropCmd n).cmds = s.cmds.filter (·.id != n) := rfl
@[simp] theorem State.dropCmd_units (n : Nat) : (s.dropCmd n).units = s.units := rfl
@[simp] theorem State.dropCmd_pcls (n : Nat) : (s.dropCmd n).pcls = s.pcls := rfl
@[simp] theorem State.dropCmd_eds (n : Nat) : (s.dropCmd n).eds = s.eds := rfl
@[simp] theorem State.dropCmd_ops (n : Nat) : (s.dropCmd n).ops = s.ops := rfl
@[simp] theorem State.dropCmd_mreqs (n : Nat) : (s.dropCmd n).mreqs = s.mreqs := rfl
@[simp] theorem State.dropCmd_lreqs (n : Nat) : (s.dropCmd n).lreqs = s.lreqs := rfl
@[simp] theorem State.dropCmd_locks (n : Nat) : (s.dropCmd n).locks = s.locks := rfl
@[simp] theorem State.dropCmd_lout (n : Nat) : (s.dropCmd n).lout = s.lout := rfl
@[simp] theorem State.dropCmd_lcr (n : Nat) : (s.dropCmd n).lcr = s.lcr := rfl
@[simp] theorem State.dropCmd_ltx (n : Nat) : (s.dropCmd n).ltx = s.ltx := rfl
@[simp] theorem State.dropCmd_lret (n : Nat) : (s.dropCmd n).lret = s.lret := rfl
@[simp] theorem State.dropCmd_ltxn (n : Nat) : (s.dropCmd n).ltxn = s.ltxn := rfl
@[simp] theorem State.dropCmd_linkOut (n : Nat) : (s.dropCmd n).linkOut = s.linkOut := rfl
@[simp] theorem State.dropCmd_lsigs (n : Nat) : (s.dropCmd n).lsigs = s.lsigs := rfl
@[simp] theorem State.dropCmd_lpart (n : Nat) : (s.dropCmd n).lpart = s.lpart := rfl
@[simp] theorem State.dropCmd_lrx (n : Nat) : (s.dropCmd n).lrx = s.lrx := rfl
@[simp] theorem State.dropCmd_lneg (n : Nat) : (s.dropCmd n).lneg = s.lneg := rfl
@[simp] theorem State.dropCmd_gmem (n : Nat) : (s.dropCmd n).gmem = s.gmem := rfl
@[simp] theorem State.dropCmd_colls (n : Nat) : (s.dropCmd n).colls = s.colls := rfl
@[simp] theorem State.dropCmd_colRx (n : Nat) : (s.dropCmd n).colRx = s.colRx := rfl
@[simp] theorem State.dropCmd_colN (n : Nat) : (s.dropCmd n).colN = s.colN := rfl
@[simp] theorem State.dropCmd_tsync (n : Nat) : (s.dropCmd n).tsync = s.tsync := rfl
@[simp] theorem State.dropCmd_gal (n : Nat) : (s.dropCmd n).gal = s.gal := rfl
@[simp] theorem State.dropCmd_ph (n : Nat) : (s.dropCmd n).ph = s.ph := rfl
@[simp] theorem State.dropCmd_waits (n : Nat) : (s.dropCmd n).waits = s.waits := rfl
@[simp] theorem State.dropCmd_watches (n : Nat) : (s.dropCmd n).watches = s.watches := rfl
@[simp] theorem State.dropCmd_sch (n : Nat) : (s.dropCmd n).sch = s.sch := rfl
@[simp] theorem State.dropCmd_stns (n : Nat) : (s.dropCmd n).stns = s.stns := rfl
@[simp] theorem State.dropCmd_xlt (n : Nat) : (s.dropCmd n).xlt = s.xlt := rfl
@[simp] theorem State.dropCmd_flt (n : Nat) : (s.dropCmd n).flt = s.flt := rfl
@[simp] theorem State.dropCmd_obs (n : Nat) : (s.dropCmd n).obs = s.obs := rfl
@[simp] theorem State.dropCmd_ech (n : Nat) : (s.dropCmd n).ech = s.ech := rfl
@[simp] theorem State.dropCmd_pwr (n : Nat) : (s.dropCmd n).pwr = s.pwr := rfl
@[simp] theorem State.dropCmd_fw (n : Nat) : (s.dropCmd n).fw = s.fw := rfl
@[simp] theorem State.dropCmd_cmt (n : Nat) : (s.dropCmd n).cmt = s.cmt := rfl
@[simp] theorem State.dropCmd_prt (n : Nat) : (s.dropCmd n).prt = s.prt := rfl
@[simp] theorem State.dropCmd_tap (n : Nat) : (s.dropCmd n).tap = s.tap := rfl
@[simp] theorem State.dropCmd_latch (n : Nat) : (s.dropCmd n).latch = s.latch := rfl
@[simp] theorem State.dropCmd_cbuf (n : Nat) : (s.dropCmd n).cbuf = s.cbuf := rfl
@[simp] theorem State.dropCmd_stall (n : Nat) : (s.dropCmd n).stall = s.stall := rfl
@[simp] theorem State.dropCmd_cyc (n : Nat) : (s.dropCmd n).cyc = s.cyc := rfl
@[simp] theorem State.dropCmd_irq (n : Nat) : (s.dropCmd n).irq = s.irq := rfl
@[simp] theorem State.dropCmd_rr (n : Nat) : (s.dropCmd n).rr = s.rr := rfl
@[simp] theorem State.dropCmd_rst (n : Nat) : (s.dropCmd n).rst = s.rst := rfl
@[simp] theorem State.dropCmd_f (n : Nat) (y : Fld) (j : Nat) : (s.dropCmd n).f y j = s.f y j := rfl
@[simp] theorem State.dropCmd_fb (n : Nat) (y : Fld) (j : Nat) : (s.dropCmd n).fb y j = s.fb y j := rfl
@[simp] theorem State.dropCmd_q (n : Nat) (k : Nat) : (s.dropCmd n).q k = s.q k := rfl

/-! ### setUnit -/

@[simp] theorem State.setUnit_b (u : Wunit) : (s.setUnit u).b = s.b := rfl
@[simp] theorem State.setUnit_pending (u : Wunit) : (s.setUnit u).pending = s.pending := rfl
@[simp] theorem State.setUnit_time (u : Wunit) : (s.setUnit u).time = s.time := rfl
@[simp] theorem State.setUnit_flds (u : Wunit) : (s.setUnit u).flds = s.flds := rfl
@[simp] theorem State.setUnit_out (u : Wunit) : (s.setUnit u).out = s.out := rfl
@[simp] theorem State.setUnit_nid (u : Wunit) : (s.setUnit u).nid = s.nid := rfl
@[simp] theorem State.setUnit_free (u : Wunit) : (s.setUnit u).free = s.free := rfl
@[simp] theorem State.setUnit_qs (u : Wunit) : (s.setUnit u).qs = s.qs := rfl
@[simp] theorem State.setUnit_cmds (u : Wunit) : (s.setUnit u).cmds = s.cmds := rfl
@[simp] theorem State.setUnit_pcls (u : Wunit) : (s.setUnit u).pcls = s.pcls := rfl
@[simp] theorem State.setUnit_eds (u : Wunit) : (s.setUnit u).eds = s.eds := rfl
@[simp] theorem State.setUnit_ops (u : Wunit) : (s.setUnit u).ops = s.ops := rfl
@[simp] theorem State.setUnit_mreqs (u : Wunit) : (s.setUnit u).mreqs = s.mreqs := rfl
@[simp] theorem State.setUnit_lreqs (u : Wunit) : (s.setUnit u).lreqs = s.lreqs := rfl
@[simp] theorem State.setUnit_locks (u : Wunit) : (s.setUnit u).locks = s.locks := rfl
@[simp] theorem State.setUnit_lout (u : Wunit) : (s.setUnit u).lout = s.lout := rfl
@[simp] theorem State.setUnit_lcr (u : Wunit) : (s.setUnit u).lcr = s.lcr := rfl
@[simp] theorem State.setUnit_ltx (u : Wunit) : (s.setUnit u).ltx = s.ltx := rfl
@[simp] theorem State.setUnit_lret (u : Wunit) : (s.setUnit u).lret = s.lret := rfl
@[simp] theorem State.setUnit_ltxn (u : Wunit) : (s.setUnit u).ltxn = s.ltxn := rfl
@[simp] theorem State.setUnit_linkOut (u : Wunit) : (s.setUnit u).linkOut = s.linkOut := rfl
@[simp] theorem State.setUnit_lsigs (u : Wunit) : (s.setUnit u).lsigs = s.lsigs := rfl
@[simp] theorem State.setUnit_lpart (u : Wunit) : (s.setUnit u).lpart = s.lpart := rfl
@[simp] theorem State.setUnit_lrx (u : Wunit) : (s.setUnit u).lrx = s.lrx := rfl
@[simp] theorem State.setUnit_lneg (u : Wunit) : (s.setUnit u).lneg = s.lneg := rfl
@[simp] theorem State.setUnit_gmem (u : Wunit) : (s.setUnit u).gmem = s.gmem := rfl
@[simp] theorem State.setUnit_colls (u : Wunit) : (s.setUnit u).colls = s.colls := rfl
@[simp] theorem State.setUnit_colRx (u : Wunit) : (s.setUnit u).colRx = s.colRx := rfl
@[simp] theorem State.setUnit_colN (u : Wunit) : (s.setUnit u).colN = s.colN := rfl
@[simp] theorem State.setUnit_tsync (u : Wunit) : (s.setUnit u).tsync = s.tsync := rfl
@[simp] theorem State.setUnit_gal (u : Wunit) : (s.setUnit u).gal = s.gal := rfl
@[simp] theorem State.setUnit_ph (u : Wunit) : (s.setUnit u).ph = s.ph := rfl
@[simp] theorem State.setUnit_waits (u : Wunit) : (s.setUnit u).waits = s.waits := rfl
@[simp] theorem State.setUnit_watches (u : Wunit) : (s.setUnit u).watches = s.watches := rfl
@[simp] theorem State.setUnit_sch (u : Wunit) : (s.setUnit u).sch = s.sch := rfl
@[simp] theorem State.setUnit_stns (u : Wunit) : (s.setUnit u).stns = s.stns := rfl
@[simp] theorem State.setUnit_xlt (u : Wunit) : (s.setUnit u).xlt = s.xlt := rfl
@[simp] theorem State.setUnit_flt (u : Wunit) : (s.setUnit u).flt = s.flt := rfl
@[simp] theorem State.setUnit_obs (u : Wunit) : (s.setUnit u).obs = s.obs := rfl
@[simp] theorem State.setUnit_ech (u : Wunit) : (s.setUnit u).ech = s.ech := rfl
@[simp] theorem State.setUnit_pwr (u : Wunit) : (s.setUnit u).pwr = s.pwr := rfl
@[simp] theorem State.setUnit_fw (u : Wunit) : (s.setUnit u).fw = s.fw := rfl
@[simp] theorem State.setUnit_cmt (u : Wunit) : (s.setUnit u).cmt = s.cmt := rfl
@[simp] theorem State.setUnit_prt (u : Wunit) : (s.setUnit u).prt = s.prt := rfl
@[simp] theorem State.setUnit_tap (u : Wunit) : (s.setUnit u).tap = s.tap := rfl
@[simp] theorem State.setUnit_latch (u : Wunit) : (s.setUnit u).latch = s.latch := rfl
@[simp] theorem State.setUnit_cbuf (u : Wunit) : (s.setUnit u).cbuf = s.cbuf := rfl
@[simp] theorem State.setUnit_stall (u : Wunit) : (s.setUnit u).stall = s.stall := rfl
@[simp] theorem State.setUnit_cyc (u : Wunit) : (s.setUnit u).cyc = s.cyc := rfl
@[simp] theorem State.setUnit_irq (u : Wunit) : (s.setUnit u).irq = s.irq := rfl
@[simp] theorem State.setUnit_rr (u : Wunit) : (s.setUnit u).rr = s.rr := rfl
@[simp] theorem State.setUnit_rst (u : Wunit) : (s.setUnit u).rst = s.rst := rfl
@[simp] theorem State.setUnit_f (u : Wunit) (y : Fld) (j : Nat) : (s.setUnit u).f y j = s.f y j := rfl
@[simp] theorem State.setUnit_fb (u : Wunit) (y : Fld) (j : Nat) : (s.setUnit u).fb y j = s.fb y j := rfl
@[simp] theorem State.setUnit_q (u : Wunit) (k : Nat) : (s.setUnit u).q k = s.q k := rfl

/-! ### setOp -/

@[simp] theorem State.setOp_b (o : Op) : (s.setOp o).b = s.b := rfl
@[simp] theorem State.setOp_pending (o : Op) : (s.setOp o).pending = s.pending := rfl
@[simp] theorem State.setOp_time (o : Op) : (s.setOp o).time = s.time := rfl
@[simp] theorem State.setOp_flds (o : Op) : (s.setOp o).flds = s.flds := rfl
@[simp] theorem State.setOp_out (o : Op) : (s.setOp o).out = s.out := rfl
@[simp] theorem State.setOp_nid (o : Op) : (s.setOp o).nid = s.nid := rfl
@[simp] theorem State.setOp_free (o : Op) : (s.setOp o).free = s.free := rfl
@[simp] theorem State.setOp_qs (o : Op) : (s.setOp o).qs = s.qs := rfl
@[simp] theorem State.setOp_cmds (o : Op) : (s.setOp o).cmds = s.cmds := rfl
@[simp] theorem State.setOp_units (o : Op) : (s.setOp o).units = s.units := rfl
@[simp] theorem State.setOp_pcls (o : Op) : (s.setOp o).pcls = s.pcls := rfl
@[simp] theorem State.setOp_eds (o : Op) : (s.setOp o).eds = s.eds := rfl
@[simp] theorem State.setOp_ops (o : Op) : (s.setOp o).ops = s.ops.map fun x => if x.id = o.id then o else x := rfl
@[simp] theorem State.setOp_mreqs (o : Op) : (s.setOp o).mreqs = s.mreqs := rfl
@[simp] theorem State.setOp_lreqs (o : Op) : (s.setOp o).lreqs = s.lreqs := rfl
@[simp] theorem State.setOp_locks (o : Op) : (s.setOp o).locks = s.locks := rfl
@[simp] theorem State.setOp_lout (o : Op) : (s.setOp o).lout = s.lout := rfl
@[simp] theorem State.setOp_lcr (o : Op) : (s.setOp o).lcr = s.lcr := rfl
@[simp] theorem State.setOp_ltx (o : Op) : (s.setOp o).ltx = s.ltx := rfl
@[simp] theorem State.setOp_lret (o : Op) : (s.setOp o).lret = s.lret := rfl
@[simp] theorem State.setOp_ltxn (o : Op) : (s.setOp o).ltxn = s.ltxn := rfl
@[simp] theorem State.setOp_linkOut (o : Op) : (s.setOp o).linkOut = s.linkOut := rfl
@[simp] theorem State.setOp_lsigs (o : Op) : (s.setOp o).lsigs = s.lsigs := rfl
@[simp] theorem State.setOp_lpart (o : Op) : (s.setOp o).lpart = s.lpart := rfl
@[simp] theorem State.setOp_lrx (o : Op) : (s.setOp o).lrx = s.lrx := rfl
@[simp] theorem State.setOp_lneg (o : Op) : (s.setOp o).lneg = s.lneg := rfl
@[simp] theorem State.setOp_gmem (o : Op) : (s.setOp o).gmem = s.gmem := rfl
@[simp] theorem State.setOp_colls (o : Op) : (s.setOp o).colls = s.colls := rfl
@[simp] theorem State.setOp_colRx (o : Op) : (s.setOp o).colRx = s.colRx := rfl
@[simp] theorem State.setOp_colN (o : Op) : (s.setOp o).colN = s.colN := rfl
@[simp] theorem State.setOp_tsync (o : Op) : (s.setOp o).tsync = s.tsync := rfl
@[simp] theorem State.setOp_gal (o : Op) : (s.setOp o).gal = s.gal := rfl
@[simp] theorem State.setOp_ph (o : Op) : (s.setOp o).ph = s.ph := rfl
@[simp] theorem State.setOp_waits (o : Op) : (s.setOp o).waits = s.waits := rfl
@[simp] theorem State.setOp_watches (o : Op) : (s.setOp o).watches = s.watches := rfl
@[simp] theorem State.setOp_sch (o : Op) : (s.setOp o).sch = s.sch := rfl
@[simp] theorem State.setOp_stns (o : Op) : (s.setOp o).stns = s.stns := rfl
@[simp] theorem State.setOp_xlt (o : Op) : (s.setOp o).xlt = s.xlt := rfl
@[simp] theorem State.setOp_flt (o : Op) : (s.setOp o).flt = s.flt := rfl
@[simp] theorem State.setOp_obs (o : Op) : (s.setOp o).obs = s.obs := rfl
@[simp] theorem State.setOp_ech (o : Op) : (s.setOp o).ech = s.ech := rfl
@[simp] theorem State.setOp_pwr (o : Op) : (s.setOp o).pwr = s.pwr := rfl
@[simp] theorem State.setOp_fw (o : Op) : (s.setOp o).fw = s.fw := rfl
@[simp] theorem State.setOp_cmt (o : Op) : (s.setOp o).cmt = s.cmt := rfl
@[simp] theorem State.setOp_prt (o : Op) : (s.setOp o).prt = s.prt := rfl
@[simp] theorem State.setOp_tap (o : Op) : (s.setOp o).tap = s.tap := rfl
@[simp] theorem State.setOp_latch (o : Op) : (s.setOp o).latch = s.latch := rfl
@[simp] theorem State.setOp_cbuf (o : Op) : (s.setOp o).cbuf = s.cbuf := rfl
@[simp] theorem State.setOp_stall (o : Op) : (s.setOp o).stall = s.stall := rfl
@[simp] theorem State.setOp_cyc (o : Op) : (s.setOp o).cyc = s.cyc := rfl
@[simp] theorem State.setOp_irq (o : Op) : (s.setOp o).irq = s.irq := rfl
@[simp] theorem State.setOp_rr (o : Op) : (s.setOp o).rr = s.rr := rfl
@[simp] theorem State.setOp_rst (o : Op) : (s.setOp o).rst = s.rst := rfl
@[simp] theorem State.setOp_f (o : Op) (y : Fld) (j : Nat) : (s.setOp o).f y j = s.f y j := rfl
@[simp] theorem State.setOp_fb (o : Op) (y : Fld) (j : Nat) : (s.setOp o).fb y j = s.fb y j := rfl
@[simp] theorem State.setOp_q (o : Op) (k : Nat) : (s.setOp o).q k = s.q k := rfl

/-! ### setRow -/

@[simp] theorem State.setRow_b (n : Nat) (r : PhRow) : (s.setRow n r).b = s.b := rfl
@[simp] theorem State.setRow_pending (n : Nat) (r : PhRow) : (s.setRow n r).pending = s.pending := rfl
@[simp] theorem State.setRow_time (n : Nat) (r : PhRow) : (s.setRow n r).time = s.time := rfl
@[simp] theorem State.setRow_flds (n : Nat) (r : PhRow) : (s.setRow n r).flds = s.flds := rfl
@[simp] theorem State.setRow_out (n : Nat) (r : PhRow) : (s.setRow n r).out = s.out := rfl
@[simp] theorem State.setRow_nid (n : Nat) (r : PhRow) : (s.setRow n r).nid = s.nid := rfl
@[simp] theorem State.setRow_free (n : Nat) (r : PhRow) : (s.setRow n r).free = s.free := rfl
@[simp] theorem State.setRow_qs (n : Nat) (r : PhRow) : (s.setRow n r).qs = s.qs := rfl
@[simp] theorem State.setRow_cmds (n : Nat) (r : PhRow) : (s.setRow n r).cmds = s.cmds := rfl
@[simp] theorem State.setRow_units (n : Nat) (r : PhRow) : (s.setRow n r).units = s.units := rfl
@[simp] theorem State.setRow_pcls (n : Nat) (r : PhRow) : (s.setRow n r).pcls = s.pcls := rfl
@[simp] theorem State.setRow_eds (n : Nat) (r : PhRow) : (s.setRow n r).eds = s.eds := rfl
@[simp] theorem State.setRow_ops (n : Nat) (r : PhRow) : (s.setRow n r).ops = s.ops := rfl
@[simp] theorem State.setRow_mreqs (n : Nat) (r : PhRow) : (s.setRow n r).mreqs = s.mreqs := rfl
@[simp] theorem State.setRow_lreqs (n : Nat) (r : PhRow) : (s.setRow n r).lreqs = s.lreqs := rfl
@[simp] theorem State.setRow_locks (n : Nat) (r : PhRow) : (s.setRow n r).locks = s.locks := rfl
@[simp] theorem State.setRow_lout (n : Nat) (r : PhRow) : (s.setRow n r).lout = s.lout := rfl
@[simp] theorem State.setRow_lcr (n : Nat) (r : PhRow) : (s.setRow n r).lcr = s.lcr := rfl
@[simp] theorem State.setRow_ltx (n : Nat) (r : PhRow) : (s.setRow n r).ltx = s.ltx := rfl
@[simp] theorem State.setRow_lret (n : Nat) (r : PhRow) : (s.setRow n r).lret = s.lret := rfl
@[simp] theorem State.setRow_ltxn (n : Nat) (r : PhRow) : (s.setRow n r).ltxn = s.ltxn := rfl
@[simp] theorem State.setRow_linkOut (n : Nat) (r : PhRow) : (s.setRow n r).linkOut = s.linkOut := rfl
@[simp] theorem State.setRow_lsigs (n : Nat) (r : PhRow) : (s.setRow n r).lsigs = s.lsigs := rfl
@[simp] theorem State.setRow_lpart (n : Nat) (r : PhRow) : (s.setRow n r).lpart = s.lpart := rfl
@[simp] theorem State.setRow_lrx (n : Nat) (r : PhRow) : (s.setRow n r).lrx = s.lrx := rfl
@[simp] theorem State.setRow_lneg (n : Nat) (r : PhRow) : (s.setRow n r).lneg = s.lneg := rfl
@[simp] theorem State.setRow_gmem (n : Nat) (r : PhRow) : (s.setRow n r).gmem = s.gmem := rfl
@[simp] theorem State.setRow_colls (n : Nat) (r : PhRow) : (s.setRow n r).colls = s.colls := rfl
@[simp] theorem State.setRow_colRx (n : Nat) (r : PhRow) : (s.setRow n r).colRx = s.colRx := rfl
@[simp] theorem State.setRow_colN (n : Nat) (r : PhRow) : (s.setRow n r).colN = s.colN := rfl
@[simp] theorem State.setRow_tsync (n : Nat) (r : PhRow) : (s.setRow n r).tsync = s.tsync := rfl
@[simp] theorem State.setRow_gal (n : Nat) (r : PhRow) : (s.setRow n r).gal = s.gal := rfl
@[simp] theorem State.setRow_ph (n : Nat) (r : PhRow) : (s.setRow n r).ph = mset s.ph n r := rfl
@[simp] theorem State.setRow_waits (n : Nat) (r : PhRow) : (s.setRow n r).waits = s.waits := rfl
@[simp] theorem State.setRow_watches (n : Nat) (r : PhRow) : (s.setRow n r).watches = s.watches := rfl
@[simp] theorem State.setRow_sch (n : Nat) (r : PhRow) : (s.setRow n r).sch = s.sch := rfl
@[simp] theorem State.setRow_stns (n : Nat) (r : PhRow) : (s.setRow n r).stns = s.stns := rfl
@[simp] theorem State.setRow_xlt (n : Nat) (r : PhRow) : (s.setRow n r).xlt = s.xlt := rfl
@[simp] theorem State.setRow_flt (n : Nat) (r : PhRow) : (s.setRow n r).flt = s.flt := rfl
@[simp] theorem State.setRow_obs (n : Nat) (r : PhRow) : (s.setRow n r).obs = s.obs := rfl
@[simp] theorem State.setRow_ech (n : Nat) (r : PhRow) : (s.setRow n r).ech = s.ech := rfl
@[simp] theorem State.setRow_pwr (n : Nat) (r : PhRow) : (s.setRow n r).pwr = s.pwr := rfl
@[simp] theorem State.setRow_fw (n : Nat) (r : PhRow) : (s.setRow n r).fw = s.fw := rfl
@[simp] theorem State.setRow_cmt (n : Nat) (r : PhRow) : (s.setRow n r).cmt = s.cmt := rfl
@[simp] theorem State.setRow_prt (n : Nat) (r : PhRow) : (s.setRow n r).prt = s.prt := rfl
@[simp] theorem State.setRow_tap (n : Nat) (r : PhRow) : (s.setRow n r).tap = s.tap := rfl
@[simp] theorem State.setRow_latch (n : Nat) (r : PhRow) : (s.setRow n r).latch = s.latch := rfl
@[simp] theorem State.setRow_cbuf (n : Nat) (r : PhRow) : (s.setRow n r).cbuf = s.cbuf := rfl
@[simp] theorem State.setRow_stall (n : Nat) (r : PhRow) : (s.setRow n r).stall = s.stall := rfl
@[simp] theorem State.setRow_cyc (n : Nat) (r : PhRow) : (s.setRow n r).cyc = s.cyc := rfl
@[simp] theorem State.setRow_irq (n : Nat) (r : PhRow) : (s.setRow n r).irq = s.irq := rfl
@[simp] theorem State.setRow_rr (n : Nat) (r : PhRow) : (s.setRow n r).rr = s.rr := rfl
@[simp] theorem State.setRow_rst (n : Nat) (r : PhRow) : (s.setRow n r).rst = s.rst := rfl
@[simp] theorem State.setRow_f (n : Nat) (r : PhRow) (y : Fld) (j : Nat) : (s.setRow n r).f y j = s.f y j := rfl
@[simp] theorem State.setRow_fb (n : Nat) (r : PhRow) (y : Fld) (j : Nat) : (s.setRow n r).fb y j = s.fb y j := rfl
@[simp] theorem State.setRow_q (n : Nat) (r : PhRow) (k : Nat) : (s.setRow n r).q k = s.q k := rfl

/-! ### setStn -/

@[simp] theorem State.setStn_b (n : Nat) (v : Stn) : (s.setStn n v).b = s.b := rfl
@[simp] theorem State.setStn_pending (n : Nat) (v : Stn) : (s.setStn n v).pending = s.pending := rfl
@[simp] theorem State.setStn_time (n : Nat) (v : Stn) : (s.setStn n v).time = s.time := rfl
@[simp] theorem State.setStn_flds (n : Nat) (v : Stn) : (s.setStn n v).flds = s.flds := rfl
@[simp] theorem State.setStn_out (n : Nat) (v : Stn) : (s.setStn n v).out = s.out := rfl
@[simp] theorem State.setStn_nid (n : Nat) (v : Stn) : (s.setStn n v).nid = s.nid := rfl
@[simp] theorem State.setStn_free (n : Nat) (v : Stn) : (s.setStn n v).free = s.free := rfl
@[simp] theorem State.setStn_qs (n : Nat) (v : Stn) : (s.setStn n v).qs = s.qs := rfl
@[simp] theorem State.setStn_cmds (n : Nat) (v : Stn) : (s.setStn n v).cmds = s.cmds := rfl
@[simp] theorem State.setStn_units (n : Nat) (v : Stn) : (s.setStn n v).units = s.units := rfl
@[simp] theorem State.setStn_pcls (n : Nat) (v : Stn) : (s.setStn n v).pcls = s.pcls := rfl
@[simp] theorem State.setStn_eds (n : Nat) (v : Stn) : (s.setStn n v).eds = s.eds := rfl
@[simp] theorem State.setStn_ops (n : Nat) (v : Stn) : (s.setStn n v).ops = s.ops := rfl
@[simp] theorem State.setStn_mreqs (n : Nat) (v : Stn) : (s.setStn n v).mreqs = s.mreqs := rfl
@[simp] theorem State.setStn_lreqs (n : Nat) (v : Stn) : (s.setStn n v).lreqs = s.lreqs := rfl
@[simp] theorem State.setStn_locks (n : Nat) (v : Stn) : (s.setStn n v).locks = s.locks := rfl
@[simp] theorem State.setStn_lout (n : Nat) (v : Stn) : (s.setStn n v).lout = s.lout := rfl
@[simp] theorem State.setStn_lcr (n : Nat) (v : Stn) : (s.setStn n v).lcr = s.lcr := rfl
@[simp] theorem State.setStn_ltx (n : Nat) (v : Stn) : (s.setStn n v).ltx = s.ltx := rfl
@[simp] theorem State.setStn_lret (n : Nat) (v : Stn) : (s.setStn n v).lret = s.lret := rfl
@[simp] theorem State.setStn_ltxn (n : Nat) (v : Stn) : (s.setStn n v).ltxn = s.ltxn := rfl
@[simp] theorem State.setStn_linkOut (n : Nat) (v : Stn) : (s.setStn n v).linkOut = s.linkOut := rfl
@[simp] theorem State.setStn_lsigs (n : Nat) (v : Stn) : (s.setStn n v).lsigs = s.lsigs := rfl
@[simp] theorem State.setStn_lpart (n : Nat) (v : Stn) : (s.setStn n v).lpart = s.lpart := rfl
@[simp] theorem State.setStn_lrx (n : Nat) (v : Stn) : (s.setStn n v).lrx = s.lrx := rfl
@[simp] theorem State.setStn_lneg (n : Nat) (v : Stn) : (s.setStn n v).lneg = s.lneg := rfl
@[simp] theorem State.setStn_gmem (n : Nat) (v : Stn) : (s.setStn n v).gmem = s.gmem := rfl
@[simp] theorem State.setStn_colls (n : Nat) (v : Stn) : (s.setStn n v).colls = s.colls := rfl
@[simp] theorem State.setStn_colRx (n : Nat) (v : Stn) : (s.setStn n v).colRx = s.colRx := rfl
@[simp] theorem State.setStn_colN (n : Nat) (v : Stn) : (s.setStn n v).colN = s.colN := rfl
@[simp] theorem State.setStn_tsync (n : Nat) (v : Stn) : (s.setStn n v).tsync = s.tsync := rfl
@[simp] theorem State.setStn_gal (n : Nat) (v : Stn) : (s.setStn n v).gal = s.gal := rfl
@[simp] theorem State.setStn_ph (n : Nat) (v : Stn) : (s.setStn n v).ph = s.ph := rfl
@[simp] theorem State.setStn_waits (n : Nat) (v : Stn) : (s.setStn n v).waits = s.waits := rfl
@[simp] theorem State.setStn_watches (n : Nat) (v : Stn) : (s.setStn n v).watches = s.watches := rfl
@[simp] theorem State.setStn_sch (n : Nat) (v : Stn) : (s.setStn n v).sch = s.sch := rfl
@[simp] theorem State.setStn_stns (n : Nat) (v : Stn) : (s.setStn n v).stns = mset s.stns n v := rfl
@[simp] theorem State.setStn_xlt (n : Nat) (v : Stn) : (s.setStn n v).xlt = s.xlt := rfl
@[simp] theorem State.setStn_flt (n : Nat) (v : Stn) : (s.setStn n v).flt = s.flt := rfl
@[simp] theorem State.setStn_obs (n : Nat) (v : Stn) : (s.setStn n v).obs = s.obs := rfl
@[simp] theorem State.setStn_ech (n : Nat) (v : Stn) : (s.setStn n v).ech = s.ech := rfl
@[simp] theorem State.setStn_pwr (n : Nat) (v : Stn) : (s.setStn n v).pwr = s.pwr := rfl
@[simp] theorem State.setStn_fw (n : Nat) (v : Stn) : (s.setStn n v).fw = s.fw := rfl
@[simp] theorem State.setStn_cmt (n : Nat) (v : Stn) : (s.setStn n v).cmt = s.cmt := rfl
@[simp] theorem State.setStn_prt (n : Nat) (v : Stn) : (s.setStn n v).prt = s.prt := rfl
@[simp] theorem State.setStn_tap (n : Nat) (v : Stn) : (s.setStn n v).tap = s.tap := rfl
@[simp] theorem State.setStn_latch (n : Nat) (v : Stn) : (s.setStn n v).latch = s.latch := rfl
@[simp] theorem State.setStn_cbuf (n : Nat) (v : Stn) : (s.setStn n v).cbuf = s.cbuf := rfl
@[simp] theorem State.setStn_stall (n : Nat) (v : Stn) : (s.setStn n v).stall = s.stall := rfl
@[simp] theorem State.setStn_cyc (n : Nat) (v : Stn) : (s.setStn n v).cyc = s.cyc := rfl
@[simp] theorem State.setStn_irq (n : Nat) (v : Stn) : (s.setStn n v).irq = s.irq := rfl
@[simp] theorem State.setStn_rr (n : Nat) (v : Stn) : (s.setStn n v).rr = s.rr := rfl
@[simp] theorem State.setStn_rst (n : Nat) (v : Stn) : (s.setStn n v).rst = s.rst := rfl
@[simp] theorem State.setStn_f (n : Nat) (v : Stn) (y : Fld) (j : Nat) : (s.setStn n v).f y j = s.f y j := rfl
@[simp] theorem State.setStn_fb (n : Nat) (v : Stn) (y : Fld) (j : Nat) : (s.setStn n v).fb y j = s.fb y j := rfl
@[simp] theorem State.setStn_q (n : Nat) (v : Stn) (k : Nat) : (s.setStn n v).q k = s.q k := rfl

/-! ### setHall -/

@[simp] theorem State.setHall_b (h : Nat) (v : Hall) : (s.setHall h v).b = s.b := rfl
@[simp] theorem State.setHall_pending (h : Nat) (v : Hall) : (s.setHall h v).pending = s.pending := rfl
@[simp] theorem State.setHall_time (h : Nat) (v : Hall) : (s.setHall h v).time = s.time := rfl
@[simp] theorem State.setHall_flds (h : Nat) (v : Hall) : (s.setHall h v).flds = s.flds := rfl
@[simp] theorem State.setHall_out (h : Nat) (v : Hall) : (s.setHall h v).out = s.out := rfl
@[simp] theorem State.setHall_nid (h : Nat) (v : Hall) : (s.setHall h v).nid = s.nid := rfl
@[simp] theorem State.setHall_free (h : Nat) (v : Hall) : (s.setHall h v).free = s.free := rfl
@[simp] theorem State.setHall_qs (h : Nat) (v : Hall) : (s.setHall h v).qs = s.qs := rfl
@[simp] theorem State.setHall_cmds (h : Nat) (v : Hall) : (s.setHall h v).cmds = s.cmds := rfl
@[simp] theorem State.setHall_units (h : Nat) (v : Hall) : (s.setHall h v).units = s.units := rfl
@[simp] theorem State.setHall_pcls (h : Nat) (v : Hall) : (s.setHall h v).pcls = s.pcls := rfl
@[simp] theorem State.setHall_eds (h : Nat) (v : Hall) : (s.setHall h v).eds = s.eds := rfl
@[simp] theorem State.setHall_ops (h : Nat) (v : Hall) : (s.setHall h v).ops = s.ops := rfl
@[simp] theorem State.setHall_mreqs (h : Nat) (v : Hall) : (s.setHall h v).mreqs = s.mreqs := rfl
@[simp] theorem State.setHall_lreqs (h : Nat) (v : Hall) : (s.setHall h v).lreqs = s.lreqs := rfl
@[simp] theorem State.setHall_locks (h : Nat) (v : Hall) : (s.setHall h v).locks = s.locks := rfl
@[simp] theorem State.setHall_lout (h : Nat) (v : Hall) : (s.setHall h v).lout = s.lout := rfl
@[simp] theorem State.setHall_lcr (h : Nat) (v : Hall) : (s.setHall h v).lcr = s.lcr := rfl
@[simp] theorem State.setHall_ltx (h : Nat) (v : Hall) : (s.setHall h v).ltx = s.ltx := rfl
@[simp] theorem State.setHall_lret (h : Nat) (v : Hall) : (s.setHall h v).lret = s.lret := rfl
@[simp] theorem State.setHall_ltxn (h : Nat) (v : Hall) : (s.setHall h v).ltxn = s.ltxn := rfl
@[simp] theorem State.setHall_linkOut (h : Nat) (v : Hall) : (s.setHall h v).linkOut = s.linkOut := rfl
@[simp] theorem State.setHall_lsigs (h : Nat) (v : Hall) : (s.setHall h v).lsigs = s.lsigs := rfl
@[simp] theorem State.setHall_lpart (h : Nat) (v : Hall) : (s.setHall h v).lpart = s.lpart := rfl
@[simp] theorem State.setHall_lrx (h : Nat) (v : Hall) : (s.setHall h v).lrx = s.lrx := rfl
@[simp] theorem State.setHall_lneg (h : Nat) (v : Hall) : (s.setHall h v).lneg = s.lneg := rfl
@[simp] theorem State.setHall_gmem (h : Nat) (v : Hall) : (s.setHall h v).gmem = s.gmem := rfl
@[simp] theorem State.setHall_colls (h : Nat) (v : Hall) : (s.setHall h v).colls = s.colls := rfl
@[simp] theorem State.setHall_colRx (h : Nat) (v : Hall) : (s.setHall h v).colRx = s.colRx := rfl
@[simp] theorem State.setHall_colN (h : Nat) (v : Hall) : (s.setHall h v).colN = s.colN := rfl
@[simp] theorem State.setHall_tsync (h : Nat) (v : Hall) : (s.setHall h v).tsync = s.tsync := rfl
@[simp] theorem State.setHall_ph (h : Nat) (v : Hall) : (s.setHall h v).ph = s.ph := rfl
@[simp] theorem State.setHall_waits (h : Nat) (v : Hall) : (s.setHall h v).waits = s.waits := rfl
@[simp] theorem State.setHall_watches (h : Nat) (v : Hall) : (s.setHall h v).watches = s.watches := rfl
@[simp] theorem State.setHall_sch (h : Nat) (v : Hall) : (s.setHall h v).sch = s.sch := rfl
@[simp] theorem State.setHall_stns (h : Nat) (v : Hall) : (s.setHall h v).stns = s.stns := rfl
@[simp] theorem State.setHall_xlt (h : Nat) (v : Hall) : (s.setHall h v).xlt = s.xlt := rfl
@[simp] theorem State.setHall_flt (h : Nat) (v : Hall) : (s.setHall h v).flt = s.flt := rfl
@[simp] theorem State.setHall_obs (h : Nat) (v : Hall) : (s.setHall h v).obs = s.obs := rfl
@[simp] theorem State.setHall_ech (h : Nat) (v : Hall) : (s.setHall h v).ech = s.ech := rfl
@[simp] theorem State.setHall_pwr (h : Nat) (v : Hall) : (s.setHall h v).pwr = s.pwr := rfl
@[simp] theorem State.setHall_fw (h : Nat) (v : Hall) : (s.setHall h v).fw = s.fw := rfl
@[simp] theorem State.setHall_cmt (h : Nat) (v : Hall) : (s.setHall h v).cmt = s.cmt := rfl
@[simp] theorem State.setHall_prt (h : Nat) (v : Hall) : (s.setHall h v).prt = s.prt := rfl
@[simp] theorem State.setHall_tap (h : Nat) (v : Hall) : (s.setHall h v).tap = s.tap := rfl
@[simp] theorem State.setHall_latch (h : Nat) (v : Hall) : (s.setHall h v).latch = s.latch := rfl
@[simp] theorem State.setHall_cbuf (h : Nat) (v : Hall) : (s.setHall h v).cbuf = s.cbuf := rfl
@[simp] theorem State.setHall_stall (h : Nat) (v : Hall) : (s.setHall h v).stall = s.stall := rfl
@[simp] theorem State.setHall_cyc (h : Nat) (v : Hall) : (s.setHall h v).cyc = s.cyc := rfl
@[simp] theorem State.setHall_irq (h : Nat) (v : Hall) : (s.setHall h v).irq = s.irq := rfl
@[simp] theorem State.setHall_rr (h : Nat) (v : Hall) : (s.setHall h v).rr = s.rr := rfl
@[simp] theorem State.setHall_rst (h : Nat) (v : Hall) : (s.setHall h v).rst = s.rst := rfl
@[simp] theorem State.setHall_f (h : Nat) (v : Hall) (y : Fld) (j : Nat) : (s.setHall h v).f y j = s.f y j := rfl
@[simp] theorem State.setHall_fb (h : Nat) (v : Hall) (y : Fld) (j : Nat) : (s.setHall h v).fb y j = s.fb y j := rfl
@[simp] theorem State.setHall_q (h : Nat) (v : Hall) (k : Nat) : (s.setHall h v).q k = s.q k := rfl

/-! ### setPrt -/

@[simp] theorem State.setPrt_b (p : Nat) (d : PrtDis) : (setPrt s p d).b = s.b := rfl
@[simp] theorem State.setPrt_pending (p : Nat) (d : PrtDis) : (setPrt s p d).pending = s.pending := rfl
@[simp] theorem State.setPrt_time (p : Nat) (d : PrtDis) : (setPrt s p d).time = s.time := rfl
@[simp] theorem State.setPrt_flds (p : Nat) (d : PrtDis) : (setPrt s p d).flds = s.flds := rfl
@[simp] theorem State.setPrt_out (p : Nat) (d : PrtDis) : (setPrt s p d).out = s.out := rfl
@[simp] theorem State.setPrt_nid (p : Nat) (d : PrtDis) : (setPrt s p d).nid = s.nid := rfl
@[simp] theorem State.setPrt_free (p : Nat) (d : PrtDis) : (setPrt s p d).free = s.free := rfl
@[simp] theorem State.setPrt_qs (p : Nat) (d : PrtDis) : (setPrt s p d).qs = s.qs := rfl
@[simp] theorem State.setPrt_cmds (p : Nat) (d : PrtDis) : (setPrt s p d).cmds = s.cmds := rfl
@[simp] theorem State.setPrt_units (p : Nat) (d : PrtDis) : (setPrt s p d).units = s.units := rfl
@[simp] theorem State.setPrt_pcls (p : Nat) (d : PrtDis) : (setPrt s p d).pcls = s.pcls := rfl
@[simp] theorem State.setPrt_eds (p : Nat) (d : PrtDis) : (setPrt s p d).eds = s.eds := rfl
@[simp] theorem State.setPrt_ops (p : Nat) (d : PrtDis) : (setPrt s p d).ops = s.ops := rfl
@[simp] theorem State.setPrt_mreqs (p : Nat) (d : PrtDis) : (setPrt s p d).mreqs = s.mreqs := rfl
@[simp] theorem State.setPrt_lreqs (p : Nat) (d : PrtDis) : (setPrt s p d).lreqs = s.lreqs := rfl
@[simp] theorem State.setPrt_locks (p : Nat) (d : PrtDis) : (setPrt s p d).locks = s.locks := rfl
@[simp] theorem State.setPrt_lout (p : Nat) (d : PrtDis) : (setPrt s p d).lout = s.lout := rfl
@[simp] theorem State.setPrt_lcr (p : Nat) (d : PrtDis) : (setPrt s p d).lcr = s.lcr := rfl
@[simp] theorem State.setPrt_ltx (p : Nat) (d : PrtDis) : (setPrt s p d).ltx = s.ltx := rfl
@[simp] theorem State.setPrt_lret (p : Nat) (d : PrtDis) : (setPrt s p d).lret = s.lret := rfl
@[simp] theorem State.setPrt_ltxn (p : Nat) (d : PrtDis) : (setPrt s p d).ltxn = s.ltxn := rfl
@[simp] theorem State.setPrt_linkOut (p : Nat) (d : PrtDis) : (setPrt s p d).linkOut = s.linkOut := rfl
@[simp] theorem State.setPrt_lsigs (p : Nat) (d : PrtDis) : (setPrt s p d).lsigs = s.lsigs := rfl
@[simp] theorem State.setPrt_lpart (p : Nat) (d : PrtDis) : (setPrt s p d).lpart = s.lpart := rfl
@[simp] theorem State.setPrt_lrx (p : Nat) (d : PrtDis) : (setPrt s p d).lrx = s.lrx := rfl
@[simp] theorem State.setPrt_lneg (p : Nat) (d : PrtDis) : (setPrt s p d).lneg = s.lneg := rfl
@[simp] theorem State.setPrt_gmem (p : Nat) (d : PrtDis) : (setPrt s p d).gmem = s.gmem := rfl
@[simp] theorem State.setPrt_colls (p : Nat) (d : PrtDis) : (setPrt s p d).colls = s.colls := rfl
@[simp] theorem State.setPrt_colRx (p : Nat) (d : PrtDis) : (setPrt s p d).colRx = s.colRx := rfl
@[simp] theorem State.setPrt_colN (p : Nat) (d : PrtDis) : (setPrt s p d).colN = s.colN := rfl
@[simp] theorem State.setPrt_tsync (p : Nat) (d : PrtDis) : (setPrt s p d).tsync = s.tsync := rfl
@[simp] theorem State.setPrt_gal (p : Nat) (d : PrtDis) : (setPrt s p d).gal = s.gal := rfl
@[simp] theorem State.setPrt_ph (p : Nat) (d : PrtDis) : (setPrt s p d).ph = s.ph := rfl
@[simp] theorem State.setPrt_waits (p : Nat) (d : PrtDis) : (setPrt s p d).waits = s.waits := rfl
@[simp] theorem State.setPrt_watches (p : Nat) (d : PrtDis) : (setPrt s p d).watches = s.watches := rfl
@[simp] theorem State.setPrt_sch (p : Nat) (d : PrtDis) : (setPrt s p d).sch = s.sch := rfl
@[simp] theorem State.setPrt_stns (p : Nat) (d : PrtDis) : (setPrt s p d).stns = s.stns := rfl
@[simp] theorem State.setPrt_xlt (p : Nat) (d : PrtDis) : (setPrt s p d).xlt = s.xlt := rfl
@[simp] theorem State.setPrt_flt (p : Nat) (d : PrtDis) : (setPrt s p d).flt = s.flt := rfl
@[simp] theorem State.setPrt_obs (p : Nat) (d : PrtDis) : (setPrt s p d).obs = s.obs := rfl
@[simp] theorem State.setPrt_ech (p : Nat) (d : PrtDis) : (setPrt s p d).ech = s.ech := rfl
@[simp] theorem State.setPrt_pwr (p : Nat) (d : PrtDis) : (setPrt s p d).pwr = s.pwr := rfl
@[simp] theorem State.setPrt_fw (p : Nat) (d : PrtDis) : (setPrt s p d).fw = s.fw := rfl
@[simp] theorem State.setPrt_cmt (p : Nat) (d : PrtDis) : (setPrt s p d).cmt = s.cmt := rfl
@[simp] theorem State.setPrt_prt (p : Nat) (d : PrtDis) : (setPrt s p d).prt = mset s.prt p d := rfl
@[simp] theorem State.setPrt_tap (p : Nat) (d : PrtDis) : (setPrt s p d).tap = s.tap := rfl
@[simp] theorem State.setPrt_latch (p : Nat) (d : PrtDis) : (setPrt s p d).latch = s.latch := rfl
@[simp] theorem State.setPrt_cbuf (p : Nat) (d : PrtDis) : (setPrt s p d).cbuf = s.cbuf := rfl
@[simp] theorem State.setPrt_stall (p : Nat) (d : PrtDis) : (setPrt s p d).stall = s.stall := rfl
@[simp] theorem State.setPrt_cyc (p : Nat) (d : PrtDis) : (setPrt s p d).cyc = s.cyc := rfl
@[simp] theorem State.setPrt_irq (p : Nat) (d : PrtDis) : (setPrt s p d).irq = s.irq := rfl
@[simp] theorem State.setPrt_rr (p : Nat) (d : PrtDis) : (setPrt s p d).rr = s.rr := rfl
@[simp] theorem State.setPrt_rst (p : Nat) (d : PrtDis) : (setPrt s p d).rst = s.rst := rfl
@[simp] theorem State.setPrt_f (p : Nat) (d : PrtDis) (y : Fld) (j : Nat) : (setPrt s p d).f y j = s.f y j := rfl
@[simp] theorem State.setPrt_fb (p : Nat) (d : PrtDis) (y : Fld) (j : Nat) : (setPrt s p d).fb y j = s.fb y j := rfl
@[simp] theorem State.setPrt_q (p : Nat) (d : PrtDis) (k : Nat) : (setPrt s p d).q k = s.q k := rfl

/-! ### setPwr -/

@[simp] theorem State.setPwr_b (p : Pwr) : (setPwr s p).b = s.b := rfl
@[simp] theorem State.setPwr_pending (p : Pwr) : (setPwr s p).pending = s.pending := rfl
@[simp] theorem State.setPwr_time (p : Pwr) : (setPwr s p).time = s.time := rfl
@[simp] theorem State.setPwr_flds (p : Pwr) : (setPwr s p).flds = s.flds := rfl
@[simp] theorem State.setPwr_out (p : Pwr) : (setPwr s p).out = s.out := rfl
@[simp] theorem State.setPwr_nid (p : Pwr) : (setPwr s p).nid = s.nid := rfl
@[simp] theorem State.setPwr_free (p : Pwr) : (setPwr s p).free = s.free := rfl
@[simp] theorem State.setPwr_qs (p : Pwr) : (setPwr s p).qs = s.qs := rfl
@[simp] theorem State.setPwr_cmds (p : Pwr) : (setPwr s p).cmds = s.cmds := rfl
@[simp] theorem State.setPwr_units (p : Pwr) : (setPwr s p).units = s.units := rfl
@[simp] theorem State.setPwr_pcls (p : Pwr) : (setPwr s p).pcls = s.pcls := rfl
@[simp] theorem State.setPwr_eds (p : Pwr) : (setPwr s p).eds = s.eds := rfl
@[simp] theorem State.setPwr_ops (p : Pwr) : (setPwr s p).ops = s.ops := rfl
@[simp] theorem State.setPwr_mreqs (p : Pwr) : (setPwr s p).mreqs = s.mreqs := rfl
@[simp] theorem State.setPwr_lreqs (p : Pwr) : (setPwr s p).lreqs = s.lreqs := rfl
@[simp] theorem State.setPwr_locks (p : Pwr) : (setPwr s p).locks = s.locks := rfl
@[simp] theorem State.setPwr_lout (p : Pwr) : (setPwr s p).lout = s.lout := rfl
@[simp] theorem State.setPwr_lcr (p : Pwr) : (setPwr s p).lcr = s.lcr := rfl
@[simp] theorem State.setPwr_ltx (p : Pwr) : (setPwr s p).ltx = s.ltx := rfl
@[simp] theorem State.setPwr_lret (p : Pwr) : (setPwr s p).lret = s.lret := rfl
@[simp] theorem State.setPwr_ltxn (p : Pwr) : (setPwr s p).ltxn = s.ltxn := rfl
@[simp] theorem State.setPwr_linkOut (p : Pwr) : (setPwr s p).linkOut = s.linkOut := rfl
@[simp] theorem State.setPwr_lsigs (p : Pwr) : (setPwr s p).lsigs = s.lsigs := rfl
@[simp] theorem State.setPwr_lpart (p : Pwr) : (setPwr s p).lpart = s.lpart := rfl
@[simp] theorem State.setPwr_lrx (p : Pwr) : (setPwr s p).lrx = s.lrx := rfl
@[simp] theorem State.setPwr_lneg (p : Pwr) : (setPwr s p).lneg = s.lneg := rfl
@[simp] theorem State.setPwr_gmem (p : Pwr) : (setPwr s p).gmem = s.gmem := rfl
@[simp] theorem State.setPwr_colls (p : Pwr) : (setPwr s p).colls = s.colls := rfl
@[simp] theorem State.setPwr_colRx (p : Pwr) : (setPwr s p).colRx = s.colRx := rfl
@[simp] theorem State.setPwr_colN (p : Pwr) : (setPwr s p).colN = s.colN := rfl
@[simp] theorem State.setPwr_tsync (p : Pwr) : (setPwr s p).tsync = s.tsync := rfl
@[simp] theorem State.setPwr_gal (p : Pwr) : (setPwr s p).gal = s.gal := rfl
@[simp] theorem State.setPwr_ph (p : Pwr) : (setPwr s p).ph = s.ph := rfl
@[simp] theorem State.setPwr_waits (p : Pwr) : (setPwr s p).waits = s.waits := rfl
@[simp] theorem State.setPwr_watches (p : Pwr) : (setPwr s p).watches = s.watches := rfl
@[simp] theorem State.setPwr_sch (p : Pwr) : (setPwr s p).sch = s.sch := rfl
@[simp] theorem State.setPwr_stns (p : Pwr) : (setPwr s p).stns = s.stns := rfl
@[simp] theorem State.setPwr_xlt (p : Pwr) : (setPwr s p).xlt = s.xlt := rfl
@[simp] theorem State.setPwr_flt (p : Pwr) : (setPwr s p).flt = s.flt := rfl
@[simp] theorem State.setPwr_obs (p : Pwr) : (setPwr s p).obs = s.obs := rfl
@[simp] theorem State.setPwr_ech (p : Pwr) : (setPwr s p).ech = s.ech := rfl
@[simp] theorem State.setPwr_pwr (p : Pwr) : (setPwr s p).pwr = p := rfl
@[simp] theorem State.setPwr_fw (p : Pwr) : (setPwr s p).fw = s.fw := rfl
@[simp] theorem State.setPwr_cmt (p : Pwr) : (setPwr s p).cmt = s.cmt := rfl
@[simp] theorem State.setPwr_prt (p : Pwr) : (setPwr s p).prt = s.prt := rfl
@[simp] theorem State.setPwr_tap (p : Pwr) : (setPwr s p).tap = s.tap := rfl
@[simp] theorem State.setPwr_latch (p : Pwr) : (setPwr s p).latch = s.latch := rfl
@[simp] theorem State.setPwr_cbuf (p : Pwr) : (setPwr s p).cbuf = s.cbuf := rfl
@[simp] theorem State.setPwr_stall (p : Pwr) : (setPwr s p).stall = s.stall := rfl
@[simp] theorem State.setPwr_cyc (p : Pwr) : (setPwr s p).cyc = s.cyc := rfl
@[simp] theorem State.setPwr_irq (p : Pwr) : (setPwr s p).irq = s.irq := rfl
@[simp] theorem State.setPwr_rr (p : Pwr) : (setPwr s p).rr = s.rr := rfl
@[simp] theorem State.setPwr_rst (p : Pwr) : (setPwr s p).rst = s.rst := rfl
@[simp] theorem State.setPwr_f (p : Pwr) (y : Fld) (j : Nat) : (setPwr s p).f y j = s.f y j := rfl
@[simp] theorem State.setPwr_fb (p : Pwr) (y : Fld) (j : Nat) : (setPwr s p).fb y j = s.fb y j := rfl
@[simp] theorem State.setPwr_q (p : Pwr) (k : Nat) : (setPwr s p).q k = s.q k := rfl

/-! ### setEch -/

@[simp] theorem State.setEch_b (e : Echo) : (setEch s e).b = s.b := rfl
@[simp] theorem State.setEch_pending (e : Echo) : (setEch s e).pending = s.pending := rfl
@[simp] theorem State.setEch_time (e : Echo) : (setEch s e).time = s.time := rfl
@[simp] theorem State.setEch_flds (e : Echo) : (setEch s e).flds = s.flds := rfl
@[simp] theorem State.setEch_out (e : Echo) : (setEch s e).out = s.out := rfl
@[simp] theorem State.setEch_nid (e : Echo) : (setEch s e).nid = s.nid := rfl
@[simp] theorem State.setEch_free (e : Echo) : (setEch s e).free = s.free := rfl
@[simp] theorem State.setEch_qs (e : Echo) : (setEch s e).qs = s.qs := rfl
@[simp] theorem State.setEch_cmds (e : Echo) : (setEch s e).cmds = s.cmds := rfl
@[simp] theorem State.setEch_units (e : Echo) : (setEch s e).units = s.units := rfl
@[simp] theorem State.setEch_pcls (e : Echo) : (setEch s e).pcls = s.pcls := rfl
@[simp] theorem State.setEch_eds (e : Echo) : (setEch s e).eds = s.eds := rfl
@[simp] theorem State.setEch_ops (e : Echo) : (setEch s e).ops = s.ops := rfl
@[simp] theorem State.setEch_mreqs (e : Echo) : (setEch s e).mreqs = s.mreqs := rfl
@[simp] theorem State.setEch_lreqs (e : Echo) : (setEch s e).lreqs = s.lreqs := rfl
@[simp] theorem State.setEch_locks (e : Echo) : (setEch s e).locks = s.locks := rfl
@[simp] theorem State.setEch_lout (e : Echo) : (setEch s e).lout = s.lout := rfl
@[simp] theorem State.setEch_lcr (e : Echo) : (setEch s e).lcr = s.lcr := rfl
@[simp] theorem State.setEch_ltx (e : Echo) : (setEch s e).ltx = s.ltx := rfl
@[simp] theorem State.setEch_lret (e : Echo) : (setEch s e).lret = s.lret := rfl
@[simp] theorem State.setEch_ltxn (e : Echo) : (setEch s e).ltxn = s.ltxn := rfl
@[simp] theorem State.setEch_linkOut (e : Echo) : (setEch s e).linkOut = s.linkOut := rfl
@[simp] theorem State.setEch_lsigs (e : Echo) : (setEch s e).lsigs = s.lsigs := rfl
@[simp] theorem State.setEch_lpart (e : Echo) : (setEch s e).lpart = s.lpart := rfl
@[simp] theorem State.setEch_lrx (e : Echo) : (setEch s e).lrx = s.lrx := rfl
@[simp] theorem State.setEch_lneg (e : Echo) : (setEch s e).lneg = s.lneg := rfl
@[simp] theorem State.setEch_gmem (e : Echo) : (setEch s e).gmem = s.gmem := rfl
@[simp] theorem State.setEch_colls (e : Echo) : (setEch s e).colls = s.colls := rfl
@[simp] theorem State.setEch_colRx (e : Echo) : (setEch s e).colRx = s.colRx := rfl
@[simp] theorem State.setEch_colN (e : Echo) : (setEch s e).colN = s.colN := rfl
@[simp] theorem State.setEch_tsync (e : Echo) : (setEch s e).tsync = s.tsync := rfl
@[simp] theorem State.setEch_gal (e : Echo) : (setEch s e).gal = s.gal := rfl
@[simp] theorem State.setEch_ph (e : Echo) : (setEch s e).ph = s.ph := rfl
@[simp] theorem State.setEch_waits (e : Echo) : (setEch s e).waits = s.waits := rfl
@[simp] theorem State.setEch_watches (e : Echo) : (setEch s e).watches = s.watches := rfl
@[simp] theorem State.setEch_sch (e : Echo) : (setEch s e).sch = s.sch := rfl
@[simp] theorem State.setEch_stns (e : Echo) : (setEch s e).stns = s.stns := rfl
@[simp] theorem State.setEch_xlt (e : Echo) : (setEch s e).xlt = s.xlt := rfl
@[simp] theorem State.setEch_flt (e : Echo) : (setEch s e).flt = s.flt := rfl
@[simp] theorem State.setEch_obs (e : Echo) : (setEch s e).obs = s.obs := rfl
@[simp] theorem State.setEch_ech (e : Echo) : (setEch s e).ech = e := rfl
@[simp] theorem State.setEch_pwr (e : Echo) : (setEch s e).pwr = s.pwr := rfl
@[simp] theorem State.setEch_fw (e : Echo) : (setEch s e).fw = s.fw := rfl
@[simp] theorem State.setEch_cmt (e : Echo) : (setEch s e).cmt = s.cmt := rfl
@[simp] theorem State.setEch_prt (e : Echo) : (setEch s e).prt = s.prt := rfl
@[simp] theorem State.setEch_tap (e : Echo) : (setEch s e).tap = s.tap := rfl
@[simp] theorem State.setEch_latch (e : Echo) : (setEch s e).latch = s.latch := rfl
@[simp] theorem State.setEch_cbuf (e : Echo) : (setEch s e).cbuf = s.cbuf := rfl
@[simp] theorem State.setEch_stall (e : Echo) : (setEch s e).stall = s.stall := rfl
@[simp] theorem State.setEch_cyc (e : Echo) : (setEch s e).cyc = s.cyc := rfl
@[simp] theorem State.setEch_irq (e : Echo) : (setEch s e).irq = s.irq := rfl
@[simp] theorem State.setEch_rr (e : Echo) : (setEch s e).rr = s.rr := rfl
@[simp] theorem State.setEch_rst (e : Echo) : (setEch s e).rst = s.rst := rfl
@[simp] theorem State.setEch_f (e : Echo) (y : Fld) (j : Nat) : (setEch s e).f y j = s.f y j := rfl
@[simp] theorem State.setEch_fb (e : Echo) (y : Fld) (j : Nat) : (setEch s e).fb y j = s.fb y j := rfl
@[simp] theorem State.setEch_q (e : Echo) (k : Nat) : (setEch s e).q k = s.q k := rfl

/-! ### setObs -/

@[simp] theorem State.setObs_b (o : Obs) : (setObs s o).b = s.b := rfl
@[simp] theorem State.setObs_pending (o : Obs) : (setObs s o).pending = s.pending := rfl
@[simp] theorem State.setObs_time (o : Obs) : (setObs s o).time = s.time := rfl
@[simp] theorem State.setObs_flds (o : Obs) : (setObs s o).flds = s.flds := rfl
@[simp] theorem State.setObs_out (o : Obs) : (setObs s o).out = s.out := rfl
@[simp] theorem State.setObs_nid (o : Obs) : (setObs s o).nid = s.nid := rfl
@[simp] theorem State.setObs_free (o : Obs) : (setObs s o).free = s.free := rfl
@[simp] theorem State.setObs_qs (o : Obs) : (setObs s o).qs = s.qs := rfl
@[simp] theorem State.setObs_cmds (o : Obs) : (setObs s o).cmds = s.cmds := rfl
@[simp] theorem State.setObs_units (o : Obs) : (setObs s o).units = s.units := rfl
@[simp] theorem State.setObs_pcls (o : Obs) : (setObs s o).pcls = s.pcls := rfl
@[simp] theorem State.setObs_eds (o : Obs) : (setObs s o).eds = s.eds := rfl
@[simp] theorem State.setObs_ops (o : Obs) : (setObs s o).ops = s.ops := rfl
@[simp] theorem State.setObs_mreqs (o : Obs) : (setObs s o).mreqs = s.mreqs := rfl
@[simp] theorem State.setObs_lreqs (o : Obs) : (setObs s o).lreqs = s.lreqs := rfl
@[simp] theorem State.setObs_locks (o : Obs) : (setObs s o).locks = s.locks := rfl
@[simp] theorem State.setObs_lout (o : Obs) : (setObs s o).lout = s.lout := rfl
@[simp] theorem State.setObs_lcr (o : Obs) : (setObs s o).lcr = s.lcr := rfl
@[simp] theorem State.setObs_ltx (o : Obs) : (setObs s o).ltx = s.ltx := rfl
@[simp] theorem State.setObs_lret (o : Obs) : (setObs s o).lret = s.lret := rfl
@[simp] theorem State.setObs_ltxn (o : Obs) : (setObs s o).ltxn = s.ltxn := rfl
@[simp] theorem State.setObs_linkOut (o : Obs) : (setObs s o).linkOut = s.linkOut := rfl
@[simp] theorem State.setObs_lsigs (o : Obs) : (setObs s o).lsigs = s.lsigs := rfl
@[simp] theorem State.setObs_lpart (o : Obs) : (setObs s o).lpart = s.lpart := rfl
@[simp] theorem State.setObs_lrx (o : Obs) : (setObs s o).lrx = s.lrx := rfl
@[simp] theorem State.setObs_lneg (o : Obs) : (setObs s o).lneg = s.lneg := rfl
@[simp] theorem State.setObs_gmem (o : Obs) : (setObs s o).gmem = s.gmem := rfl
@[simp] theorem State.setObs_colls (o : Obs) : (setObs s o).colls = s.colls := rfl
@[simp] theorem State.setObs_colRx (o : Obs) : (setObs s o).colRx = s.colRx := rfl
@[simp] theorem State.setObs_colN (o : Obs) : (setObs s o).colN = s.colN := rfl
@[simp] theorem State.setObs_tsync (o : Obs) : (setObs s o).tsync = s.tsync := rfl
@[simp] theorem State.setObs_gal (o : Obs) : (setObs s o).gal = s.gal := rfl
@[simp] theorem State.setObs_ph (o : Obs) : (setObs s o).ph = s.ph := rfl
@[simp] theorem State.setObs_waits (o : Obs) : (setObs s o).waits = s.waits := rfl
@[simp] theorem State.setObs_watches (o : Obs) : (setObs s o).watches = s.watches := rfl
@[simp] theorem State.setObs_sch (o : Obs) : (setObs s o).sch = s.sch := rfl
@[simp] theorem State.setObs_stns (o : Obs) : (setObs s o).stns = s.stns := rfl
@[simp] theorem State.setObs_xlt (o : Obs) : (setObs s o).xlt = s.xlt := rfl
@[simp] theorem State.setObs_flt (o : Obs) : (setObs s o).flt = s.flt := rfl
@[simp] theorem State.setObs_obs (o : Obs) : (setObs s o).obs = o := rfl
@[simp] theorem State.setObs_ech (o : Obs) : (setObs s o).ech = s.ech := rfl
@[simp] theorem State.setObs_pwr (o : Obs) : (setObs s o).pwr = s.pwr := rfl
@[simp] theorem State.setObs_fw (o : Obs) : (setObs s o).fw = s.fw := rfl
@[simp] theorem State.setObs_cmt (o : Obs) : (setObs s o).cmt = s.cmt := rfl
@[simp] theorem State.setObs_prt (o : Obs) : (setObs s o).prt = s.prt := rfl
@[simp] theorem State.setObs_tap (o : Obs) : (setObs s o).tap = s.tap := rfl
@[simp] theorem State.setObs_latch (o : Obs) : (setObs s o).latch = s.latch := rfl
@[simp] theorem State.setObs_cbuf (o : Obs) : (setObs s o).cbuf = s.cbuf := rfl
@[simp] theorem State.setObs_stall (o : Obs) : (setObs s o).stall = s.stall := rfl
@[simp] theorem State.setObs_cyc (o : Obs) : (setObs s o).cyc = s.cyc := rfl
@[simp] theorem State.setObs_irq (o : Obs) : (setObs s o).irq = s.irq := rfl
@[simp] theorem State.setObs_rr (o : Obs) : (setObs s o).rr = s.rr := rfl
@[simp] theorem State.setObs_rst (o : Obs) : (setObs s o).rst = s.rst := rfl
@[simp] theorem State.setObs_f (o : Obs) (y : Fld) (j : Nat) : (setObs s o).f y j = s.f y j := rfl
@[simp] theorem State.setObs_fb (o : Obs) (y : Fld) (j : Nat) : (setObs s o).fb y j = s.fb y j := rfl
@[simp] theorem State.setObs_q (o : Obs) (k : Nat) : (setObs s o).q k = s.q k := rfl

/-! ### setFw -/

@[simp] theorem State.setFw_b (x : Fw) : (setFw s x).b = s.b := rfl
@[simp] theorem State.setFw_pending (x : Fw) : (setFw s x).pending = s.pending := rfl
@[simp] theorem State.setFw_time (x : Fw) : (setFw s x).time = s.time := rfl
@[simp] theorem State.setFw_flds (x : Fw) : (setFw s x).flds = s.flds := rfl
@[simp] theorem State.setFw_out (x : Fw) : (setFw s x).out = s.out := rfl
@[simp] theorem State.setFw_nid (x : Fw) : (setFw s x).nid = s.nid := rfl
@[simp] theorem State.setFw_free (x : Fw) : (setFw s x).free = s.free := rfl
@[simp] theorem State.setFw_qs (x : Fw) : (setFw s x).qs = s.qs := rfl
@[simp] theorem State.setFw_cmds (x : Fw) : (setFw s x).cmds = s.cmds := rfl
@[simp] theorem State.setFw_units (x : Fw) : (setFw s x).units = s.units := rfl
@[simp] theorem State.setFw_pcls (x : Fw) : (setFw s x).pcls = s.pcls := rfl
@[simp] theorem State.setFw_eds (x : Fw) : (setFw s x).eds = s.eds := rfl
@[simp] theorem State.setFw_ops (x : Fw) : (setFw s x).ops = s.ops := rfl
@[simp] theorem State.setFw_mreqs (x : Fw) : (setFw s x).mreqs = s.mreqs := rfl
@[simp] theorem State.setFw_lreqs (x : Fw) : (setFw s x).lreqs = s.lreqs := rfl
@[simp] theorem State.setFw_locks (x : Fw) : (setFw s x).locks = s.locks := rfl
@[simp] theorem State.setFw_lout (x : Fw) : (setFw s x).lout = s.lout := rfl
@[simp] theorem State.setFw_lcr (x : Fw) : (setFw s x).lcr = s.lcr := rfl
@[simp] theorem State.setFw_ltx (x : Fw) : (setFw s x).ltx = s.ltx := rfl
@[simp] theorem State.setFw_lret (x : Fw) : (setFw s x).lret = s.lret := rfl
@[simp] theorem State.setFw_ltxn (x : Fw) : (setFw s x).ltxn = s.ltxn := rfl
@[simp] theorem State.setFw_linkOut (x : Fw) : (setFw s x).linkOut = s.linkOut := rfl
@[simp] theorem State.setFw_lsigs (x : Fw) : (setFw s x).lsigs = s.lsigs := rfl
@[simp] theorem State.setFw_lpart (x : Fw) : (setFw s x).lpart = s.lpart := rfl
@[simp] theorem State.setFw_lrx (x : Fw) : (setFw s x).lrx = s.lrx := rfl
@[simp] theorem State.setFw_lneg (x : Fw) : (setFw s x).lneg = s.lneg := rfl
@[simp] theorem State.setFw_gmem (x : Fw) : (setFw s x).gmem = s.gmem := rfl
@[simp] theorem State.setFw_colls (x : Fw) : (setFw s x).colls = s.colls := rfl
@[simp] theorem State.setFw_colRx (x : Fw) : (setFw s x).colRx = s.colRx := rfl
@[simp] theorem State.setFw_colN (x : Fw) : (setFw s x).colN = s.colN := rfl
@[simp] theorem State.setFw_tsync (x : Fw) : (setFw s x).tsync = s.tsync := rfl
@[simp] theorem State.setFw_gal (x : Fw) : (setFw s x).gal = s.gal := rfl
@[simp] theorem State.setFw_ph (x : Fw) : (setFw s x).ph = s.ph := rfl
@[simp] theorem State.setFw_waits (x : Fw) : (setFw s x).waits = s.waits := rfl
@[simp] theorem State.setFw_watches (x : Fw) : (setFw s x).watches = s.watches := rfl
@[simp] theorem State.setFw_sch (x : Fw) : (setFw s x).sch = s.sch := rfl
@[simp] theorem State.setFw_stns (x : Fw) : (setFw s x).stns = s.stns := rfl
@[simp] theorem State.setFw_xlt (x : Fw) : (setFw s x).xlt = s.xlt := rfl
@[simp] theorem State.setFw_flt (x : Fw) : (setFw s x).flt = s.flt := rfl
@[simp] theorem State.setFw_obs (x : Fw) : (setFw s x).obs = s.obs := rfl
@[simp] theorem State.setFw_ech (x : Fw) : (setFw s x).ech = s.ech := rfl
@[simp] theorem State.setFw_pwr (x : Fw) : (setFw s x).pwr = s.pwr := rfl
@[simp] theorem State.setFw_fw (x : Fw) : (setFw s x).fw = x := rfl
@[simp] theorem State.setFw_cmt (x : Fw) : (setFw s x).cmt = s.cmt := rfl
@[simp] theorem State.setFw_prt (x : Fw) : (setFw s x).prt = s.prt := rfl
@[simp] theorem State.setFw_tap (x : Fw) : (setFw s x).tap = s.tap := rfl
@[simp] theorem State.setFw_latch (x : Fw) : (setFw s x).latch = s.latch := rfl
@[simp] theorem State.setFw_cbuf (x : Fw) : (setFw s x).cbuf = s.cbuf := rfl
@[simp] theorem State.setFw_stall (x : Fw) : (setFw s x).stall = s.stall := rfl
@[simp] theorem State.setFw_cyc (x : Fw) : (setFw s x).cyc = s.cyc := rfl
@[simp] theorem State.setFw_irq (x : Fw) : (setFw s x).irq = s.irq := rfl
@[simp] theorem State.setFw_rr (x : Fw) : (setFw s x).rr = s.rr := rfl
@[simp] theorem State.setFw_rst (x : Fw) : (setFw s x).rst = s.rst := rfl
@[simp] theorem State.setFw_f (x : Fw) (y : Fld) (j : Nat) : (setFw s x).f y j = s.f y j := rfl
@[simp] theorem State.setFw_fb (x : Fw) (y : Fld) (j : Nat) : (setFw s x).fb y j = s.fb y j := rfl
@[simp] theorem State.setFw_q (x : Fw) (k : Nat) : (setFw s x).q k = s.q k := rfl

/-! ### setCmt -/

@[simp] theorem State.setCmt_b (c : Cmt) : (setCmt s c).b = s.b := rfl
@[simp] theorem State.setCmt_pending (c : Cmt) : (setCmt s c).pending = s.pending := rfl
@[simp] theorem State.setCmt_time (c : Cmt) : (setCmt s c).time = s.time := rfl
@[simp] theorem State.setCmt_flds (c : Cmt) : (setCmt s c).flds = s.flds := rfl
@[simp] theorem State.setCmt_out (c : Cmt) : (setCmt s c).out = s.out := rfl
@[simp] theorem State.setCmt_nid (c : Cmt) : (setCmt s c).nid = s.nid := rfl
@[simp] theorem State.setCmt_free (c : Cmt) : (setCmt s c).free = s.free := rfl
@[simp] theorem State.setCmt_qs (c : Cmt) : (setCmt s c).qs = s.qs := rfl
@[simp] theorem State.setCmt_cmds (c : Cmt) : (setCmt s c).cmds = s.cmds := rfl
@[simp] theorem State.setCmt_units (c : Cmt) : (setCmt s c).units = s.units := rfl
@[simp] theorem State.setCmt_pcls (c : Cmt) : (setCmt s c).pcls = s.pcls := rfl
@[simp] theorem State.setCmt_eds (c : Cmt) : (setCmt s c).eds = s.eds := rfl
@[simp] theorem State.setCmt_ops (c : Cmt) : (setCmt s c).ops = s.ops := rfl
@[simp] theorem State.setCmt_mreqs (c : Cmt) : (setCmt s c).mreqs = s.mreqs := rfl
@[simp] theorem State.setCmt_lreqs (c : Cmt) : (setCmt s c).lreqs = s.lreqs := rfl
@[simp] theorem State.setCmt_locks (c : Cmt) : (setCmt s c).locks = s.locks := rfl
@[simp] theorem State.setCmt_lout (c : Cmt) : (setCmt s c).lout = s.lout := rfl
@[simp] theorem State.setCmt_lcr (c : Cmt) : (setCmt s c).lcr = s.lcr := rfl
@[simp] theorem State.setCmt_ltx (c : Cmt) : (setCmt s c).ltx = s.ltx := rfl
@[simp] theorem State.setCmt_lret (c : Cmt) : (setCmt s c).lret = s.lret := rfl
@[simp] theorem State.setCmt_ltxn (c : Cmt) : (setCmt s c).ltxn = s.ltxn := rfl
@[simp] theorem State.setCmt_linkOut (c : Cmt) : (setCmt s c).linkOut = s.linkOut := rfl
@[simp] theorem State.setCmt_lsigs (c : Cmt) : (setCmt s c).lsigs = s.lsigs := rfl
@[simp] theorem State.setCmt_lpart (c : Cmt) : (setCmt s c).lpart = s.lpart := rfl
@[simp] theorem State.setCmt_lrx (c : Cmt) : (setCmt s c).lrx = s.lrx := rfl
@[simp] theorem State.setCmt_lneg (c : Cmt) : (setCmt s c).lneg = s.lneg := rfl
@[simp] theorem State.setCmt_gmem (c : Cmt) : (setCmt s c).gmem = s.gmem := rfl
@[simp] theorem State.setCmt_colls (c : Cmt) : (setCmt s c).colls = s.colls := rfl
@[simp] theorem State.setCmt_colRx (c : Cmt) : (setCmt s c).colRx = s.colRx := rfl
@[simp] theorem State.setCmt_colN (c : Cmt) : (setCmt s c).colN = s.colN := rfl
@[simp] theorem State.setCmt_tsync (c : Cmt) : (setCmt s c).tsync = s.tsync := rfl
@[simp] theorem State.setCmt_gal (c : Cmt) : (setCmt s c).gal = s.gal := rfl
@[simp] theorem State.setCmt_ph (c : Cmt) : (setCmt s c).ph = s.ph := rfl
@[simp] theorem State.setCmt_waits (c : Cmt) : (setCmt s c).waits = s.waits := rfl
@[simp] theorem State.setCmt_watches (c : Cmt) : (setCmt s c).watches = s.watches := rfl
@[simp] theorem State.setCmt_sch (c : Cmt) : (setCmt s c).sch = s.sch := rfl
@[simp] theorem State.setCmt_stns (c : Cmt) : (setCmt s c).stns = s.stns := rfl
@[simp] theorem State.setCmt_xlt (c : Cmt) : (setCmt s c).xlt = s.xlt := rfl
@[simp] theorem State.setCmt_flt (c : Cmt) : (setCmt s c).flt = s.flt := rfl
@[simp] theorem State.setCmt_obs (c : Cmt) : (setCmt s c).obs = s.obs := rfl
@[simp] theorem State.setCmt_ech (c : Cmt) : (setCmt s c).ech = s.ech := rfl
@[simp] theorem State.setCmt_pwr (c : Cmt) : (setCmt s c).pwr = s.pwr := rfl
@[simp] theorem State.setCmt_fw (c : Cmt) : (setCmt s c).fw = s.fw := rfl
@[simp] theorem State.setCmt_cmt (c : Cmt) : (setCmt s c).cmt = c := rfl
@[simp] theorem State.setCmt_prt (c : Cmt) : (setCmt s c).prt = s.prt := rfl
@[simp] theorem State.setCmt_tap (c : Cmt) : (setCmt s c).tap = s.tap := rfl
@[simp] theorem State.setCmt_latch (c : Cmt) : (setCmt s c).latch = s.latch := rfl
@[simp] theorem State.setCmt_cbuf (c : Cmt) : (setCmt s c).cbuf = s.cbuf := rfl
@[simp] theorem State.setCmt_stall (c : Cmt) : (setCmt s c).stall = s.stall := rfl
@[simp] theorem State.setCmt_cyc (c : Cmt) : (setCmt s c).cyc = s.cyc := rfl
@[simp] theorem State.setCmt_irq (c : Cmt) : (setCmt s c).irq = s.irq := rfl
@[simp] theorem State.setCmt_rr (c : Cmt) : (setCmt s c).rr = s.rr := rfl
@[simp] theorem State.setCmt_rst (c : Cmt) : (setCmt s c).rst = s.rst := rfl
@[simp] theorem State.setCmt_f (c : Cmt) (y : Fld) (j : Nat) : (setCmt s c).f y j = s.f y j := rfl
@[simp] theorem State.setCmt_fb (c : Cmt) (y : Fld) (j : Nat) : (setCmt s c).fb y j = s.fb y j := rfl
@[simp] theorem State.setCmt_q (c : Cmt) (k : Nat) : (setCmt s c).q k = s.q k := rfl

/-! ### Reading what was written -/

theorem State.f_setF_same (x : Fld) (i v : Nat) : (s.setF x i v).f x i = v % 2 ^ x.w := mget_mset_same _ _ _ _

theorem State.f_setF_ne (x y : Fld) (i j v : Nat) (h : y.key j ≠ x.key i) : (s.setF x i v).f y j = s.f y j := mget_mset_ne _ _ _ _ _ h

theorem State.q_setQ_same (n : Nat) (v : Queue) : (s.setQ n v).q n = v := mget_mset_same _ _ _ _

theorem State.q_setQ_ne (n k : Nat) (v : Queue) (h : k ≠ n) : (s.setQ n v).q k = s.q k := mget_mset_ne _ _ _ _ _ h

/-- Two register fields, or two elements of one, have different keys when every index is an index of an array. -/
theorem Fld.key_ne (x y : Fld) (i j : Nat) (hi : i < 65536) (hj : j < 65536) (h : x.n ≠ y.n ∨ i ≠ j) : x.key i ≠ y.key j := by
  simp only [Fld.key]; omega

/-! ### What a command leaves -/

@[simp] theorem State.close_b (e : State) : (s.close e).b = s.b := rfl
@[simp] theorem State.close_pending (e : State) : (s.close e).pending = s.pending := rfl
@[simp] theorem State.run_b (f : State → State) : (s.run f).b = s.b := rfl
@[simp] theorem State.run_pending (f : State → State) : (s.run f).pending = s.pending := rfl

end Sys2Proof.Machine
end

