-- ==== Sys2Proof/Laws/Note.lean ====
section
/-! SUPPORT. What a record of the letterbook, an interrupt, and the note of a host write leave: a record changes only the observation unit, the mirror engine and OBS_LB_SEQ (spec/17 R455, R456). -/

namespace Sys2Proof.Machine

/-- What the making of a letterbook record leaves of a state. -/
structure Noted (s t : State) : Prop where
  b : t.b = s.b
  pending : t.pending = s.pending
  time : t.time = s.time
  out : t.out = s.out
  nid : t.nid = s.nid
  free : t.free = s.free
  qs : t.qs = s.qs
  cmds : t.cmds = s.cmds
  units : t.units = s.units
  pcls : t.pcls = s.pcls
  eds : t.eds = s.eds
  ops : t.ops = s.ops
  mreqs : t.mreqs = s.mreqs
  lreqs : t.lreqs = s.lreqs
  locks : t.locks = s.locks
  lout : t.lout = s.lout
  lcr : t.lcr = s.lcr
  ltx : t.ltx = s.ltx
  lret : t.lret = s.lret
  ltxn : t.ltxn = s.ltxn
  linkOut : t.linkOut = s.linkOut
  lsigs : t.lsigs = s.lsigs
  lpart : t.lpart = s.lpart
  lrx : t.lrx = s.lrx
  lneg : t.lneg = s.lneg
  gmem : t.gmem = s.gmem
  colls : t.colls = s.colls
  colRx : t.colRx = s.colRx
  colN : t.colN = s.colN
  tsync : t.tsync = s.tsync
  gal : t.gal = s.gal
  ph : t.ph = s.ph
  waits : t.waits = s.waits
  watches : t.watches = s.watches
  sch : t.sch = s.sch
  stns : t.stns = s.stns
  xlt : t.xlt = s.xlt
  flt : t.flt = s.flt
  pwr : t.pwr = s.pwr
  fw : t.fw = s.fw
  cmt : t.cmt = s.cmt
  prt : t.prt = s.prt
  tap : t.tap = s.tap
  latch : t.latch = s.latch
  cbuf : t.cbuf = s.cbuf
  stall : t.stall = s.stall
  cyc : t.cyc = s.cyc
  irq : t.irq = s.irq
  rr : t.rr = s.rr
  rst : t.rst = s.rst
  f : ∀ (y : Fld) (j : Nat), y.key j ≠ F.OBS_LB_SEQ_SEQ.key 0 → t.f y j = s.f y j

theorem Noted.rfl' (s : State) : Noted s s := by constructor <;> intros <;> rfl

theorem Noted.trans {s t u : State} (h : Noted s t) (k : Noted t u) : Noted s u := by
  constructor
  · exact k.b.trans h.b
  · exact k.pending.trans h.pending
  · exact k.time.trans h.time
  · exact k.out.trans h.out
  · exact k.nid.trans h.nid
  · exact k.free.trans h.free
  · exact k.qs.trans h.qs
  · exact k.cmds.trans h.cmds
  · exact k.units.trans h.units
  · exact k.pcls.trans h.pcls
  · exact k.eds.trans h.eds
  · exact k.ops.trans h.ops
  · exact k.mreqs.trans h.mreqs
  · exact k.lreqs.trans h.lreqs
  · exact k.locks.trans h.locks
  · exact k.lout.trans h.lout
  · exact k.lcr.trans h.lcr
  · exact k.ltx.trans h.ltx
  · exact k.lret.trans h.lret
  · exact k.ltxn.trans h.ltxn
  · exact k.linkOut.trans h.linkOut
  · exact k.lsigs.trans h.lsigs
  · exact k.lpart.trans h.lpart
  · exact k.lrx.trans h.lrx
  · exact k.lneg.trans h.lneg
  · exact k.gmem.trans h.gmem
  · exact k.colls.trans h.colls
  · exact k.colRx.trans h.colRx
  · exact k.colN.trans h.colN
  · exact k.tsync.trans h.tsync
  · exact k.gal.trans h.gal
  · exact k.ph.trans h.ph
  · exact k.waits.trans h.waits
  · exact k.watches.trans h.watches
  · exact k.sch.trans h.sch
  · exact k.stns.trans h.stns
  · exact k.xlt.trans h.xlt
  · exact k.flt.trans h.flt
  · exact k.pwr.trans h.pwr
  · exact k.fw.trans h.fw
  · exact k.cmt.trans h.cmt
  · exact k.prt.trans h.prt
  · exact k.tap.trans h.tap
  · exact k.latch.trans h.latch
  · exact k.cbuf.trans h.cbuf
  · exact k.stall.trans h.stall
  · exact k.cyc.trans h.cyc
  · exact k.irq.trans h.irq
  · exact k.rr.trans h.rr
  · exact k.rst.trans h.rst
  · intro y j hy; exact (k.f y j hy).trans (h.f y j hy)

theorem noted_obs (s : State) (o : Obs) : Noted s { s with obs := o } := by constructor <;> intros <;> rfl

theorem noted_seq (s : State) (k : Nat) : Noted s (s.incF F.OBS_LB_SEQ_SEQ 0 k) := by
  constructor
  case f => intro y j hy; exact mget_mset_ne _ _ _ _ _ hy
  all_goals rfl

theorem noted_lbAdd (s : State) (ws : List W64) : Noted s (s.lbAdd ws) :=
  (noted_obs s { s.obs with made := s.obs.made ++ [ws] }).trans (noted_seq _ 1)

theorem noted_mirror (s : State) (r : ERec) : Noted s (s.mirror r) := by
  unfold State.mirror; split
  · constructor <;> intros <;> rfl
  · exact Noted.rfl' s

/-- The end of a record: the header first when one is due. -/
theorem noted_head (s t : State) (h : Noted s t) (ws : List W64) (c : Prop) [Decidable c] (kind : Nat) (part : Option Nat) (q w2 w3 : Nat) :
    Noted s (if c then t else
      let u := if t.obs.hdrDue then State.lbAdd { t with obs := { t.obs with hdrDue := false } } ws else t
      u.lbAdd (u.lbWords kind part q w2 w3)) := by
  split
  · exact h
  · have hu : Noted s (if t.obs.hdrDue then State.lbAdd { t with obs := { t.obs with hdrDue := false } } ws else t) := by
      split
      · exact (h.trans (noted_obs t _)).trans (noted_lbAdd _ ws)
      · exact h
    exact hu.trans (noted_lbAdd _ _)

/-- A letterbook record changes only the observation unit, the mirror engine and OBS_LB_SEQ. -/
theorem noted_note (s : State) (part : Option Nat) (full : Bool) (kind : Nat) (q : Option Nat) (w2 w3 : Nat) :
    Noted s (s.note part full kind q w2 w3) := by
  cases q with
  | none => exact noted_head s s (Noted.rfl' s) _ _ kind part _ w2 w3
  | some n =>
    by_cases hc : full = false ∧ s.mirrored n = true
    · have hm := noted_mirror s (.decision (s.lbWords kind part n w2 w3))
      have := noted_head s _ hm
      simp only [State.note, hc, and_self, if_true]
      exact this _ _ kind part _ w2 w3
    · have := noted_head s s (Noted.rfl' s)
      simp only [State.note, hc, if_false]
      exact this _ _ kind part _ w2 w3

/-- The note of a host write (spec/17 R456). -/
theorem noted_hostWr (s : State) (q : Option Nat) (off v : Nat) : Noted s (hostWr s q off v) := noted_note _ _ _ _ _ _ _

end Sys2Proof.Machine
end

