-- ==== Sys2Proof/Laws/Run.lean ====
section
/-! SUPPORT. What the register path gives a command once the block is awake and the control island runs. -/

namespace Sys2Proof.Machine

@[simp] theorem hostOk_clear (s : State) : hostOk s.clear = hostOk s := rfl

/-- The porter hands a write on and answers it with OKAY (spec/18 R472, R477, R494). -/
theorem hostCmd_ready {s : State} (h : HostReady s) (off : Nat) (f : State → State) : hostCmd s.clear off f = (f s.clear).ok := by
  obtain ⟨h1, h2, h3⟩ := h
  have e1 : ¬ (s.f F.PWR_STATE_STATE = 5) := by omega
  have e2 : ¬ (s.f F.PWR_STATE_STATE = 2) := by omega
  have e3 : ¬ (s.f F.PWR_STATE_STATE = 3) := by omega
  have e4 : ¬ (s.f F.INT_STARTUP_STEP < 2) := by omega
  simp [hostCmd, h1, e1, e2, e3, e4, hAnswer]

/-- The window of an ENABLED partition takes every write (spec/16 R431). -/
theorem windowCmd_enabled {s : State} {p : Nat} (h : HostReady s) (he : Enabled s p) (off : Nat) (takes : Bool) (f : State → State) :
    windowCmd s.clear p off takes f = (f s.clear).ok := by
  simp [windowCmd, hostCmd_ready h, Nat.not_le.mpr he.1, he.2]

end Sys2Proof.Machine
end

