-- ==== Sys2Proof/Laws/Answer.lean ====
section
/-! SUPPORT. What sending the waiting M-port requests leaves unchanged, and the end of an access by its last answer. -/

namespace Sys2Proof.Machine

/-- Sending requests changes none of these. -/
structure SentOnly (s t : State) : Prop where
  ops : t.ops = s.ops
  cmds : t.cmds = s.cmds
  qs : t.qs = s.qs
  cbuf : t.cbuf = s.cbuf
  units : t.units = s.units
  gal : t.gal = s.gal
  ph : t.ph = s.ph
  waits : t.waits = s.waits
  watches : t.watches = s.watches
  stns : t.stns = s.stns
  time : t.time = s.time
  b : t.b = s.b

theorem SentOnly.rfl' (s : State) : SentOnly s s := by constructor <;> rfl

theorem SentOnly.trans {s t u : State} (h : SentOnly s t) (k : SentOnly t u) : SentOnly s u := by
  constructor
  · exact k.ops.trans h.ops
  · exact k.cmds.trans h.cmds
  · exact k.qs.trans h.qs
  · exact k.cbuf.trans h.cbuf
  · exact k.units.trans h.units
  · exact k.gal.trans h.gal
  · exact k.ph.trans h.ph
  · exact k.waits.trans h.waits
  · exact k.watches.trans h.watches
  · exact k.stns.trans h.stns
  · exact k.time.trans h.time
  · exact k.b.trans h.b

theorem Noted.sent {s t : State} (h : Noted s t) : SentOnly s t :=
  ⟨h.ops, h.cmds, h.qs, h.cbuf, h.units, h.gal, h.ph, h.waits, h.watches, h.stns, h.time, h.b⟩

theorem noteFw_sent (s : State) (k : Nat) : SentOnly s (s.noteFw k) := by
  refine SentOnly.trans (t := s.freeW.2) (by constructor <;> rfl) ?_
  exact (noted_note s.freeW.2 none false 0xB none (k * 2 ^ 56) s.freeW.1.toNat).sent

theorem countAcc_sent (s : State) (pa : Nat) : SentOnly s (countAcc s pa) := by
  have hx (u : State) (x : Xlt) : SentOnly u { u with xlt := x } := by constructor <;> rfl
  simp only [countAcc]
  split
  · exact .rfl' s
  · split
    · split
      · split
        · refine SentOnly.trans (SentOnly.trans ?_ (hx _ _)) (noteFw_sent _ _)
          refine SentOnly.trans ?_ (noted_note _ _ _ _ _ _ _).sent
          constructor <;> rfl
        · refine SentOnly.trans (SentOnly.trans ?_ (hx _ _)) (noteFw_sent _ _)
          exact hx s _
      · constructor <;> rfl
    · exact hx s _

theorem sendM_sent (d l : List MReq) (s : State) : SentOnly s (sendM d l s) := by
  induction l generalizing d s with
  | nil => constructor <;> rfl
  | cons r l ih =>
    unfold sendM
    split
    · refine SentOnly.trans ?_ (ih _ _)
      refine SentOnly.trans (t := countAcc (lockWord s r.op r.pa) r.pa) (SentOnly.trans ?_ (countAcc_sent _ _)) (by constructor <;> rfl)
      unfold lockWord; split <;> constructor <;> rfl
    · exact ih _ _

/-- An answer that leaves takes its request away and sends those behind it, nothing else. -/
theorem mDrop_sent (s : State) (tag : Nat) : SentOnly s (mDrop s tag) :=
  SentOnly.trans (t := { s with mreqs := s.mreqs.filter fun x => x.tag != tag }) (by constructor <;> rfl) (sendM_sent _ _ _)

@[simp] theorem Op.given_id (o : Op) (tag : Nat) (x : List Byte) : (o.given tag x).id = o.id := rfl
@[simp] theorem Op.given_pur (o : Op) (tag : Nat) (x : List Byte) : (o.given tag x).pur = o.pur := rfl

/-- An access whose last part has been answered is complete and has not failed. -/
theorem given_ends {s : State} {tag : Nat} {wr : Bool} {r : MReq} {o : Op} (h : LastAnswer s tag wr r o) (x : List Byte) :
    (o.given tag x).complete = true ∧ isPageFault (o.given tag x) = false ∧ (o.given tag x).status = .done := by
  obtain ⟨-, -, hw, hf, hl, -, hp, -⟩ := h
  have hall : ∀ p ∈ (o.given tag x).parts, p.done = some .done := by
    intro p hp'
    simp only [Op.given, List.mem_map] at hp'
    obtain ⟨y, hy, rfl⟩ := hp'
    split
    · rfl
    · exact hp y hy (by assumption)
  have hbad : (o.given tag x).badPart = none := by
    simp only [Op.badPart, List.find?_eq_none]
    intro p hp'
    simp [hall p hp']
  have hfail : (o.given tag x).fail = none := hf
  refine ⟨?_, ?_, ?_⟩
  · have hw' : (o.given tag x).walk = none := hw
    have hc : (o.given tag x).cur = o.cur := rfl
    have hn : (o.given tag x).len = o.len := rfl
    simp only [Op.complete, hw', hc, hn, hl, decide_true, Option.isNone_none, Bool.or_true, Bool.true_and, List.all_eq_true]
    intro p hp'
    simp [hall p hp']
  · simp [isPageFault, Op.xfail, hbad, hfail]
  · simp [Op.status, hbad, hfail]

theorem mreqOf_tag {s : State} {tag : Nat} {wr : Bool} {r : MReq} (h : mreqOf s tag wr = some r) : r.tag = tag := by
  have := List.find?_some h
  simp at this; exact this.1.1.1

/-- The last answer of an access gives its bytes to it and ends it. -/
theorem answer_ends {s : State} {tag : Nat} {wr : Bool} {r : MReq} {o : Op} (h : LastAnswer s tag wr r o) (x : List Byte) :
    answered (mDrop (mGive s.clear r .okay x) tag) r.op = finishOp (s.clear.over tag (o.given tag x)) (o.given tag x) := by
  have ht := mreqOf_tag h.1
  obtain ⟨hc, hpf, -⟩ := given_ends h x
  obtain ⟨hm, ho, hw, hf, hl, hany, hp, hx⟩ := h
  have hid : o.id = r.op := by have := List.find?_some ho; simpa using this
  have hset : mGive s.clear r .okay x = s.clear.setOp (o.given tag x) := by
    have ho' : s.clear.op? r.op = some o := ho
    simp only [mGive, ho', hw, Option.any_none, partDone, ht]
    obtain ⟨p, hp1, hp2⟩ := List.any_eq_true.mp hany
    have : ∃ p, o.parts.find? (·.tag == tag) = some p := by
      rw [← Option.isSome_iff_exists, List.find?_isSome]
      exact ⟨p, hp1, hp2⟩
    obtain ⟨p, hfind⟩ := this
    simp [hfind, Op.given, hw]
  rw [hset]
  have hs := mDrop_sent (s.clear.setOp (o.given tag x)) tag
  have hop : (mDrop (s.clear.setOp (o.given tag x)) tag).op? r.op = some (o.given tag x) := by
    have hfound : s.ops.find? (·.id == r.op) = some o := ho
    have hcomp : ((fun y : Op => y.id == r.op) ∘ fun y => if y.id = o.id then o.given tag x else y) = fun y => y.id == r.op := by
      funext y
      by_cases hy : y.id = o.id <;> simp [hy]
    rw [State.op?, hs.ops]
    change (s.ops.map fun y => if y.id = o.id then o.given tag x else y).find? (·.id == r.op) = _
    rw [List.find?_map, hcomp, hfound]
    simp
  have hwait : waitsToCross (mDrop (s.clear.setOp (o.given tag x)) tag) (o.given tag x) = false := by
    have hcmd : ∀ id, (mDrop (s.clear.setOp (o.given tag x)) tag).cmd? id = s.cmd? id := by intro id; simp only [State.cmd?, hs.cmds]; rfl
    have hb : ∀ q, cbufFull (mDrop (s.clear.setOp (o.given tag x)) tag) q = cbufFull s q := by
      intro q; simp only [cbufFull, State.q, hs.qs, hs.cbuf]; rfl
    rw [← hx]
    simp only [waitsToCross, Op.given_pur]
    congr 1
    cases purposeCmd o.pur with
    | none => rfl
    | some i => simp [hcmd, hb]
  simp only [answered, hop, hc, hpf, hwait, Bool.not_false, Bool.and_self, if_true, endOp, State.over]

/-- M_PORT_READ_DATA of a last answer. -/
theorem mReadData_ends {s : State} {tag : Nat} {r : MReq} {o : Op} (h : LastAnswer s tag false r o) (d : List Byte) :
    mReadData s.clear tag .okay d = finishOp (s.clear.over tag (o.given tag (r.bytes d))) (o.given tag (r.bytes d)) := by
  have hm : mreqOf s.clear tag false = some r := h.1
  simp only [mReadData, hm, if_true]
  exact answer_ends h _

/-- M_PORT_WRITE_RESPONSE of a last answer. -/
theorem mWriteResp_ends {s : State} {tag : Nat} {r : MReq} {o : Op} (h : LastAnswer s tag true r o) :
    mWriteResp s.clear tag .okay = watchesHit (finishOp (s.clear.over tag (o.given tag [])) (o.given tag [])) r.pa r.len := by
  have hm : mreqOf s.clear tag true = some r := h.1
  simp only [mWriteResp, hm, if_true]
  rw [answer_ends h]

/-- An answer that is restricted to a purpose, of an access of that purpose. -/
theorem mReadFor_ends {s : State} {tag : Nat} {r : MReq} {o : Op} {sel : Purpose → Bool} (h : LastAnswer s tag false r o) (hs : sel o.pur = true) (d : List Byte) :
    mReadFor s.clear sel tag .okay d = finishOp (s.clear.over tag (o.given tag (r.bytes d))) (o.given tag (r.bytes d)) := by
  have hm : mreqOf s.clear tag false = some r := h.1
  have ho : s.clear.op? r.op = some o := h.2.1
  simp only [mReadFor, hm, mPurpose, ho, hs, if_true]
  exact mReadData_ends h d

theorem mWriteFor_ends {s : State} {tag : Nat} {r : MReq} {o : Op} {sel : Purpose → Bool} (h : LastAnswer s tag true r o) (hs : sel o.pur = true) :
    mWriteFor s.clear sel tag .okay = watchesHit (finishOp (s.clear.over tag (o.given tag [])) (o.given tag [])) r.pa r.len := by
  have hm : mreqOf s.clear tag true = some r := h.1
  have ho : s.clear.op? r.op = some o := h.2.1
  simp only [mWriteFor, hm, mPurpose, ho, hs, if_true]
  exact mWriteResp_ends h

end Sys2Proof.Machine
end

