-- ==== Sys2Proof/Laws/Memory.lean ====
section
/-! SUPPORT. The laws of a memory of bytes: a read after a write, and that every operation keeps the canonical form (spec/07 R180, spec/09 R242, spec/15 R403). -/

namespace Sys2Proof.Machine

/-- A bound below a list may be lowered. -/
theorem cellsFrom_mono {l : List Host.Cell} {x y : Nat} (h : cellsFrom (some y) l = true) (hx : x ≤ y) : cellsFrom (some x) l = true := by
  cases l with
  | nil => rfl
  | cons e r =>
    obtain ⟨a, b⟩ := e
    simp only [cellsFrom, Bool.and_eq_true, decide_eq_true_eq] at h ⊢
    exact ⟨⟨by omega, h.1.2⟩, h.2⟩

theorem cellsFrom_none {l : List Host.Cell} {x : Nat} (h : cellsFrom (some x) l = true) : Memory.wf l := by
  cases l with
  | nil => rfl
  | cons e r =>
    obtain ⟨a, b⟩ := e
    simp only [Memory.wf, cellsFrom, Bool.and_eq_true, decide_eq_true_eq, Bool.true_and] at h ⊢
    exact ⟨h.1.2, h.2⟩

/-- Below a list's first address every byte is unlisted. -/
theorem cellGet_below {l : List Host.Cell} {x k : Nat} (h : cellsFrom (some x) l = true) (hk : k ≤ x) : cellGet l k = 0 := by
  cases l with
  | nil => rfl
  | cons e r =>
    obtain ⟨a, b⟩ := e
    simp only [cellsFrom, Bool.and_eq_true, decide_eq_true_eq] at h
    have h1 : ¬ a = k := by omega
    have h2 : k < a := by omega
    simp [cellGet, h1, h2]

theorem cellSet_from {l : List Host.Cell} {lo : Option Nat} {k : Nat} {v : Byte} (h : cellsFrom lo l = true) (hk : ∀ x, lo = some x → x < k) : cellsFrom lo (cellSet l k v) = true := by
  induction l generalizing lo with
  | nil =>
    simp only [cellSet]
    split
    · rfl
    · cases lo with
      | none => simp_all [cellsFrom]
      | some x => simp_all [cellsFrom]
  | cons e r ih =>
    obtain ⟨a, b⟩ := e
    simp only [cellsFrom, Bool.and_eq_true] at h
    obtain ⟨⟨h1, h2⟩, h3⟩ := h
    have rest : cellsFrom lo r = true := by
      cases lo with
      | none => exact cellsFrom_none h3
      | some x => exact cellsFrom_mono h3 (by simp at h1; omega)
    simp only [cellSet]
    split
    · subst_vars
      split
      · exact rest
      · simp_all [cellsFrom]
    · split
      · split
        · simp_all [cellsFrom]
        · cases lo with
          | none => simp_all [cellsFrom]
          | some x => simp_all [cellsFrom]
      · rename_i n1 n2
        simp only [cellsFrom, Bool.and_eq_true]
        exact ⟨⟨h1, h2⟩, ih h3 (by intro x hx; cases hx; omega)⟩

/-- A write of a byte keeps the canonical form. -/
theorem cellSet_wf {l : List Host.Cell} (k : Nat) (v : Byte) (h : Memory.wf l) : Memory.wf (cellSet l k v) := cellSet_from h (by simp)

/-- A cell in front of a list that lies above it. -/
theorem cellGet_cons (a : Nat) (b : Byte) (r : List Host.Cell) (j : Nat) : cellGet ((a, b) :: r) j = if j = a then b else if j < a then 0 else cellGet r j := by
  simp only [cellGet, eq_comm]

theorem cellGet_cellSet_from {l : List Host.Cell} {lo : Option Nat} (k : Nat) (v : Byte) (j : Nat) (h : cellsFrom lo l = true) :
    cellGet (cellSet l k v) j = if j = k then v else cellGet l j := by
  induction l generalizing lo with
  | nil =>
    unfold cellSet
    split
    · subst_vars; simp [cellGet]
    · simp [cellGet, eq_comm]
  | cons e r ih =>
    obtain ⟨a, b⟩ := e
    simp only [cellsFrom, Bool.and_eq_true] at h
    have h3 := h.2
    unfold cellSet
    by_cases hj : j = k
    · subst hj
      simp only [if_true]
      split
      · subst_vars
        split
        · subst_vars; exact cellGet_below h3 (Nat.le_refl _)
        · rw [cellGet_cons, if_pos rfl]
      · split
        · split
          · subst_vars; rw [cellGet_cons, if_neg (by omega), if_pos ‹_›]
          · rw [cellGet_cons, if_pos rfl]
        · rw [cellGet_cons, if_neg (by omega), if_neg (by omega), ih h3, if_pos rfl]
    · rw [if_neg hj, cellGet_cons a b r j]
      split
      · subst_vars
        rw [if_neg hj]
        split
        · split
          · exact cellGet_below h3 (by omega)
          · rfl
        · rw [cellGet_cons, if_neg hj]
      · split
        · split
          · rw [cellGet_cons]
          · rw [cellGet_cons, if_neg hj, cellGet_cons]
            split
            · rw [if_neg (by omega), if_pos (by omega)]
            · rfl
        · rw [cellGet_cons, ih h3, if_neg hj]

/-- A read after a write: the byte written, and every other byte as before. -/
theorem cellGet_cellSet {l : List Host.Cell} (k : Nat) (v : Byte) (j : Nat) (h : Memory.wf l) :
    cellGet (cellSet l k v) j = if j = k then v else cellGet l j := cellGet_cellSet_from k v j h

/-- Writes of several bytes keep the canonical form. -/
theorem cellSets_wf {l : List Host.Cell} (w : List (Nat × Byte)) (h : Memory.wf l) : Memory.wf (w.foldl (fun c e => cellSet c e.1 e.2) l) := by
  induction w generalizing l with
  | nil => exact h
  | cons e r ih => exact ih (cellSet_wf e.1 e.2 h)

/-- A byte that no write of several names stays as it was. -/
theorem cellGet_cellSets_ne {l : List Host.Cell} (w : List (Nat × Byte)) (j : Nat) (h : Memory.wf l) (hj : ∀ e ∈ w, e.1 ≠ j) :
    cellGet (w.foldl (fun c e => cellSet c e.1 e.2) l) j = cellGet l j := by
  induction w generalizing l with
  | nil => rfl
  | cons e r ih =>
    have h1 : ¬ j = e.1 := fun x => hj e (List.mem_cons_self ..) x.symm
    simp only [List.foldl_cons]
    rw [ih (cellSet_wf e.1 e.2 h) fun x hx => hj x (List.mem_cons_of_mem _ hx), cellGet_cellSet _ _ _ h, if_neg h1]

/-- Dropping cells keeps the canonical form. -/
theorem cellsFrom_filter {l : List Host.Cell} {lo : Option Nat} (p : Host.Cell → Bool) (h : cellsFrom lo l = true) : cellsFrom lo (l.filter p) = true := by
  induction l generalizing lo with
  | nil => rfl
  | cons e r ih =>
    obtain ⟨a, b⟩ := e
    simp only [cellsFrom, Bool.and_eq_true] at h
    obtain ⟨⟨h1, h2⟩, h3⟩ := h
    rw [List.filter_cons]
    split
    · simp only [cellsFrom, Bool.and_eq_true]
      exact ⟨⟨h1, h2⟩, ih h3⟩
    · cases lo with
      | none => exact cellsFrom_none (ih h3)
      | some x => exact cellsFrom_mono (ih h3) (by simp at h1; omega)

theorem filter_wf {l : List Host.Cell} (p : Host.Cell → Bool) (h : Memory.wf l) : Memory.wf (l.filter p) := cellsFrom_filter p h

/-- A byte after dropping the cells of some addresses: 0 there, and as before elsewhere. -/
theorem cellGet_filter {l : List Host.Cell} {lo : Option Nat} (p : Nat → Bool) (j : Nat) (h : cellsFrom lo l = true) :
    cellGet (l.filter fun e => p e.1) j = if p j then cellGet l j else 0 := by
  induction l generalizing lo with
  | nil => simp [cellGet]
  | cons e r ih =>
    obtain ⟨a, b⟩ := e
    simp only [cellsFrom, Bool.and_eq_true] at h
    obtain ⟨⟨h1, h2⟩, h3⟩ := h
    rw [List.filter_cons]
    by_cases hp : p a = true
    · simp only [hp, if_true, cellGet]
      by_cases haj : a = j
      · subst haj; simp [hp]
      · by_cases hja : j < a
        · simp [haj, hja]
        · simp [haj, hja, ih h3]
    · have hp' : p a = false := by simpa using hp
      simp only [hp', Bool.false_eq_true, if_false, cellGet]
      rw [ih h3]
      by_cases haj : a = j
      · subst haj; simp [hp]
      · by_cases hja : j < a
        · simp [haj, hja, cellGet_below h3 (Nat.le_of_lt hja)]
        · simp [haj, hja]

/-! ### The operations of the model that write a memory -/

/-- A store into the gallery keeps the canonical form (spec/07 R182). -/
theorem galStore_wf (s : State) (w : List (Nat × Byte)) (h : Memory.wf s.gal.cells) : Memory.wf (s.galStore w).gal.cells := cellSets_wf w h

/-- A store into the gallery leaves every byte that it does not name. -/
theorem galStore_ne (s : State) (w : List (Nat × Byte)) (a : Nat) (h : Memory.wf s.gal.cells) (ha : ∀ e ∈ w, e.1 ≠ a) :
    cellGet (s.galStore w).gal.cells a = cellGet s.gal.cells a := cellGet_cellSets_ne w a h ha

/-- A line that changes is marked for the twin; no byte changes. -/
theorem markDirty_cells (s : State) (line : Nat) : (markDirty s line).gal.cells = s.gal.cells := by
  unfold markDirty
  split <;> rfl

/-- Zeroing a tile line keeps the canonical form, and zeroes that line alone (spec/07 R185). -/
theorem zeroLine_cells (s : State) (k line : Nat) : (zeroLine s k line).gal.cells = s.gal.cells.filter fun c => c.1 / 512 != line := by
  unfold zeroLine
  exact markDirty_cells _ line

theorem zeroLine_wf (s : State) (k line : Nat) (h : Memory.wf s.gal.cells) : Memory.wf (zeroLine s k line).gal.cells := by
  rw [zeroLine_cells]; exact filter_wf _ h

theorem zeroLine_get (s : State) (k line a : Nat) (h : Memory.wf s.gal.cells) :
    cellGet (zeroLine s k line).gal.cells a = if a / 512 ≠ line then cellGet s.gal.cells a else 0 := by
  rw [zeroLine_cells, cellGet_filter (fun a => a / 512 != line) a h]; simp

/-- Zeroing a chamber keeps the canonical form (spec/07 R205). -/
theorem zeroChamber_wf (s : State) (h c : Nat) (hw : Memory.wf s.gal.cells) : Memory.wf (zeroChamber s h c).gal.cells := filter_wf _ hw

/-- A store into the vault keeps the canonical form (spec/15 R403). -/
theorem vaultStore_wf (s : State) (off : Nat) (v : W64) (h : Memory.wf s.fw.vault) : Memory.wf (vaultStore s off v).fw.vault := by
  unfold vaultStore injDone
  dsimp only
  split <;> exact cellSets_wf _ h

/-- The gallery and the vault list nothing after reset. -/
theorem reset_memory_wf : Memory.wf State.reset.gal.cells ∧ Memory.wf State.reset.fw.vault ∧ State.reset.gal.cells = [] ∧ State.reset.fw.vault = [] := ⟨rfl, rfl, rfl, rfl⟩

end Sys2Proof.Machine
end

