-- ==== Sys2Proof/Laws/Start.lean ====
section
/-! SUPPORT. What a row of a program's commands does with the ready command of its queue (spec/03 R63, R71, R74). -/

namespace Sys2Proof.Machine

/-- Without a ready command, or when it may not start, a row of commands leaves the state as it is. -/
theorem onReady_none {s : State} {q : Nat} {sel : Body → Bool} (h : ready s q = none) : onReady s q sel = s := by simp [onReady, h]

/-- A ready command that is not the row's is left where it is. -/
theorem onReady_other {s : State} {q : Nat} {sel : Body → Bool} {h : Hdr} {b : Body} (hr : ready s q = some (h, b)) (hs : sel b = false ∨ mayStart s q h b = false) :
    onReady s q sel = s := by simp [onReady, hr, hs]

/-- A ready command whose check at start fails is malformed (spec/03 R71). -/
theorem onReady_malformed {s : State} {q : Nat} {sel : Body → Bool} {h : Hdr} {b : Body} (hr : ready s q = some (h, b)) (hs : sel b = true) (hm : mayStart s q h b = true)
    (ho : startOk s q b = false) : onReady s q sel = malformedCmd s q := by simp [onReady, hr, hs, hm, ho]

/-- A command without a done mark begins its effect. -/
theorem beginCmd_run {t : State} {id : Nat} {c : Cmd} (h1 : t.cmd? id = some c) (h2 : markOf t c = none) : beginCmd t id = runCmd t id := by
  simp [beginCmd, h1, h2]

/-- The ready command that starts runs from the state right after its start (spec/03 R63). -/
theorem onReady_starts {s t : State} {q : Nat} {sel : Body → Bool} {b : Body} {c : Cmd} (h : Starts s q b t c) (hs : sel b = true) :
    onReady s.clear q sel = runCmd t c.id := by
  obtain ⟨hd, hr, hm, ho, -, hst, hc, -, -, hk⟩ := h
  simp [onReady, hr, hs, hm, ho, hst, beginCmd_run hc hk]

/-- What the start of a command leaves (spec/03 R63, spec/04 R111). -/
theorem snapBefore_frame (s : State) (q sq : Nat) : (snapBefore s q sq).cmds = s.cmds ∧ (snapBefore s q sq).nid = s.nid ∧ (snapBefore s q sq).gal = s.gal ∧
    (snapBefore s q sq).ph = s.ph ∧ (snapBefore s q sq).units = s.units ∧ (snapBefore s q sq).ops = s.ops ∧ (snapBefore s q sq).pcls = s.pcls ∧ (snapBefore s q sq).waits = s.waits ∧
    (snapBefore s q sq).time = s.time ∧ (snapBefore s q sq).flds = s.flds := by
  unfold snapBefore
  split <;> simp

end Sys2Proof.Machine
end

