-- ==== Sys2Proof/Tests/Slice0.lean ====
section
/-! SUPPORT. Tests of the model, and for each statement states and operands that meet the hypotheses of its clauses. -/

namespace Sys2Proof.Tests

set_option Elab.async false

open Sys2Proof Sys2Proof.Machine

/-- A state with register fields set. -/
def setAll (s : State) (l : List (Fld × Nat × Nat)) : State := l.foldl (fun s e => s.setF e.1 e.2.1 e.2.2) s

/-- A block that runs, its registers at their reset values but for these: started up, its cores and the scheduler running, partition 0 ENABLED with context 5, queue 300 assigned to it at slot 12 and selected. -/
def up : State :=
  setAll { State.reset with sch := { started := true }, flds := [] }
    ([(F.INT_STARTUP_STEP, 0, 6), (F.PRT_STAT_STATE, 0, 1), (F.XLT_CTX_EN, 5, 1), (F.QE_QCFG_ASSIGNED, 300, 1), (F.QE_QCFG_CTX, 300, 5),
      (F.QE_QCFG_DBSLOT, 300, 12), (F.QE_QSEL_QUEUE, 0, 300), (F.PH_PART_BASE_EN, 0, 1), (F.PH_PART_LIMIT_LAST, 0, 99),
      (F.GAL_FRANK_PART_EN, 0, 1), (F.GAL_FRANK_PART_LAST, 0, 99), (F.SCH_EGRP_ACT_PORTS, 0, 3)] ++ (List.range 6).map fun k => (F.FW_CORE_STATE, k, 1))

/-- Queue 300 with a record of its own. -/
def upQ (q : Queue) : State := up.setQ 300 q

/-- A descriptor whose program runs, of 8 words. -/
def desc (st : Nat) : Desc := ⟨7, [0, 0, 8, 0, 11, 12, 13, 0], 0, false, [], [], st, none, false, none, false, false, false, 0, 0, 0, false⟩

/-- Queue 300 with the words of a command ready to start, and G3 = 7. -/
def readyQ (ws : List W64) : State := upQ { st := .active, descs := [desc 1], blk := .ready, win := ws, g := [(3, 7)] }

/-- The command of a body is ready. -/
def readyB (b : Body) : State := readyQ (encodeCmd ⟨false, false, 0, 0, false⟩ b)

/-- The ready command of queue `q` is `b` and it starts, as a computation. -/
def startsB (s : State) (q : Nat) (b : Body) : Bool :=
  match ready s.clear q with
  | some (h, b') =>
    decide (b' = b) && mayStart s.clear q h b && startOk s.clear q b && (s.cmd? s.nid).isNone &&
      (let r := startCmd s.clear q h b
       match r.1.cmd? r.2 with
       | some c => decide (c.id = r.2) && decide (c.q = q) && decide (c.body = b) && (markOf r.1 c).isNone
       | none => false)
  | none => false

/-- The state right after the ready command of a queue starts, and the started command. -/
def startT (s : State) (q : Nat) : State := match ready s.clear q with
  | some (h, b) => (startCmd s.clear q h b).1
  | none => s
def startC (s : State) (q : Nat) : Cmd := ((startT s q).cmd? s.nid).getD
  { id := 0, q, sq := 0, ord := 0, word := 0, ed := none, parcel := 0, rpt := 0, rst := false, r3 := false, body := .ret, start := 0, placed := false, st := .running }

theorem startCmd_snd (s : State) (q : Nat) (h : Hdr) (b : Body) : (startCmd s q h b).2 = s.nid := rfl

/-- The computation decides what the statements mean by a start. -/
theorem starts_of_startsB {s : State} {q : Nat} {b : Body} (h : startsB s q b = true) : Starts s q b (startT s q) (startC s q) := by
  unfold startsB at h
  split at h
  · rename_i hd b' e
    simp only [Bool.and_eq_true, decide_eq_true_eq] at h
    obtain ⟨⟨⟨⟨rfl, h1⟩, h2⟩, h3⟩, h4⟩ := h
    have ht : startT s q = (startCmd s.clear q hd b').1 := by simp only [startT, e]
    split at h4
    · rename_i c e2
      simp only [Bool.and_eq_true, decide_eq_true_eq, Option.isNone_iff_eq_none] at h4 h3
      obtain ⟨⟨⟨r1, r2⟩, r3⟩, r4⟩ := h4
      have e3 : (startCmd s.clear q hd b').2 = s.nid := startCmd_snd _ _ _ _
      have hc : startC s q = c := by simp only [startC, ht, ← e3, e2, Option.getD_some]
      rw [ht, hc]
      refine ⟨hd, e, h1, h2, h3, ?_, ?_, r2, r3, r4⟩
      · rw [r1]
      · rw [r1]; exact e2
    · cases h4
  · cases h

/-- What a function gives of the next state. -/
def got {α : Type} (o : Host.Outcome State Fault Refusal) (f : State → α) : Option α :=
  match o with
  | .next s => some (f s)
  | _ => none

/-- A state at another time. -/
def atTime (t : Nat) (s : State) : State := { s with time := t }

/-- A state in another condition of its resets. -/
def inRst (r : Nat) (s : State) : State := { s with rst := r }

/-! ### Statements about the machine -/

/-- Two commands wait. -/
def waitS : State := { up with pending := [.trstN, .enable 300 0] }
/-- A block at rest, and what a command may do to it. -/
def restS : State := setAll (State.init ⟨32, 64, 24, 6, false⟩ false) [(F.INT_STARTUP_STEP, 0, 6)]
def tapTo (s : State) : State := { s with tap := ([], 3) }

/-- Header fields without a predicate. -/
def hdr0 : Hdr := ⟨false, false, 0, 0, false⟩

theorem test_inv_waiting : ({ up with pending := [.registerWrite 0x10118 1, .trstN] } : State).Inv := by decide +kernel

/-! ### Words of commands, from spec/03 -/

/-- MOVI G5, −1: opcode 0x10, GD at bits 36 to 32 (R75). -/
theorem test_decode_movi : decodeWords false [0x10000005FFFFFFFF#64] = some (⟨false, false, 0, 0, false⟩, .movi 5 0xFFFFFFFF) := by decide +kernel
/-- MOVI with a word: WC = 1 at bits 47 to 45 (R66, R75). -/
theorem test_decode_movil : decodeWords false [0x1000200500000000#64, 0x123456789ABCDEF0#64] = some (⟨false, false, 0, 0, false⟩, .movil 5 0x123456789ABCDEF0#64) := by
  decide +kernel
/-- ADD G1, G2, 1: IMM at bit 44, GD at 43 to 39, GA at 38 to 34, IMM24 at 23 to 0 (R76). -/
theorem test_decode_add : decodeWords false [0x1100108800000001#64] = some (⟨false, false, 0, 0, false⟩, .alu .add 1 2 (.imm 1)) := by decide +kernel
/-- A reserved bit of BARRIER, and an opcode that is not defined. -/
theorem test_decode_refused : decodeWords false [0x2300000000000001#64] = none ∧ decodeWords false [0xFF00000000000000#64] = none := by decide +kernel
/-- A predicate: PC at 55, PN at 54, PSEL at 53 to 51, RPT at 50 to 49 (R66). -/
theorem test_decode_header : decodeWords false [0x23BC000000000000#64] = some (⟨true, false, 7, 2, false⟩, .barrier) := by decide +kernel
/-- Fields out of their ranges are not encodings. -/
theorem test_body_wf_refuses : (Body.movi 32 0).wf = false ∧ (Body.cmp 8 0 0 (.reg 0) 0).wf = false ∧ (Body.copy false false false false false 0 0 0).wf = false
    ∧ (Hdr.mk false true 0 0 false).wf = false := by decide +kernel

/-! ### The hypotheses of each clause are met, part 00 -/

/-- What the clauses of StepRunsTheFrontCommand ask of their states and operands is met. -/
theorem test_witness_step_runs_the_front_command :
    waitS.pending = [Instr.trstN, Instr.enable 300 0] ∧
    up.pending = [] := by
  (repeat' refine And.intro ?_ ?_) <;> decide +kernel

/-- What the clauses of InvIsKeptByEveryStep ask of their states and operands is met. -/
theorem test_witness_inv_is_kept_by_every_step :
    up.Inv := by
  (repeat' refine And.intro ?_ ?_) <;> decide +kernel

/-- What the clauses of DecodingIsExact ask of their states and operands is met. -/
theorem test_witness_decoding_is_exact :
    hdr0.wf = true ∧
    (Body.movil 5 1311768467463790320#64).wf = true ∧
    decodeWords false [1152956710453772288#64, 1311768467463790320#64] = some (hdr0, Body.movil 5 1311768467463790320#64) := by
  (repeat' refine And.intro ?_ ?_) <;> decide +kernel

/-- What the clauses of NothingFollowsAtRest ask of their states and operands is met. -/
theorem test_witness_nothing_follows_at_rest :
    (AtRest restS ∨ restS.rst ≠ 0) ∧
    (AtRest (tapTo restS.clear) ∨ (tapTo restS.clear).rst ≠ 0) := by
  (repeat' refine And.intro ?_ ?_) <;> decide +kernel

/-! ### Well-formed commands: each operand at the end of its range is refused, and zeros are accepted -/

theorem test_wf_refuses_1 : ([
    .doorbellWrite (64) 0, .doorbellWrite 0 (4096), .enable (4096) 0, .enable 0 (2 ^ 24), .disableDrain (4096) 0, .disableDrain 0 (2 ^ 24), .disableAbort (4096) 0, .disableAbort 0 (2 ^ 24),
    .resume (4096) 0, .resume 0 (2 ^ 24), .qeCqHeadWrite (4096) 0 0, .qeCqHeadWrite 0 (2 ^ 24) 0, .qeCqHeadWrite 0 0 (2 ^ 32), .scan 0 .okay (List.replicate 513 0), .descriptorStart (4096),
    .nop (4096), .jump (4096), .branch (4096), .loop (4096), .callp (4096), .ret (4096), .movi (4096), .add (4096), .sub (4096), .and (4096), .or (4096), .xor (4096), .shl (4096),
    .shr (4096), .cmp (4096), .ld (4096), .st (4096), .waitge (4096), .signal (4096), .memsignal (4096), .barrier (4096), .launch (4096), .dispatch (4096), .tilepass (4096), .copy (4096),
    .fill (4096), .dma (4096), .seal (4096), .unseal (4096), .frank (4096), .passage (4096), .pstop (4096), .enqueue (4096), .enqueueSpaceAvailable (4096), .collect (4096), .stamp (4096),
    .snap (4096), .pdef (4096), .ppatch (4096), .pfree (4096), .parcelClaim (64) 0, .parcelClaim 0 (4096), .publication (64) 0, .publication 0 (4096), .editionPin (4096)] : List Sys2Proof.Instr).all (fun c => !c.wf Build.uz4r) = true := by decide +kernel
theorem test_wf_refuses_2 : ([
    .xinval (4096), .phreset (4096), .unitAdmission (16), .completionItem (Build.uz4r.eports) 0 0 0 0, .tileLaunchStart (4096), .tileResolveWrite (4096) 0, .tileResolveWrite 0 (16),
    .collectiveEnd (4096), .migration (4096) 0 0 0, .migration 0 (4) 0 0, .migration 0 0 (64) 0, .migration 0 0 0 (64), .linkSignalArrival (16) 0 0, .waitgeTimeoutExpiry (4096),
    .watchReadReturn 0 .okay (List.replicate 513 0), .fenceDoorbell (64), .waitCycleScan (64) [], .pigeonholeScrubStep (2 ^ 21), .waitreq (Build.uz4r.eports) 0 0,
    .waitcancel (Build.uz4r.eports) 0, .phAllotmentWrite (64) false 0, .phAllotmentWrite 0 false (2 ^ 64), .phLinkWrite (4096) 0, .phLinkWrite 0 (2 ^ 64),
    .engineResetLimitExpiry (Build.uz4r.eports), .hallSlotAccess (Build.uz4r.halls), .gatherEntryDue (128) 0, .changeOfOwner (Build.uz4r.galleryBytes / 65536) 0, .changeOfOwner 0 (2 ^ 64),
    .ownerScrubDone (Build.uz4r.galleryBytes / 65536), .wheelSwap (Build.uz4r.halls), .wheelCancel (Build.uz4r.halls), .turnBoundary (Build.uz4r.halls), .dropWindowOpen (64) 0,
    .dropWindowOpen 0 (2 ^ 64), .dropWindowClose (64) 0, .dropWindowClose 0 (2 ^ 64), .forceClose (256), .disarm (64), .galFrankPartWrite (64) 0, .galFrankPartWrite 0 (2 ^ 64),
    .galPwDataAccess (64) false 0, .galCpwrReqWrite (Build.uz4r.halls) 0, .galCpwrReqWrite 0 (2 ^ 64), .chamberOpeningEnd (Build.uz4r.halls) 0, .chamberOpeningEnd 0 (16),
    .chamberZeroingEnd (Build.uz4r.halls) 0, .chamberZeroingEnd 0 (16), .stationLoaded (Build.uz4r.stations) 0, .stationLoaded 0 (64), .stationEnd (Build.uz4r.stations) 0,
    .stationEnd 0 (64), .streamFailureReport (Build.uz4r.stations), .stnNop (Build.uz4r.stations), .end_ (Build.uz4r.stations), .stnLoop (Build.uz4r.stations), .xmovi (Build.uz4r.stations),
    .xadd (Build.uz4r.stations), .xflg (Build.uz4r.stations), .fstart (Build.uz4r.stations)] : List Sys2Proof.Instr).all (fun c => !c.wf Build.uz4r) = true := by decide +kernel
theorem test_wf_refuses_3 : ([
    .fpop (Build.uz4r.stations), .estart (Build.uz4r.stations), .epush (Build.uz4r.stations), .ewait (Build.uz4r.stations), .tclr (Build.uz4r.stations), .mma (Build.uz4r.stations),
    .emit (Build.uz4r.stations), .vadd (Build.uz4r.stations), .vsub (Build.uz4r.stations), .vmul (Build.uz4r.stations), .vfma (Build.uz4r.stations), .vmin (Build.uz4r.stations),
    .vmax (Build.uz4r.stations), .vcmp (Build.uz4r.stations), .vsel (Build.uz4r.stations), .vand (Build.uz4r.stations), .vor (Build.uz4r.stations), .vxor (Build.uz4r.stations),
    .vshl (Build.uz4r.stations), .vshr (Build.uz4r.stations), .vcvt (Build.uz4r.stations), .vfn (Build.uz4r.stations), .vsum (Build.uz4r.stations), .vbc (Build.uz4r.stations),
    .rclr (Build.uz4r.stations), .radd (Build.uz4r.stations), .tolong (Build.uz4r.stations), .resolve (Build.uz4r.stations), .export_ (Build.uz4r.stations), .import_ (Build.uz4r.stations),
    .translationRequest (Build.uz4r.eports) 0 0 0 0 0, .translationRequest 0 (2 ^ 16) 0 0 0 0, .translationRequest 0 0 (2 ^ 12) 0 0 0, .translationRequest 0 0 0 (1024) 0 0,
    .translationRequest 0 0 0 0 (2 ^ 64) 0, .translationRequest 0 0 0 0 0 (2), .invalidationGo (64) 0, .invalidationGo 0 (2 ^ 64), .drained (Build.uz4r.eports) 0 0, .drained 0 (1024) 0,
    .drained 0 0 (2 ^ 32), .elimitExpiry 0 (Build.uz4r.eports), .retry (64) 0, .retry 0 (2 ^ 64), .fail (64) 0, .fail 0 (2 ^ 64), .setAsideLimitExpiry (4096), .xltCtxWrite (1024) 0 0,
    .xltCtxWrite 0 (4) 0, .xltCtxWrite 0 0 (2 ^ 64), .linkEnable (Build.uz4r.links), .park (Build.uz4r.links), .linkDisable (Build.uz4r.links), .adapterLinkUp (Build.uz4r.links),
    .adapterLinkDown (Build.uz4r.links), .neg (Build.uz4r.links) 0 0, .negotiationTimeout (Build.uz4r.links), .parkReceived (Build.uz4r.links),
    .flitReceive (Build.uz4r.links) (List.replicate 256 0), .flitReceive 0 (List.replicate 255 0)] : List Sys2Proof.Instr).all (fun c => !c.wf Build.uz4r) = true := by decide +kernel
theorem test_wf_refuses_4 : ([
    .mrd (Build.uz4r.links) 0 0, .mwr (Build.uz4r.links) 0 0 [], .mwr 0 0 0 (List.replicate 513 0), .phsig (Build.uz4r.links) 0 0 0, .coll (Build.uz4r.links) 0 0 [],
    .coll 0 0 0 (List.replicate 513 0), .cbrk (Build.uz4r.links) 0 0, .rdata (Build.uz4r.links) 0 0 [], .rdata 0 0 0 (List.replicate 513 0), .wack (Build.uz4r.links) 0 0,
    .tsyncResponse (Build.uz4r.links) 0 0 0, .tsyncResponse 0 (2 ^ 64) 0 0, .tsyncResponse 0 0 (2 ^ 64) 0, .tsyncResponse 0 0 0 (2 ^ 64), .fabGrpWrite (256) 0, .fabGrpWrite 0 (2 ^ 64),
    .steplimExpiry (4096), .echoFlitReceive (List.replicate 255 0), .heartbeat (4) 0 false false, .heartbeat 0 (6) false false, .qstate (4096) 0 false 0 0 0 0 0 0 [] none [],
    .qstate 0 (6) false 0 0 0 0 0 0 [] none [], .qstate 0 0 false (2 ^ 32) 0 0 0 0 0 [] none [], .qstate 0 0 false 0 (2 ^ 32) 0 0 0 0 [] none [],
    .qstate 0 0 false 0 0 (2 ^ 32) 0 0 0 [] none [], .qstate 0 0 false 0 0 0 (256) 0 0 [] none [], .qstate 0 0 false 0 0 0 0 (2 ^ 20) 0 [] none [],
    .qstate 0 0 false 0 0 0 0 0 (2 ^ 16) [] none [], .phval (2 ^ 21) 0, .fkval (4096) 0, .line (2 ^ 29) [] false, .line 0 (List.replicate 513 0) false, .parcel (64) 0 0 0 false 0 0 false,
    .parcel 0 (4096) 0 0 false 0 0 false, .parcel 0 0 0 (2 ^ 32) false 0 0 false, .parcel 0 0 0 0 false (2 ^ 56) 0 false, .parcel 0 0 0 0 false 0 (2 ^ 20) false, .sealreg (64) 0 0 0,
    .sealreg 0 (2 ^ 29) 0 0, .sealreg 0 0 (2 ^ 29 + 1) 0, .sealreg 0 0 0 (2 ^ 64), .hinge (4096) 0 0 0 0 0 0, .hinge 0 (2 ^ 32) 0 0 0 0 0, .hinge 0 0 (2 ^ 20) 0 0 0 0,
    .hinge 0 0 0 (256) 0 0 0, .hinge 0 0 0 0 0 (4097) 0, .hinge 0 0 0 0 0 0 (2 ^ 32), .hostwr (4096) false 0, .hostwr 0 false (2 ^ 32), .retire (4096) 0 0, .retire 0 (2 ^ 32) 0,
    .retire 0 0 (2 ^ 20), .digest (4096) 0 0 0, .digest 0 (2 ^ 32) 0 0, .digest 0 0 (2 ^ 20) 0, .digestWaitExpiry (4096) 0 0, .digestWaitExpiry 0 (2 ^ 32) 0, .digestWaitExpiry 0 0 (2 ^ 20),
    .latchAcknowledge (64) 0, .latchAcknowledge 0 (3)] : List Sys2Proof.Instr).all (fun c => !c.wf Build.uz4r) = true := by decide +kernel
theorem test_wf_refuses_5 : ([
    .autoackExpiry (16), .faultRingHeadWrite (65) 0, .faultRingHeadWrite 0 (2 ^ 32), .faultRingDeadWrite (65), .fltInjArm (2 ^ 64), .wake (16), .lwake (Build.uz4r.links + 1),
    .islandGate (Build.uz4r.islands), .domainAck (Build.uz4r.domains), .domainTimeout (Build.uz4r.domains), .domainRetry (Build.uz4r.domains), .pwrDomFailedWrite (Build.uz4r.domains),
    .sensorSample (64) 0, .sensorSample 0 (2 ^ 16), .externalSample (16) 0, .externalSample 0 (2 ^ 16), .externalSensorTimeout (16), .pceilChange (2 ^ 32) 0, .pceilChange 0 (2 ^ 32),
    .go (2 ^ 64), .coreWatchdogExpiry (6), .coreCrash (6) 0, .coreCrash 0 (16), .coreReloadComplete (6), .postmark (6) 0 0 0 0, .postmark 0 (4) 0 0 0, .postmark 0 0 (2 ^ 16) 0 0,
    .partitionEnable (64), .partitionDisableDrain (64), .partitionDisableAbort (64), .disableStepEnd (64), .drainlimExpiry (64), .mailboxSend (64), .mailboxCheck (64), .reply (64),
    .ack (64), .cmtArm (2 ^ 64), .cmtCommit (2 ^ 64), .laneRepair (Build.uz4r.links) 0, .laneRepair 0 (256), .obsPlcTimeRead (65), .obsPwCtlWrite (64) 0, .obsPwCtlWrite 0 (2 ^ 64),
    .letterbookHeadWrite (2 ^ 32), .replayWaitExpiry (4096), .hPortRequest (2 ^ 25) false 0 0 [], .hPortRequest 0 false (129) 0 [], .hPortRequest 0 false 0 (2 ^ 128) [],
    .hPortRequest 0 false 0 0 (List.replicate 513 0), .mPortReadData 0 .okay (List.replicate 513 0), .galleryRequest (Build.uz4r.eports) 0 0 0 false 0 false false false [],
    .galleryRequest 0 (2 ^ 16) 0 0 false 0 false false false [], .galleryRequest 0 0 0 (2 ^ 56) false 0 false false false [], .galleryRequest 0 0 0 0 false (2 ^ 16) false false false [],
    .galleryRequest 0 0 0 0 false 0 false false false (List.replicate 513 0), .caps (Build.uz4r.eports) 0, .ready (Build.uz4r.eports), .registerWrite (2 ^ 25) 0, .registerWrite 0 (2 ^ 64),
    .echoLinkUp 0 (2 ^ 32) 0 false false] : List Sys2Proof.Instr).all (fun c => !c.wf Build.uz4r) = true := by decide +kernel
theorem test_wf_refuses_6 : ([
    .levelGrant (Build.uz4r.islands), .mPortErrorItem (8) 0, .mPortErrorItem 0 (2 ^ 56), .tapAccess (2 ^ 8) 0 0 false 0, .tapAccess 0 (6) 0 false 0, .tapAccess 0 0 (2 ^ 24) false 0] : List Sys2Proof.Instr).all (fun c => !c.wf Build.uz4r) = true := by decide +kernel

theorem test_wf_zeros_1 : ([
    .doorbellWrite 0 0, .enable 0 0, .disableDrain 0 0, .disableAbort 0 0, .resume 0 0, .qeCqHeadWrite 0 0 0, .batchReadIssue, .scan 0 .okay [], .descriptorStart 0,
    .recordWriteResponse 0 .okay, .nop 0, .jump 0, .branch 0, .loop 0, .callp 0, .ret 0, .movi 0, .add 0, .sub 0, .and 0, .or 0, .xor 0, .shl 0, .shr 0, .cmp 0, .ld 0, .st 0, .waitge 0,
    .signal 0, .memsignal 0, .barrier 0, .launch 0, .dispatch 0, .tilepass 0, .copy 0, .fill 0, .dma 0, .seal 0, .unseal 0, .frank 0, .passage 0, .pstop 0, .enqueue 0,
    .enqueueSpaceAvailable 0, .enqueueImageWriteResponse 0 .okay, .collect 0, .stamp 0, .snap 0, .pdef 0, .ppatch 0, .pfree 0, .parcelClaim 0 0, .publication 0 0, .editionPin 0, .xinval 0,
    .phreset 0, .unitAdmission 0, .completionItem 0 0 0 0 0, .tileLaunchStart 0, .tileResolveWrite 0 0, .collectiveEnd 0, .migration 0 0 0 0, .linkSignalArrival 0 0 0,
    .waitgeTimeoutExpiry 0, .watchFree, .watchReadReturn 0 .okay [], .fenceDoorbell 0, .pollIntervalExpiry 0, .waitCycleScan 0 [], .pigeonholeScrubStep 0, .waitreq 0 0 0, .waitcancel 0 0,
    .phAllotmentWrite 0 false 0, .phLinkWrite 0 0, .windowBoundary, .majorCycleBoundary, .swap, .cancel, .exclusiveRunEnd, .watchdogExpiry 0, .engineResetLimitExpiry 0, .hallSlotAccess 0,
    .frankCounterIncrement, .gatherEntryDue 0 0, .changeOfOwner 0 0, .ownerScrubDone 0, .wheelSwap 0, .wheelCancel 0, .turnBoundary 0, .dropWindowOpen 0 0, .dropWindowClose 0 0,
    .forceClose 0, .disarm 0, .galFrankPartWrite 0 0, .galHostDataAccess false 0, .galPwDataAccess 0 false 0, .galCpwrReqWrite 0 0, .chamberOpeningEnd 0 0, .chamberZeroingEnd 0 0,
    .patrolPassStart] : List Sys2Proof.Instr).all (fun c => c.wf Build.uz4r) = true := by decide +kernel
theorem test_wf_zeros_2 : ([
    .stationLoaded 0 0, .stationEnd 0 0, .streamFailureReport 0, .stnNop 0, .end_ 0, .stnLoop 0, .xmovi 0, .xadd 0, .xflg 0, .fstart 0, .fpop 0, .estart 0, .epush 0, .ewait 0, .tclr 0,
    .mma 0, .emit 0, .vadd 0, .vsub 0, .vmul 0, .vfma 0, .vmin 0, .vmax 0, .vcmp 0, .vsel 0, .vand 0, .vor 0, .vxor 0, .vshl 0, .vshr 0, .vcvt 0, .vfn 0, .vsum 0, .vbc 0, .rclr 0, .radd 0,
    .tolong 0, .resolve 0, .export_ 0, .import_ 0, .translationRequest 0 0 0 0 0 0, .invalidationGo 0 0, .invalidationBegin, .drained 0 0 0, .invalidationComplete 0, .elimitExpiry 0 0,
    .pageFault, .retry 0 0, .fail 0 0, .setAsideLimitExpiry 0, .accessCounterDecay, .xltMigrPop, .xltCtxWrite 0 0 0, .linkEnable 0, .park 0, .linkDisable 0, .adapterLinkUp 0,
    .adapterLinkDown 0, .neg 0 0 0, .negotiationTimeout 0, .parkReceived 0, .flitReceive 0 (List.replicate 256 0), .mrd 0 0 0, .mwr 0 0 0 [], .phsig 0 0 0 0, .coll 0 0 0 [], .cbrk 0 0 0,
    .rdata 0 0 0 [], .wack 0 0 0, .routeHoldExpiry 0, .tsyncExchange, .tsyncResponse 0 0 0 0, .tsyncLoss, .fabGrpWrite 0 0, .steplimExpiry 0, .pairMirror, .pairCompare, .solo,
    .echoFlitReceive (List.replicate 256 0), .echoResendExpiry, .heartbeat 0 0 false false, .heartbeatSend, .qstate 0 0 false 0 0 0 0 0 0 [] none [], .phval 0 0, .fkval 0 0,
    .line 0 [] false, .parcel 0 0 0 0 false 0 0 false, .sealreg 0 0 0 0, .hinge 0 0 0 0 0 0 0, .decision 0 0 0 0, .hostwr 0 false 0, .retire 0 0 0, .digest 0 0 0 0, .heartbeatLoss,
    .digestWaitExpiry 0 0 0, .tiebreakRise, .tiebreakFall, .faultRaised, .faultRingWriteError 0, .latchAcknowledge 0 0] : List Sys2Proof.Instr).all (fun c => c.wf Build.uz4r) = true := by decide +kernel
theorem test_wf_zeros_3 : ([
    .autoackExpiry 0, .faultRingHeadWrite 0 0, .holdBudgetExpiry 0, .faultRingDeadWrite 0, .fatalHalt, .lanternPeriod, .healthEcho, .fltInjArm 0, .powerActive, .powerIdle, .nap, .dormant,
    .wake 0, .wakeTimer, .lwake 0, .pwake, .islandGate 0, .domainAck 0, .domainTimeout 0, .domainRetry 0, .pwrDomFailedWrite 0, .governorInterval, .forecastPublication, .thermalModelStep,
    .sensorSample 0 0, .externalSample 0 0, .externalSensorTimeout 0, .supplyLowRise, .supplyLowFall, .pceilChange 0 0, .fallbackRampStep, .fwVaultDataAccess false 0, .vaultZeroed, .go 0,
    .verificationDone, .coreWatchdogExpiry 0, .coreCrash 0 0, .lockstep, .coreReloadComplete 0, .stage, .updateCancel, .quietPoint, .postmark 0 0 0 0 0, .partitionEnable 0,
    .partitionDisableDrain 0, .partitionDisableAbort 0, .disableStepEnd 0, .drainlimExpiry 0, .mailboxSend 0, .mailboxCheck 0, .reply 0, .ack 0, .cmtArm 0, .cmtCommit 0, .kAck 0 false,
    .laneRepair 0 0, .obsPlcTimeRead 0, .obsPwCtlWrite 0 0, .traceSample, .letterbookRecord, .letterbookHeadWrite 0, .replayGo, .replayStop, .replayWaitExpiry 0, .poresetN, .wresetN,
    .safeResetN, .resetRelease, .trstN, .hPortRequest 0 false 0 0 [], .mPortReadData 0 .okay [], .mPortWriteResponse 0 .okay, .galleryRequest 0 0 0 0 false 0 false false false [],
    .caps 0 0, .ready 0, .registerWrite 0 0, .fabricTimeAdvance, .echoLinkUp 0 0 0 false false, .levelGrant 0, .mPortErrorItem 0 0, .busErrorAddrWaitExpiry 0, .tapAccess 0 0 0 false 0,
    .removalOfPower] : List Sys2Proof.Instr).all (fun c => c.wf Build.uz4r) = true := by decide +kernel

/-! ### Statements about queues -/

/-- A queue whose batch has come: an owned descriptor of a scan count of phase 1. -/
def scanQ (w0 : W64) : State := upQ { st := .active, scanning := true, scanWords := [[w0, 8, 8, 0, 0, 0, 0, 0]] }

/-- Queue 300 with a descriptor to start. -/
def startQ (d : Desc) : State := upQ { st := .active, descs := [d] }

/-- A command of queue 300. -/
def cmdOf (b : Body) : Cmd := { id := 77, q := 300, sq := 7, ord := 0, word := 0, ed := none, parcel := 0, rpt := 0, rst := false, r3 := false, body := b, start := 0, placed := isPlaced b, st := .running }

/-- Command 77 of queue 300, and a parcel of partition 0. -/
def withCmd (c : Cmd) (x : Parcel) : State := { upQ { st := .active, descs := [desc 1], blk := .cmd 77, g := [(3, 7)] } with cmds := [c], pcls := [x] }

/-- The request of such an access. -/
def rq (wr : Bool) : MReq := ⟨9, 1, 0, 0x1000, 64, wr, [], ⟨0, some 5, false⟩, false, 0, 112, true, none⟩

/-- A request that has been sent for an access with a purpose. -/
def sent (s : State) (p : Purpose) (wr : Bool) : State :=
  { s with ops := [{ mkOp p ⟨0, some 5, false⟩ 112 (.spans []) 0 64 wr [] with id := 1, cur := 64, parts := [⟨9, 0, 64, 0x1000, .mem false 0, true, none⟩] }],
           mreqs := [rq wr] }

/-- The same, the completion ring full. -/
def fullQ : State := upQ { st := .active, scanning := true, scanWords := [[0xB140000000000050#64, 8, 8, 0, 0, 0, 0, 0]], resv := 16 }
/-- The same with a SKIP descriptor. -/
def skipQ (rest : List (List W64)) : State := upQ { st := .active, scanning := true, scanWords := [0xB200000000000000#64, 0, 0, 0, 0, 0, 0, 0] :: rest }
/-- The same, its command buffer's translation done, another descriptor behind it. -/
def scanXlS : State := upQ { st := .active, scanning := true, scanXl := true, scanWords := [[0xB140000000000050#64, 8, 8, 0, 0, 0, 0, 0], [0]] }
/-- The batch read of queue 300, the last part of which is out. -/
def batchOp : Op := { mkOp (.batch 300) ⟨0, some 5, false⟩ 112 (.spans []) 0 64 false [] with id := 1, cur := 64, parts := [⟨9, 0, 64, 0x1000, .mem false 0, true, none⟩] }
def batchS : State := sent (upQ { st := .active, scanning := true, batchOut := true }) (.batch 300) false
/-- Queue 300 stopped at an error with a descriptor. -/
def stopQ : State := upQ { st := .stoppedError, sqOk := true, cqOk := true, descs := [desc 2] }
/-- Queue 300 with a descriptor to start while a command of it goes on. -/
def startBusy : State := { upQ { st := .active, descs := [desc 0] } with cmds := [{ id := 77, q := 300, sq := 6, ord := 0, word := 0, ed := none, parcel := 0, rpt := 0, rst := false, r3 := false, body := .barrier, start := 0, placed := false, st := .running }] }
/-- A descriptor with a stale translation, and one with an argument block. -/
def staleD : Desc := { desc 0 with stale := true }
def argD : Desc := { desc 0 with words := [0x0004000000000000#64, 0, 8, 64, 0, 0, 0, 0] }
/-- Queue 300 with a descriptor whose end record is out, and a record's write. -/
def recQ : State := upQ { st := .active, recsOut := 1, descs := [desc 3] }
def recOp (irq isEnd : Bool) : Op := { mkOp (.record 300 irq isEnd 7) ⟨0, some 5, false⟩ 112 (.spans []) 0 64 true [] with id := 1, cur := 64, parts := [⟨9, 0, 64, 0x1000, .mem false 0, true, none⟩] }
/-- Queue 300 in a state. -/
def qIn (st : QState) : State := upQ { st }
/-- Its rings are broken; with a request for their translation in progress. -/
def brokenQ (r : Nat) : State := (upQ { st := .stoppedError, ringReq := r }).setF F.QE_ERR_INDEX_CAUSE 300 9
/-- A doorbell location of partition 0 is latched before the sorter cores are up. -/
def latched : State := { up.setF F.INT_STARTUP_STEP 0 4 with latch := [(0, 4)] }
/-- The effect of a write of QE_QCTL or QE_CQ_HEAD before its answer. -/
def unNext (o : Host.Outcome State Fault Refusal) (s : State) : State := match o with
  | .next t => t
  | _ => s

/-- The same before the answer on the H-port. -/
def preOk (s : State) : State := { s with out := s.out.dropLast }

/-- An ENQUEUE of queue 300 for queue 301 that waits at step 3, the target in a state; the completion of its image's write. -/
def enqC : Cmd := { cmdOf (.enqueue 301 64) with aux := 1 }
def enqS (st : QState) : State := (withCmd enqC (⟨0, 1, 0, none, none, []⟩)).setQ 301 { st, sqOk := true, cqOk := true }
def enqFull : State := (enqS .idle).setQ 301 { st := .idle }
def enqOp : Op := { mkOp (.enqWrite 77 301) ⟨0, some 5, false⟩ 112 (.spans []) 0 64 true [] with id := 1, cur := 64, parts := [⟨9, 0, 64, 0x1000, .mem false 0, true, none⟩] }
def enqW (st : QState) : State := sent (enqS st) (.enqWrite 77 301) true
/-- Parcel 1 of partition 0, and commands that need it. -/
def pcl (claim : Option Nat) (waiting : List Nat) : Parcel := ⟨0, 1, 0, some 1, claim, waiting⟩
def pfreeC : Cmd := cmdOf (.pfree 1)
def pfreeR : Cmd := { cmdOf (.pfree 1) with aux := 4 }
def pdefC : Cmd := { cmdOf (.pdef false 1 8 1) with aux := 4 }
def ppatchC : Cmd := { cmdOf (.ppatch 4 0 1 8 1) with aux := 4 }
def callC : Cmd := { cmdOf (.callp 1) with aux := 1 }
/-- An edition in the making. -/
def edM : Edition := ⟨⟨0, 1, 0, 2⟩, false, 0, 1, 77, false⟩
def makeS (c : Cmd) : State := { withCmd c (pcl (some 77) []) with eds := [edM] }

theorem test_pdef_body : ∃ loc src len, pdefC.body = .pdef loc 1 src len := ⟨false, 8, 1, rfl⟩

/-! ### The hypotheses of each clause are met, part 10 -/

/-- What the clauses of DoorbellsSetPendingBits ask of their states and operands is met. -/
theorem test_witness_doorbells_set_pending_bits :
    HostReady up ∧
    up.flt.halt = 0 ∧
    ringsDelivered up = true ∧
    up.f F.PRT_STAT_STATE ≠ 2 ∧
    queueOfSlot up 0 (48 / 4) = some 300 ∧
    inputsReplayed up 300 = false ∧
    ((up.q 300).st = QState.disabled ∨ (up.q 300).st = QState.draining) ∧
    (960 < 4 / 4 ∨ 4 / 4 < 960 ∧ queueOfSlot up 0 (4 / 4) = none) ∧
    HostReady (qIn QState.idle) ∧
    (qIn QState.idle).flt.halt = 0 ∧
    ringsDelivered (qIn QState.idle) = true ∧
    (qIn QState.idle).f F.PRT_STAT_STATE ≠ 2 ∧
    queueOfSlot (qIn QState.idle) 0 (48 / 4) = some 300 ∧
    inputsReplayed (qIn QState.idle) 300 = false ∧
    ((qIn QState.idle).q 300).st ≠ QState.disabled ∧
    ((qIn QState.idle).q 300).st ≠ QState.draining ∧
    HostReady (up.setF F.INT_STARTUP_STEP 0 4) ∧
    (up.setF F.INT_STARTUP_STEP 0 4).flt.halt = 0 ∧
    ringsDelivered (up.setF F.INT_STARTUP_STEP 0 4) = false ∧
    (up.setF F.INT_STARTUP_STEP 0 4).latch.contains (0, 48 / 4 * 4) = false ∧
    HostReady latched ∧
    latched.flt.halt = 0 ∧
    ringsDelivered latched = false ∧
    latched.latch.contains (0, 4 / 4 * 4) = true ∧
    HostReady (up.setF F.PRT_STAT_STATE 0 2) ∧
    (up.setF F.PRT_STAT_STATE 0 2).flt.halt = 0 ∧
    ringsDelivered (up.setF F.PRT_STAT_STATE 0 2) = true ∧
    (up.setF F.PRT_STAT_STATE 0 2).f F.PRT_STAT_STATE = 2 := by
  (repeat' refine And.intro ?_ ?_) <;> decide +kernel

/-- What the clauses of QueuesAreEnabledDrainedAndResumed ask of their states and operands is met. -/
theorem test_witness_queues_are_enabled_drained_and_resumed :
    WorkReady up ∧
    viewAt up.clear 300 24 65816 = true ∧
    (65816 < 16777216 ∨ Enabled up ((65816 - 16777216) / 65536)) ∧
    inputsReplayed up 300 = false ∧
    (up.q 300).st = QState.disabled ∧
    enableOk up 300 = true ∧
    ((up.q 300).st = QState.disabled ∨ (up.q 300).st = QState.draining) ∧
    (up.q 300).st ≠ QState.stoppedError ∧
    (up.q 300).st ≠ QState.frozen ∧
    WorkReady (qIn QState.idle) ∧
    viewAt (qIn QState.idle).clear 300 24 65816 = true ∧
    (65816 < 16777216 ∨ Enabled (qIn QState.idle) ((65816 - 16777216) / 65536)) ∧
    inputsReplayed (qIn QState.idle) 300 = false ∧
    ((qIn QState.idle).q 300).st ≠ QState.disabled ∧
    (((qIn QState.idle).q 300).st = QState.idle ∨ ((qIn QState.idle).q 300).st = QState.active ∨ ((qIn QState.idle).q 300).st = QState.stoppedError ∧ ringBroken (qIn QState.idle) 300 = false) ∧
    WorkReady (qIn QState.stoppedError) ∧
    viewAt (qIn QState.stoppedError).clear 300 24 65816 = true ∧
    (65816 < 16777216 ∨ Enabled (qIn QState.stoppedError) ((65816 - 16777216) / 65536)) ∧
    inputsReplayed (qIn QState.stoppedError) 300 = false ∧
    ringBroken (qIn QState.stoppedError) 300 = true ∧
    ((qIn QState.stoppedError).q 300).ringReq ≠ 3 ∧
    ((qIn QState.stoppedError).q 300).ringReq ≠ 4 ∧
    WorkReady (brokenQ 3) ∧
    viewAt (brokenQ 3).clear 300 24 65816 = true ∧
    (65816 < 16777216 ∨ Enabled (brokenQ 3) ((65816 - 16777216) / 65536)) ∧
    inputsReplayed (brokenQ 3) 300 = false ∧
    ringBroken (brokenQ 3) 300 = true ∧
    (((brokenQ 3).q 300).ringReq = 3 ∨ ((brokenQ 3).q 300).ringReq = 4) ∧
    WorkReady (qIn QState.frozen) ∧
    viewAt (qIn QState.frozen).clear 300 24 65816 = true ∧
    (65816 < 16777216 ∨ Enabled (qIn QState.frozen) ((65816 - 16777216) / 65536)) ∧
    inputsReplayed (qIn QState.frozen) 300 = false ∧
    ((qIn QState.frozen).q 300).st = QState.frozen ∧
    WorkReady stopQ ∧
    viewAt stopQ.clear 300 24 65816 = true ∧
    (65816 < 16777216 ∨ Enabled stopQ ((65816 - 16777216) / 65536)) ∧
    inputsReplayed stopQ 300 = false ∧
    (stopQ.q 300).st = QState.stoppedError ∧
    ringBroken stopQ 300 = false ∧
    WorkReady (up.setF F.QE_QSIZE_SQLOG2 300 3) ∧
    viewAt (up.setF F.QE_QSIZE_SQLOG2 300 3).clear 300 24 65816 = true ∧
    (65816 < 16777216 ∨ Enabled (up.setF F.QE_QSIZE_SQLOG2 300 3) ((65816 - 16777216) / 65536)) ∧
    inputsReplayed (up.setF F.QE_QSIZE_SQLOG2 300 3) 300 = false ∧
    ((up.setF F.QE_QSIZE_SQLOG2 300 3).q 300).st = QState.disabled ∧
    enableOk (up.setF F.QE_QSIZE_SQLOG2 300 3) 300 = false := by
  (repeat' refine And.intro ?_ ?_) <;> decide +kernel

/-- What the clauses of BatchesAreReadAndScanned ask of their states and operands is met. -/
theorem test_witness_batches_are_read_and_scanned_1 :
    nextBatch up = none ∧
    HostReady up ∧
    up.ctlOn = true ∧
    viewAt up.clear 300 48 65840 = true ∧
    (65840 < 16777216 ∨ Enabled up ((65840 - 16777216) / 65536)) ∧
    inputsReplayed up 300 = false ∧
    up.mirrored 300 = false ∧
    (up.q 300).scanning = false ∧
    nextBatch (upQ { st := QState.active, pend := true, sqOk := true, cqOk := true }) = some 300 ∧
    LastAnswer batchS 9 false (rq false) batchOp ∧
    batchOp.pur = Purpose.batch 300 ∧
    (batchS.q 300).st = QState.active ∧
    ((scanQ 12772208543222726736#64).q 300).st = QState.active ∧
    ((scanQ 12772208543222726736#64).q 300).scanXl = false ∧
    ((scanQ 12772208543222726736#64).q 300).scanning = true ∧
    scanLimit (scanQ 12772208543222726736#64) 300 = some (4, none) ∧
    ((scanQ 12772208543222726736#64).q 300).scanWords = [[12772208543222726736#64, 8, 8, 0, 0, 0, 0, 0]] ∧
    (((scanQ 12772208543222726736#64).q 300).sq - ((scanQ 12772208543222726736#64).q 300).scanFirst).toNat < 4 ∧
    (BitVec.toNat ([12772208543222726736#64, 8, 8, 0, 0, 0, 0, 0].getD 0 0)).testBit 63 = phaseOf ((scanQ 12772208543222726736#64).sqLog 300) ((scanQ 12772208543222726736#64).q 300).sq ∧
    cqFree (scanQ 12772208543222726736#64) 300 = true ∧
    scanCheck (scanQ 12772208543222726736#64) 300 [12772208543222726736#64, 8, 8, 0, 0, 0, 0, 0] = none ∧
    fieldOf ([12772208543222726736#64, 8, 8, 0, 0, 0, 0, 0].getD 0 0) 59 56 = 1 ∧
    ((scanQ 3548836506367950928#64).q 300).st = QState.active ∧
    ((scanQ 3548836506367950928#64).q 300).scanXl = false ∧
    ((scanQ 3548836506367950928#64).q 300).scanning = true ∧
    scanLimit (scanQ 3548836506367950928#64) 300 = some (4, none) ∧
    ((scanQ 3548836506367950928#64).q 300).scanWords = [[3548836506367950928#64, 8, 8, 0, 0, 0, 0, 0]] ∧
    (((scanQ 3548836506367950928#64).q 300).sq - ((scanQ 3548836506367950928#64).q 300).scanFirst).toNat < 4 ∧
    (BitVec.toNat ([3548836506367950928#64, 8, 8, 0, 0, 0, 0, 0].getD 0 0)).testBit 63 ≠ phaseOf ((scanQ 3548836506367950928#64).sqLog 300) ((scanQ 3548836506367950928#64).q 300).sq ∧
    ((scanQ 12772209642734354513#64).q 300).st = QState.active ∧
    ((scanQ 12772209642734354513#64).q 300).scanXl = false ∧
    ((scanQ 12772209642734354513#64).q 300).scanning = true ∧
    scanLimit (scanQ 12772209642734354513#64) 300 = some (4, none) ∧
    ((scanQ 12772209642734354513#64).q 300).scanWords = [[12772209642734354513#64, 8, 8, 0, 0, 0, 0, 0]] ∧
    (((scanQ 12772209642734354513#64).q 300).sq - ((scanQ 12772209642734354513#64).q 300).scanFirst).toNat < 4 ∧
    (BitVec.toNat ([12772209642734354513#64, 8, 8, 0, 0, 0, 0, 0].getD 0 0)).testBit 63 = phaseOf ((scanQ 12772209642734354513#64).sqLog 300) ((scanQ 12772209642734354513#64).q 300).sq ∧
    cqFree (scanQ 12772209642734354513#64) 300 = true ∧
    scanCheck (scanQ 12772209642734354513#64) 300 [12772209642734354513#64, 8, 8, 0, 0, 0, 0, 0] = some 3 ∧
    ((skipQ []).q 300).st = QState.active ∧
    ((skipQ []).q 300).scanXl = false ∧
    ((skipQ []).q 300).scanning = true ∧
    scanLimit (skipQ []) 300 = some (4, none) ∧
    ((skipQ []).q 300).scanWords = [[12826251738751172608#64, 0, 0, 0, 0, 0, 0, 0]] ∧
    (((skipQ []).q 300).sq - ((skipQ []).q 300).scanFirst).toNat < 4 ∧
    (BitVec.toNat ([12826251738751172608#64, 0, 0, 0, 0, 0, 0, 0].getD 0 0)).testBit 63 = phaseOf ((skipQ []).sqLog 300) ((skipQ []).q 300).sq := by
  (repeat' refine And.intro ?_ ?_) <;> decide +kernel

/-- What the clauses of BatchesAreReadAndScanned ask of their states and operands is met. -/
theorem test_witness_batches_are_read_and_scanned_2 :
    cqFree (skipQ []) 300 = true ∧
    scanCheck (skipQ []) 300 [12826251738751172608#64, 0, 0, 0, 0, 0, 0, 0] = none ∧
    fieldOf ([12826251738751172608#64, 0, 0, 0, 0, 0, 0, 0].getD 0 0) 59 56 = 2 ∧
    (fullQ.q 300).st = QState.active ∧
    (fullQ.q 300).scanXl = false ∧
    (fullQ.q 300).scanning = true ∧
    scanLimit fullQ 300 = some (4, none) ∧
    (fullQ.q 300).scanWords = [[12772208543222726736#64, 8, 8, 0, 0, 0, 0, 0]] ∧
    ((fullQ.q 300).sq - (fullQ.q 300).scanFirst).toNat < 4 ∧
    (BitVec.toNat ([12772208543222726736#64, 8, 8, 0, 0, 0, 0, 0].getD 0 0)).testBit 63 = phaseOf (fullQ.sqLog 300) (fullQ.q 300).sq ∧
    cqFree fullQ 300 = false ∧
    (scanXlS.q 300).scanXl = true ∧
    (scanXlS.q 300).scanWords = [[12772208543222726736#64, 8, 8, 0, 0, 0, 0, 0], [0]] ∧
    batchOp.xfail = none ∧
    (BitVec.toNat ([12772208543222726736#64, 8, 8, 0, 0, 0, 0, 0].getD 0 0)).testBit 50 = false := by
  (repeat' refine And.intro ?_ ?_) <;> decide +kernel

/-- What the clauses of DescriptorsStartAndRecordsAreWritten ask of their states and operands is met. -/
theorem test_witness_descriptors_start_and_records_are_written :
    startable up 300 = none ∧
    startable (startQ (desc 0)) 300 = some (desc 0) ∧
    descFresh (startQ (desc 0)) 300 (desc 0) = true ∧
    descArgv (desc 0) = false ∧
    ((startQ (desc 0)).q 300).resumeAt = none ∧
    startable (startQ staleD) 300 = some staleD ∧
    descFresh (startQ staleD) 300 staleD = false ∧
    startable (startQ argD) 300 = some argD ∧
    descFresh (startQ argD) 300 argD = true ∧
    descArgv argD = true ∧
    startable startBusy 300 = some (desc 0) ∧
    ((startBusy.cmds.any fun x => x.q == 300) = true) ∧
    LastAnswer (sent recQ (Purpose.record 300 true true 7) true) 9 true (rq true) (recOp true true) ∧
    (recOp true true).pur = Purpose.record 300 true true 7 ∧
    true = true ∧
    (sent recQ (Purpose.record 300 true true 7) true).flt.halt < 6 := by
  (repeat' refine And.intro ?_ ?_) <;> decide +kernel

/-- What the clauses of EnqueuesAndParcelsWaitTheirTurn ask of their states and operands is met. -/
theorem test_witness_enqueues_and_parcels_wait_their_turn_1 :
    List.find? (enqWaits 300) up.cmds = none ∧
    ((getParcel up 0 1).claim ≠ none ∨ (getParcel up 0 1).waiting = []) ∧
    List.find? (asksPin 300) up.cmds = none ∧
    List.find? (enqWaits 300) (enqS QState.disabled).cmds = some enqC ∧
    (enqS QState.disabled).cmd? enqC.id = some enqC ∧
    enqC.body = Body.enqueue 301 64 ∧
    (enqS QState.disabled).f F.PRT_STAT_STATE ((enqS QState.disabled).qPart 301) ≠ 2 ∧
    (((enqS QState.disabled).q 301).st = QState.disabled ∨ ((enqS QState.disabled).q 301).st = QState.draining) ∧
    List.find? (enqWaits 300) (enqS QState.idle).cmds = some enqC ∧
    (enqS QState.idle).cmd? enqC.id = some enqC ∧
    (enqS QState.idle).f F.PRT_STAT_STATE ((enqS QState.idle).qPart 301) ≠ 2 ∧
    ((enqS QState.idle).q 301).st ≠ QState.disabled ∧
    ((enqS QState.idle).q 301).st ≠ QState.draining ∧
    enqRoom (enqS QState.idle) 301 = true ∧
    (enqS QState.idle).verdict ((enqS QState.idle).qPart enqC.q) (some enqC.q) (LbKey.target 301) = Verdict.free ∧
    enqFirst (enqS QState.idle) enqC 301 = true ∧
    List.find? (enqWaits 300) enqFull.cmds = some enqC ∧
    enqFull.cmd? enqC.id = some enqC ∧
    enqFull.f F.PRT_STAT_STATE (enqFull.qPart 301) ≠ 2 ∧
    (enqFull.q 301).st ≠ QState.disabled ∧
    (enqFull.q 301).st ≠ QState.draining ∧
    enqRoom enqFull 301 = false ∧
    LastAnswer (enqW QState.active) 9 true (rq true) enqOp ∧
    enqOp.pur = Purpose.enqWrite 77 301 ∧
    ((enqW QState.active).q 301).st ≠ QState.draining ∧
    (getParcel (withCmd pfreeC (pcl none [77])) 0 1).claim = none ∧
    (getParcel (withCmd pfreeC (pcl none [77])) 0 1).waiting = [77] ∧
    (getParcel (withCmd pfreeC (pcl (some 77) [])) 0 1).claim = some 77 ∧
    (withCmd pfreeC (pcl (some 77) [])).cmd? 77 = some pfreeC ∧
    pfreeC.id = 77 ∧
    (withCmd pfreeC (pcl (some 77) [])).mirPart 0 = false ∧
    pfreeC.aux ≠ 4 ∧
    (getParcel (withCmd pfreeR (pcl (some 77) [])) 0 1).claim = some 77 ∧
    (withCmd pfreeR (pcl (some 77) [])).cmd? 77 = some pfreeR ∧
    pfreeR.id = 77 ∧
    (withCmd pfreeR (pcl (some 77) [])).mirPart 0 = false ∧
    pfreeR.aux = 4 ∧
    pfreeR.body = Body.pfree 1 ∧
    (getParcel (makeS pdefC) 0 1).claim = some 77 ∧
    (makeS pdefC).cmd? 77 = some pdefC ∧
    pdefC.id = 77 ∧
    (makeS pdefC).mirPart 0 = false ∧
    pdefC.aux = 4 ∧
    makingOf (makeS pdefC) 77 = some edM := by
  (repeat' refine And.intro ?_ ?_) <;> decide +kernel

/-- What the clauses of EnqueuesAndParcelsWaitTheirTurn ask of their states and operands is met. -/
theorem test_witness_enqueues_and_parcels_wait_their_turn_2 :
    (getParcel (makeS ppatchC) 0 1).claim = some 77 ∧
    (makeS ppatchC).cmd? 77 = some ppatchC ∧
    ppatchC.id = 77 ∧
    (makeS ppatchC).mirPart 0 = false ∧
    ppatchC.aux = 4 ∧
    ppatchC.body = Body.ppatch 4 0 1 8 1 ∧
    makingOf (makeS ppatchC) 77 = some edM ∧
    List.find? (asksPin 300) (withCmd callC (pcl none [])).cmds = some callC ∧
    callC.body = Body.callp 1 ∧
    (Option.map (fun x => x.count) (curDesc (withCmd callC (pcl none [])) 300) = some callC.sq) ∧
    (withCmd callC (pcl none [])).verdict ((withCmd callC (pcl none [])).qPart 300) (some 300) (LbKey.queue 300) = Verdict.free ∧
    (getParcel (withCmd callC (pcl none [])) ((withCmd callC (pcl none [])).qPart 300) 1).newest = some 1 := by
  (repeat' refine And.intro ?_ ?_) <;> decide +kernel

/-! ### Statements that formalise a rule word for word -/

/-- A command of queue 300 that a BARRIER stands behind, and the state with both, the BARRIER ready or waiting. -/
def oldC : Cmd := { cmdOf (.st false 3 0 3 0) with id := 76 }
def barC : Cmd := { cmdOf .barrier with ord := 1 }
def barReady : State := { (readyB .barrier).setQ 300 { (readyB .barrier).q 300 with ord := 1 } with cmds := [oldC], nid := 78 }
def barS : State := { upQ { st := .active, descs := [desc 1], blk := .cmd 77 } with cmds := [oldC, barC] }

/-! ### The hypotheses of each clause are met, part 11 -/

/-- What the clauses of MoviWritesItsImmediate ask of their states and operands is met. -/
theorem test_witness_movi_writes_its_immediate :
    startsB (readyB (Body.movi 31 2147483648)) 300 (Body.movi 31 2147483648) = true ∧
    startsB (readyB (Body.movil 0 5)) 300 (Body.movil 0 5) = true := by
  (repeat' refine And.intro ?_ ?_) <;> decide +kernel

/-- What the clauses of BarrierWaitsForEarlierCommands ask of their states and operands is met. -/
theorem test_witness_barrier_waits_for_earlier_commands :
    startsB (readyB Body.barrier) 300 Body.barrier = true ∧
    (∀ (x : Cmd), x ∈ (readyB Body.barrier).cmds → x.q = 300 → x.sq = (startC (readyB Body.barrier) 300).sq → (startC (readyB Body.barrier) 300).ord ≤ x.ord) ∧
    startsB barReady 300 Body.barrier = true ∧
    (∃ x, x ∈ barReady.cmds ∧ x.q = 300 ∧ x.sq = (startC barReady 300).sq ∧ x.ord < (startC barReady 300).ord) ∧
    barS.cmd? oldC.id = some oldC ∧
    (List.find? (fun x => x.q == oldC.q && x.body == Body.barrier && barrierDone (completeOne barS oldC Status.done) x) (completeOne barS oldC Status.done).cmds = some barC) := by
  (repeat' refine And.intro ?_ ?_) <;> decide +kernel

/-- What the clauses of TimetableAfterReset ask of their states and operands is met. -/
theorem test_witness_timetable_after_reset :
    Build.uz4r.Permitted ∧
    State.reset.sch.active = [(0, 65535)] := by
  (repeat' refine And.intro ?_ ?_) <;> decide +kernel

/-! ### Statements about the commands of a program -/

/-- One body for each row that needs no parcel. -/
def bodies : List Body :=
  [.nop 0, .jump 0, .jump 7, .branch 0 0 0 1, .branch 1 0 0 0, .loop 0 0, .loop 3 0, .ret, .barrier, .movi 31 0x80000000, .movil 0 5, .alu .add 1 3 (.imm 0xFFFFFF),
    .alu .sub 1 3 (.reg 3), .alu .and 1 3 (.reg 0), .alu .or 1 3 (.imm 0), .alu .xor 1 3 (.reg 3), .alu .shl 1 3 (.imm 63), .alu (.shr false) 1 3 (.imm 64), .alu (.shr true) 0 3 (.imm 1),
    .cmp 2 7 3 (.imm 8) 2, .frank true 4 99, .frank false 0 0, .stamp 2, .ld false 4 3 0 1, .ld true 4 0 3 8, .st false 3 0 3 0, .stampm 8, .snap 0 64, .snap 0x10 64,
    .memsignal false (.reg 3) 8, .memsignal true (.word 9) 0, .tilepass false 0 0 64 1 1 0 [0, 0, 0, 0] 0, .waitge 0 false none 0 99 (.reg 3), .waitge 1 true (some 7) 1 8 (.word 0),
    .waitge 2 false none 0 99 (.word 1), .signal .add (.reg 3) 99, .pstop 0, .pdef false 1 8 1, .launch false true 0 0 0 [1, 2, 3, 4] none,
    .launch true false 0 0 9 [1, 2, 3, 4] (some ⟨1, 3, 0, 0, 0⟩), .dispatch false 0 0 1 1 1 1 [0, 0, 0, 0] none, .copy false false false false false 1 0 0, .fill false 32 1 0 [1, 2, 3, 4],
    .dma false false false false 0 0 0 0 1 1, .passage false 0 0 0 64 false 0]

theorem test_starts_add : ∃ t c, Starts (readyB (.alu .add 1 3 (.imm 0xFFFFFF))) 300 (.alu .add 1 3 (.imm 0xFFFFFF)) t c :=
  ⟨_, _, starts_of_startsB (by decide +kernel)⟩

/-- Commands that need a grant: a hypervisor's queue, a parcel, a seal region, an enqueue target, a collective group. -/
def granted (b : Body) : State :=
  setAll { readyB b with pcls := [⟨0, 1, 0, some 1, none, []⟩], gmem := [(64, 0)] }
    [(F.QE_QCFG_HYP, 300, 1), (F.GAL_SEAL_MODE_ALLOT, 3, 1), (F.QE_ENQ_TARGET, 300, 1), (F.FAB_GRP_EN, 1, 1), (F.FAB_GRP_NRANK, 1, 1)]

/-- ADD with a sign-extended immediate of −1 gives 7 − 1 and completes; G0 keeps 0 (spec/03 R62, R76). -/
theorem test_add : got (execAdd 300 (readyB (.alu .add 1 3 (.imm 0xFFFFFF)))) (fun s => (s.greg 300 1, (s.q 300).pc, s.cmds.length)) = some (6, 1, 0) := by decide +kernel
theorem test_g0 : got (execMovi 300 (readyB (.movil 0 5))) (fun s => s.greg 300 0) = some 0 := by decide +kernel
/-- SHL by 63 keeps bit 0 alone (R76). -/
theorem test_shl : got (execShl 300 (readyB (.alu .shl 1 3 (.imm 63)))) (fun s => s.greg 300 1) = some 0x8000000000000000#64 := by decide +kernel
/-- LOOP decrements G3 and jumps to itself (R74). -/
theorem test_loop : got (execLoop 300 (readyB (.loop 3 0))) (fun s => (s.greg 300 3, (s.q 300).pc)) = some (6, 0) := by decide +kernel
/-- A jump out of the program is malformed and stops the queue with cause COMMAND (spec/02 R54, spec/03 R71). -/
theorem test_jump_out : got (execJump 300 (readyB (.jump 9))) (fun s => ((s.q 300).st, s.f F.QE_ERR_INDEX_CAUSE 300)) = some (.stoppedError, 8) := by decide +kernel
/-- A SIGNAL ADD changes its row (R80). -/
theorem test_signal : got (execSignal 300 (readyB (.signal .add (.reg 3) 99))) (fun s => (s.row 99).value) = some 7 := by decide +kernel

/-- The ready command behind one set aside; with a done mark; a RET with a call. -/
def asideReady : State := { readyB (.nop 0) with cmds := [{ cmdOf (.st false 3 0 3 0) with id := 76, st := .aside 0 }], nid := 78 }
def markedReady : State := upQ { (readyB (.nop 0)).q 300 with marks := [(7, 0, 0, 5)] }
def retS : State := upQ { (readyB .ret).q 300 with stack := [⟨none, 3, 0⟩] }
/-- Row 99 in a state, a WAITGE or another command on it ready. -/
def sigRow (b : Body) (r : PhRow) : State := (readyB b).setRow 99 r
def waitRow (r : PhRow) : State := sigRow (.waitge 0 false none 0 99 (.reg 3)) r
/-- A PSTOP while a passage of its queue's program runs. -/
def passC : Cmd := { cmdOf (.passage false 0 0 0 64 false 0) with id := 76, st := .admitted }
def pstopS : State := { readyB (.pstop 0) with cmds := [passC], nid := 78 }
/-- A command that needs parcel 1, claimed by another. -/
def claimedS (b : Body) : State := { readyB b with pcls := [pcl (some 76) []], nid := 78 }
/-- A command ready while an edition stands. -/
def readyEd (b : Body) : State := { readyB b with eds := [{ edM with key := ⟨0, 1, 0, 1⟩ }] }

/-- The access of an LD whose data have come. -/
def ldOp : Op := { mkOp (.ld 77) ⟨0, some 5, false⟩ 112 .va 0x1000 8 false [] with id := 1, cur := 8, data := [1, 2, 3] }

/-! ### The hypotheses of each clause are met, part 12 -/

/-- What the clauses of ReadyCommandsStart ask of their states and operands is met. -/
theorem test_witness_ready_commands_start :
    startsB (readyB (Body.nop 0)) 300 (Body.nop 0) = true ∧
    ready (readyB (Body.nop 0)).clear 300 = some (hdr0, Body.nop 0) ∧
    Body.row 300 Body.ret ≠ Body.row 300 (Body.nop 0) ∧
    ready (readyB (Body.jump 9)).clear 300 = some (hdr0, Body.jump 9) ∧
    mayStart (readyB (Body.jump 9)).clear 300 hdr0 (Body.jump 9) = true ∧
    startOk (readyB (Body.jump 9)).clear 300 (Body.jump 9) = false ∧
    (ready up.clear 300 = none ∨ ready up.clear 300 = some (hdr0, Body.jump 9) ∧ mayStart up.clear 300 hdr0 (Body.jump 9) = false) ∧
    ready markedReady.clear 300 = some (hdr0, Body.nop 0) ∧
    mayStart markedReady.clear 300 hdr0 (Body.nop 0) = true ∧
    startOk markedReady.clear 300 (Body.nop 0) = true ∧
    markedReady.cmd? markedReady.nid = none ∧
    startCmd markedReady.clear 300 hdr0 (Body.nop 0) = (startT markedReady 300, (startC markedReady 300).id) ∧
    (startT markedReady 300).cmd? (startC markedReady 300).id = some (startC markedReady 300) ∧
    markOf (startT markedReady 300) (startC markedReady 300) = some (0, 5) := by
  (repeat' refine And.intro ?_ ?_) <;> decide +kernel

/-- What the clauses of ControlCommandsSetTheProgramCounter ask of their states and operands is met. -/
theorem test_witness_control_commands_set_the_program_counter :
    startsB (readyB (Body.nop 0)) 300 (Body.nop 0) = true ∧
    startsB (readyB (Body.jump 7)) 300 (Body.jump 7) = true ∧
    startsB (readyB (Body.branch 0 0 0 1)) 300 (Body.branch 0 0 0 1) = true ∧
    condOf 0 ((readyB (Body.branch 0 0 0 1)).greg 300 0) ((readyB (Body.branch 0 0 0 1)).greg 300 0) = true ∧
    startsB (readyB (Body.branch 1 0 0 0)) 300 (Body.branch 1 0 0 0) = true ∧
    condOf 1 ((readyB (Body.branch 1 0 0 0)).greg 300 0) ((readyB (Body.branch 1 0 0 0)).greg 300 0) = false ∧
    startsB (readyB (Body.loop 3 0)) 300 (Body.loop 3 0) = true ∧
    startsB (granted (Body.callp 1)) 300 (Body.callp 1) = true ∧
    startsB (readyB Body.ret) 300 Body.ret = true ∧
    ((readyB Body.ret).q 300).stack = [] ∧
    startsB retS 300 Body.ret = true ∧
    (retS.q 300).stack = [{ loc := none, pc := 3, top := 0 }] ∧
    startsB (readyB Body.barrier) 300 Body.barrier = true ∧
    (((readyB Body.barrier).cmds.any fun x => x.q == 300 && x.sq == (startC (readyB Body.barrier) 300).sq && decide (x.ord < (startC (readyB Body.barrier) 300).ord)) = false) ∧
    startsB barReady 300 Body.barrier = true ∧
    ((barReady.cmds.any fun x => x.q == 300 && x.sq == (startC barReady 300).sq && decide (x.ord < (startC barReady 300).ord)) = true) := by
  (repeat' refine And.intro ?_ ?_) <;> decide +kernel

/-- What the clauses of RegisterCommandsWriteTheirResult ask of their states and operands is met. -/
theorem test_witness_register_commands_write_their_result :
    startsB (readyB (Body.movi 31 2147483648)) 300 (Body.movi 31 2147483648) = true ∧
    startsB (readyB (Body.movil 0 5)) 300 (Body.movil 0 5) = true ∧
    startsB (readyB (Body.alu AluOp.add 1 3 (Src.imm 16777215))) 300 (Body.alu AluOp.add 1 3 (Src.imm 16777215)) = true ∧
    startsB (readyB (Body.alu AluOp.sub 1 3 (Src.reg 3))) 300 (Body.alu AluOp.sub 1 3 (Src.reg 3)) = true ∧
    startsB (readyB (Body.alu AluOp.and 1 3 (Src.reg 0))) 300 (Body.alu AluOp.and 1 3 (Src.reg 0)) = true ∧
    startsB (readyB (Body.alu AluOp.or 1 3 (Src.imm 0))) 300 (Body.alu AluOp.or 1 3 (Src.imm 0)) = true ∧
    startsB (readyB (Body.alu AluOp.xor 1 3 (Src.reg 3))) 300 (Body.alu AluOp.xor 1 3 (Src.reg 3)) = true ∧
    startsB (readyB (Body.alu AluOp.shl 1 3 (Src.imm 63))) 300 (Body.alu AluOp.shl 1 3 (Src.imm 63)) = true ∧
    startsB (readyB (Body.alu (AluOp.shr false) 1 3 (Src.imm 64))) 300 (Body.alu (AluOp.shr false) 1 3 (Src.imm 64)) = true ∧
    startsB (readyB (Body.alu (AluOp.shr true) 1 3 (Src.imm 1))) 300 (Body.alu (AluOp.shr true) 1 3 (Src.imm 1)) = true ∧
    startsB (readyB (Body.cmp 2 7 3 (Src.imm 8) 2)) 300 (Body.cmp 2 7 3 (Src.imm 8) 2) = true ∧
    startsB (readyB (Body.frank true 4 99)) 300 (Body.frank true 4 99) = true ∧
    startsB (readyB (Body.frank false 0 0)) 300 (Body.frank false 0 0) = true ∧
    startsB (readyB (Body.stamp 2)) 300 (Body.stamp 2) = true := by
  (repeat' refine And.intro ?_ ?_) <;> decide +kernel

/-- What the clauses of ResultsReachOneRegister ask of their states and operands is met. -/
theorem test_witness_results_reach_one_register :
    startsB (readyB (Body.alu AluOp.add 1 3 (Src.imm 16777215))) 300 (Body.alu AluOp.add 1 3 (Src.imm 16777215)) = true ∧
    startsB (readyB (Body.alu AluOp.shl 0 3 (Src.imm 63))) 300 (Body.alu AluOp.shl 0 3 (Src.imm 63)) = true ∧
    startsB (readyEd (Body.alu AluOp.add 1 3 (Src.imm 1))) 300 (Body.alu AluOp.add 1 3 (Src.imm 1)) = true ∧
    { key := { part := 0, parcel := 1, gen := 0, ed := 1 }, dram := false, addr := 0, len := 1, pins := 77, published := false } ∈ (endCmd (sumReg ((startT (readyEd (Body.alu AluOp.add 1 3 (Src.imm 1))) 300).setG 300 1 8) (startC (readyEd (Body.alu AluOp.add 1 3 (Src.imm 1))) 300).id 1 8) (startC (readyEd (Body.alu AluOp.add 1 3 (Src.imm 1))) 300).id Status.done).eds := by
  (repeat' refine And.intro ?_ ?_) <;> decide +kernel

/-- What the clauses of AccessCommandsMakeTheirAccess ask of their states and operands is met. -/
theorem test_witness_access_commands_make_their_access :
    startsB (readyB (Body.ld false 4 3 0 1)) 300 (Body.ld false 4 3 0 1) = true ∧
    ldOp.status = Status.done ∧
    startsB (readyB (Body.st false 3 0 3 0)) 300 (Body.st false 3 0 3 0) = true ∧
    startsB (readyB (Body.stampm 8)) 300 (Body.stampm 8) = true ∧
    startsB (readyB (Body.snap 0 64)) 300 (Body.snap 0 64) = true ∧
    snapRefused (readyB (Body.snap 0 64)) 300 0 = false ∧
    startsB (readyB (Body.snap 16 64)) 300 (Body.snap 16 64) = true ∧
    snapRefused (readyB (Body.snap 16 64)) 300 16 = true ∧
    startsB (readyB (Body.memsignal false (Val.reg 3) 8)) 300 (Body.memsignal false (Val.reg 3) 8) = true ∧
    startsB (readyB (Body.memsignal true (Val.word 9) 0)) 300 (Body.memsignal true (Val.word 9) 0) = true ∧
    startsB (granted (Body.enqueue 300 64)) 300 (Body.enqueue 300 64) = true ∧
    startsB (readyB (Body.tilepass false 0 0 64 1 1 0 [0, 0, 0, 0] 0)) 300 (Body.tilepass false 0 0 64 1 1 0 [0, 0, 0, 0] 0) = true := by
  (repeat' refine And.intro ?_ ?_) <;> decide +kernel

/-- What the clauses of SynchronisingCommandsReachTheirUnits ask of their states and operands is met. -/
theorem test_witness_synchronising_commands_reach_their_units :
    startsB (readyB (Body.waitge 0 false none 0 99 (Val.reg 3))) 300 (Body.waitge 0 false none 0 99 (Val.reg 3)) = true ∧
    ((phTouch (startT (readyB (Body.waitge 0 false none 0 99 (Val.reg 3))) 300) (99)).row (99)).st = PhState.normal ∧
    (¬valOfQ (readyB (Body.waitge 0 false none 0 99 (Val.reg 3))) 300 (Val.reg 3) ≤ ((phTouch (startT (readyB (Body.waitge 0 false none 0 99 (Val.reg 3))) 300) (99)).row (99)).value) ∧
    startsB (waitRow { value := 7, st := PhState.normal, lastq := none, err := [] }) 300 (Body.waitge 0 false none 0 99 (Val.reg 3)) = true ∧
    ((phTouch (startT (waitRow { value := 7, st := PhState.normal, lastq := none, err := [] }) 300) (99)).row (99)).st = PhState.normal ∧
    valOfQ (waitRow { value := 7, st := PhState.normal, lastq := none, err := [] }) 300 (Val.reg 3) ≤ ((phTouch (startT (waitRow { value := 7, st := PhState.normal, lastq := none, err := [] }) 300) (99)).row (99)).value ∧
    startsB (waitRow { value := 7, st := PhState.poisoned, lastq := none, err := [] }) 300 (Body.waitge 0 false none 0 99 (Val.reg 3)) = true ∧
    ((phTouch (startT (waitRow { value := 7, st := PhState.poisoned, lastq := none, err := [] }) 300) (99)).row (99)).st = PhState.poisoned ∧
    startsB (waitRow { value := 7, st := PhState.scrubbing, lastq := none, err := [] }) 300 (Body.waitge 0 false none 0 99 (Val.reg 3)) = true ∧
    ((phTouch (startT (waitRow { value := 7, st := PhState.scrubbing, lastq := none, err := [] }) 300) (99)).row (99)).st = PhState.scrubbing ∧
    startsB (readyB (Body.waitge 2 false none 0 99 (Val.word 1))) 300 (Body.waitge 2 false none 0 99 (Val.word 1)) = true ∧
    startsB (readyB (Body.waitge 1 true (some 7) 1 8 (Val.word 0))) 300 (Body.waitge 1 true (some 7) 1 8 (Val.word 0)) = true ∧
    startsB (readyB (Body.signal SigForm.add (Val.reg 3) 99)) 300 (Body.signal SigForm.add (Val.reg 3) 99) = true ∧
    ((phTouch (startT (readyB (Body.signal SigForm.add (Val.reg 3) 99)) 300) 99).row 99).st = PhState.normal ∧
    SigForm.add.apply ((readyB (Body.signal SigForm.add (Val.reg 3) 99)).row 99).value (valOfQ (readyB (Body.signal SigForm.add (Val.reg 3) 99)) 300 (Val.reg 3)) = some 7 ∧
    startsB (sigRow (Body.signal SigForm.set (Val.word 1) 99) { value := 7, st := PhState.normal, lastq := none, err := [] }) 300 (Body.signal SigForm.set (Val.word 1) 99) = true ∧
    ((phTouch (startT (sigRow (Body.signal SigForm.set (Val.word 1) 99) { value := 7, st := PhState.normal, lastq := none, err := [] }) 300) 99).row 99).st = PhState.normal ∧
    SigForm.set.apply ((sigRow (Body.signal SigForm.set (Val.word 1) 99) { value := 7, st := PhState.normal, lastq := none, err := [] }).row 99).value (valOfQ (sigRow (Body.signal SigForm.set (Val.word 1) 99) { value := 7, st := PhState.normal, lastq := none, err := [] }) 300 (Val.word 1)) = none ∧
    startsB (sigRow (Body.signal SigForm.add (Val.reg 3) 99) { value := 7, st := PhState.poisoned, lastq := none, err := [] }) 300 (Body.signal SigForm.add (Val.reg 3) 99) = true ∧
    ((phTouch (startT (sigRow (Body.signal SigForm.add (Val.reg 3) 99) { value := 7, st := PhState.poisoned, lastq := none, err := [] }) 300) 99).row 99).st = PhState.poisoned ∧
    startsB (sigRow (Body.signal SigForm.add (Val.reg 3) 99) { value := 7, st := PhState.scrubbing, lastq := none, err := [] }) 300 (Body.signal SigForm.add (Val.reg 3) 99) = true ∧
    ((phTouch (startT (sigRow (Body.signal SigForm.add (Val.reg 3) 99) { value := 7, st := PhState.scrubbing, lastq := none, err := [] }) 300) 99).row 99).st = PhState.scrubbing ∧
    startsB (granted (Body.phreset 99 5)) 300 (Body.phreset 99 5) = true ∧
    startsB (granted (Body.seal true true false 3 0 512)) 300 (Body.seal true true false 3 0 512) = true ∧
    startsB (granted (Body.seal true true true 3 0 512)) 300 (Body.seal true true true 3 0 512) = true ∧
    startsB (granted (Body.unseal 3)) 300 (Body.unseal 3) = true ∧
    startsB (readyB (Body.pstop 0)) 300 (Body.pstop 0) = true ∧
    runningPassage (startT (readyB (Body.pstop 0)) 300) 300 0 = none ∧
    startsB pstopS 300 (Body.pstop 0) = true ∧
    runningPassage (startT pstopS 300) 300 0 = some passC ∧
    startsB (readyB (Body.pdef false 1 8 1)) 300 (Body.pdef false 1 8 1) = true ∧
    startsB (granted (Body.ppatch 4 0 1 8 1)) 300 (Body.ppatch 4 0 1 8 1) = true ∧
    startsB (granted (Body.pfree 1)) 300 (Body.pfree 1) = true ∧
    startsB (granted (Body.xinval 0 0 5 0 0)) 300 (Body.xinval 0 0 5 0 0) = true := by
  (repeat' refine And.intro ?_ ?_) <;> decide +kernel

/-- What the clauses of PlacedCommandsAreHeldForAdmission ask of their states and operands is met. -/
theorem test_witness_placed_commands_are_held_for_admission :
    startsB (readyB (Body.launch false true 0 0 0 [1, 2, 3, 4] none)) 300 (Body.launch false true 0 0 0 [1, 2, 3, 4] none) = true ∧
    isPlaced (Body.launch false true 0 0 0 [1, 2, 3, 4] none) = true ∧
    Body.launch false true 0 0 0 [1, 2, 3, 4] none = Body.launch false true 0 0 0 [1, 2, 3, 4] none ∧
    startsB (readyB (Body.dispatch false 0 0 1 1 1 1 [0, 0, 0, 0] none)) 300 (Body.dispatch false 0 0 1 1 1 1 [0, 0, 0, 0] none) = true ∧
    isPlaced (Body.dispatch false 0 0 1 1 1 1 [0, 0, 0, 0] none) = true ∧
    Body.dispatch false 0 0 1 1 1 1 [0, 0, 0, 0] none = Body.dispatch false 0 0 1 1 1 1 [0, 0, 0, 0] none ∧
    startsB (readyB (Body.copy false false false false false 1 0 0)) 300 (Body.copy false false false false false 1 0 0) = true ∧
    isPlaced (Body.copy false false false false false 1 0 0) = true ∧
    Body.copy false false false false false 1 0 0 = Body.copy false false false false false 1 0 0 ∧
    startsB (readyB (Body.fill false 32 1 0 [1, 2, 3, 4])) 300 (Body.fill false 32 1 0 [1, 2, 3, 4]) = true ∧
    isPlaced (Body.fill false 32 1 0 [1, 2, 3, 4]) = true ∧
    Body.fill false 32 1 0 [1, 2, 3, 4] = Body.fill false 32 1 0 [1, 2, 3, 4] ∧
    startsB (readyB (Body.dma false false false false 0 0 0 0 1 1)) 300 (Body.dma false false false false 0 0 0 0 1 1) = true ∧
    isPlaced (Body.dma false false false false 0 0 0 0 1 1) = true ∧
    Body.dma false false false false 0 0 0 0 1 1 = Body.dma false false false false 0 0 0 0 1 1 ∧
    startsB (readyB (Body.passage false 0 0 0 64 false 0)) 300 (Body.passage false 0 0 0 64 false 0) = true ∧
    isPlaced (Body.passage false 0 0 0 64 false 0) = true ∧
    Body.passage false 0 0 0 64 false 0 = Body.passage false 0 0 0 64 false 0 ∧
    startsB (granted (Body.collect false 0 false 1 0 0 0 1 0 0 false false 0)) 300 (Body.collect false 0 false 1 0 0 0 1 0 0 false false 0) = true ∧
    isPlaced (Body.collect false 0 false 1 0 0 0 1 0 0 false false 0) = true ∧
    Body.collect false 0 false 1 0 0 0 1 0 0 false false 0 = Body.collect false 0 false 1 0 0 0 1 0 0 false false 0 := by
  (repeat' refine And.intro ?_ ?_) <;> decide +kernel

/-! ### Statements about pigeonholes -/

/-- An enabled IN entry 3 of PH_LINK: chip 2, remote pigeonhole 0, local pigeonhole 99. -/
def linkIn : State := setAll up [(F.PH_LINK_EN, 3, 1), (F.PH_LINK_DIR, 3, 1), (F.PH_LINK_CHIP, 3, 2), (F.PH_LINK_LOCAL, 3, 99)]

/-- The signal of the source the entry names is applied with MAX (spec/05 R153). -/
theorem test_link_signal : got (execLinkSignalArrival 2 99 5 linkIn) (fun s => (s.row 99).value) = some 5 ∧ got (execLinkSignalArrival 1 99 5 linkIn) (fun s => (s.row 99).value) = some 0 := by
  decide +kernel

/-- A unit of a command on a placement. -/
def unitOn (p : Place) : Wunit := { id := 9, cmd := 77, q := 300, part := 0, place := p, ix := 0, epoch := 0, share := false, est := 0, win := 0, deadline := some 0, start := 0 }

/-- Engine port 1 runs the unit with tag 9. -/
def engS : State := setAll { withCmd { cmdOf (.launch false true 1 0 0 [1, 2, 3, 4] none) with st := .admitted } ⟨0, 1, 0, none, none, []⟩ with units := [unitOn (.port 1)] }
  [(F.PH_WQUOTA_QUOTA, 0, 4)]

/-- Word 0 of a WAITREQ or WAITCANCEL of unit 9, tag 5, for pigeonhole 99. -/
def req99 : W64 := 0x0205000900000063#64

/-- A waiter of queue 300's command. -/
def waiterQ (t : WTgt) : Waiter := ⟨300, t, .queue 300 77, 0, 5, 0, 5, some 0, 0, none⟩

/-- The disable sequence of partition 0 scrubs row `n`. -/
def scrubS (n : Nat) : State := { up.setF F.PRT_STAT_STEP 0 5 with prt := [(0, { rows := some n })] }

/-- A watch of the word at 0x1000. -/
def watchAt (id : Nat) : Watch := ⟨id, 0, 0x1000, .mem false 0, false, false, 0⟩

/-- A watch, and a poll interval of 1 µs that has passed. -/
def watchS : State := { up.setF F.PH_PW_POLL_INTERVAL 0 1 with watches := [watchAt 3], waits := [waiterQ (.watch 3)], time := 1000 }

/-- No queue of partition 0 is enabled; partition 1 holds pigeonholes 100 to 199. -/
def allotS : State := setAll up [(F.PH_PART_BASE_EN, 1, 1), (F.PH_PART_BASE_BASE, 1, 100), (F.PH_PART_LIMIT_LAST, 1, 199)]

/-- Partition 0 has been stalled since 0. -/
def stallS : State := { setAll up [(F.PH_CYCLE_SCAN_SCAN, 0, 100)] with stall := [(0, 0, 0)], time := 100000 }

/-- The same pigeonhole in a state, and a quota of nothing. -/
def engRow (st : PhState) (v : W64) : State := engS.setRow 99 ⟨v, st, none, []⟩
def engFull : State := engS.setF F.PH_WQUOTA_QUOTA 0 0
/-- An engine's wait and a queue's. -/
def waitsS : State := { engS with waits := [⟨8192, .ph 99, .engine 1 5, 0, 5, 0, 9, none, 0, none⟩, waiterQ (.ph 99)] }
/-- Queue 300 waits on a pigeonhole. -/
def blockC : Cmd := cmdOf (.waitge 0 true (some 7) 1 99 (.word 5))
def blockS (t : Nat) : State := { withCmd blockC ⟨0, 1, 0, none, none, []⟩ with waits := [⟨300, .ph 99, .queue 300 77, 0, 5, 0, 5, some t, 0, none⟩] }
def blockX (t : Nat) : Waiter := ⟨300, .ph 99, .queue 300 77, 0, 5, 0, 5, some t, 0, none⟩
/-- A scrub that has marked its row; a row of the allotment's middle. -/
def scrubS2 (n : Nat) : State := (scrubS n).setRow n ⟨5, .scrubbing, none, []⟩
def scrubD (n : Nat) : PrtDis := { rows := some n }
/-- A read of watch 3 out; and asked for again. -/
def watchO : Op := { mkOp (.watchRead 3) ⟨0, some 5, false⟩ 112 (.spans []) 0 64 false [] with id := 1, cur := 64, parts := [⟨9, 0, 64, 0x1000, .mem false 0, true, none⟩] }
def watchW (again : Bool) : Watch := ⟨3, 0, 0x1000, .mem false 0, true, again, 0⟩
def watchR (again : Bool) : State := { sent up (.watchRead 3) false with watches := [watchW again], waits := [waiterQ (.watch 3)] }
/-- A WAITGE that waits for a watch. -/
def noW : Waiter := waiterQ (.nowatch 0 0x2000 (.mem false 0))
def freeS : State := { watchS with waits := [waiterQ (.watch 3), noW] }
def manyW : State := { watchS with watches := (List.range 4096).map watchAt }
/-- A read of a watch that failed. -/
def watchF : Op := { watchO with parts := [], fail := some ⟨.route, 0, 0, false, false, 0⟩ }
/-- Allotments of partition 0 that may be written: disabled; whose range ends at 50, enabled or not. -/
def allotE (base last : Nat) : State := setAll up [(F.QE_QCFG_ASSIGNED, 300, 0), (F.PH_PART_BASE_BASE, 0, base), (F.PH_PART_LIMIT_LAST, 0, last), (F.PH_PART_BASE_EN, 1, 1), (F.PH_PART_BASE_BASE, 1, 100), (F.PH_PART_LIMIT_LAST, 1, 199)]
def allotOff (base last : Nat) : State := (allotE base last).setF F.PH_PART_BASE_EN 0 0
/-- A queue of partition 0 is enabled. -/
def allotQ : State := qIn .active
/-- Link entry 3 off and on. -/
def linkOff : State := linkIn.setF F.PH_LINK_EN 3 0
/-- Stalled partitions: too short, no sorter core, and two queues that wait on each other. -/
def stallUp (st : QState) : State := { stallS with qs := [(300, { st, blk := .cmd 77, descs := [desc 1] })], cmds := [blockC], waits := [⟨300, .ph 99, .queue 300 77, 0, 5, 0, 5, none, 0, none⟩] }
/-- The rest of the queue's text signals the pigeonhole it waits on. -/
def sigW99 : List W64 := encodeCmd hdr0 (.signal .add (.word 1) 99)

/-- No waiter here waits for a watch. -/
theorem test_no_watch_waiters : (∀ z ∈ (watchR true).waits, ∀ a b c, z.tgt ≠ .nowatch a b c) ∧ ∀ z ∈ [waiterQ (.watch 3)], ∀ a b c, z.tgt ≠ .nowatch a b c := by
  simp [watchR, waiterQ]

/-! ### The hypotheses of each clause are met, part 14 -/

/-- What the clauses of SignalsReachPigeonholesAndWaiters ask of their states and operands is met. -/
theorem test_witness_signals_reach_pigeonholes_and_waiters_1 :
    (((linkEntries linkIn 1 (99 % 2 ^ 21)).any fun i => linkIn.f F.PH_LINK_CHIP i == 2 && linkIn.f F.PH_LINK_REMOTE i == 99 / 2 ^ 21 % 2 ^ 21) = true) ∧
    ((phTouch linkIn.clear (99 % 2 ^ 21)).row (99 % 2 ^ 21)).st = PhState.normal ∧
    1 < linkIn.b.eports ∧
    linkIn.ctlOn = true ∧
    linkIn.flt.halt < 6 ∧
    unitByTag linkIn 1 (fieldOf 99 47 32) = none ∧
    waiterOf linkIn 300 = none ∧
    (((linkEntries linkIn 1 (99 % 2 ^ 21)).any fun i => linkIn.f F.PH_LINK_CHIP i == 1 && linkIn.f F.PH_LINK_REMOTE i == 99 / 2 ^ 21 % 2 ^ 21) = false) ∧
    1 < engS.b.eports ∧
    engS.ctlOn = true ∧
    engS.flt.halt < 6 ∧
    unitByTag engS 1 (fieldOf req99 47 32) = some (unitOn (Place.port 1)) ∧
    inAllot engS (unitOn (Place.port 1)).part (fieldOf req99 20 0) = true ∧
    (¬(min 253952 (engS.f F.PH_WQUOTA_QUOTA (unitOn (Place.port 1)).part) ≤ wUsed engS (unitOn (Place.port 1)).part ∨ 253952 ≤ (List.filter (fun x => decide (8192 ≤ x.ent)) engS.waits).length)) ∧
    ((phTouch engS.clear (fieldOf req99 20 0)).row (fieldOf req99 20 0)).st = PhState.normal ∧
    ((phTouch engS.clear (fieldOf req99 20 0)).row (fieldOf req99 20 0)).value < 5 ∧
    unitByTag engS 1 (fieldOf 145522601614114916 47 32) = some (unitOn (Place.port 1)) ∧
    inAllot engS (unitOn (Place.port 1)).part (fieldOf 145522601614114916 20 0) = false ∧
    1 < engFull.b.eports ∧
    engFull.ctlOn = true ∧
    engFull.flt.halt < 6 ∧
    unitByTag engFull 1 (fieldOf req99 47 32) = some (unitOn (Place.port 1)) ∧
    inAllot engFull (unitOn (Place.port 1)).part (fieldOf req99 20 0) = true ∧
    (min 253952 (engFull.f F.PH_WQUOTA_QUOTA (unitOn (Place.port 1)).part) ≤ wUsed engFull (unitOn (Place.port 1)).part ∨ 253952 ≤ (List.filter (fun x => decide (8192 ≤ x.ent)) engFull.waits).length) ∧
    1 < (engRow PhState.poisoned 0).b.eports ∧
    (engRow PhState.poisoned 0).ctlOn = true ∧
    (engRow PhState.poisoned 0).flt.halt < 6 ∧
    unitByTag (engRow PhState.poisoned 0) 1 (fieldOf req99 47 32) = some (unitOn (Place.port 1)) ∧
    inAllot (engRow PhState.poisoned 0) (unitOn (Place.port 1)).part (fieldOf req99 20 0) = true ∧
    (¬(min 253952 ((engRow PhState.poisoned 0).f F.PH_WQUOTA_QUOTA (unitOn (Place.port 1)).part) ≤ wUsed (engRow PhState.poisoned 0) (unitOn (Place.port 1)).part ∨ 253952 ≤ (List.filter (fun x => decide (8192 ≤ x.ent)) (engRow PhState.poisoned 0).waits).length)) ∧
    (((phTouch (engRow PhState.poisoned 0).clear (fieldOf req99 20 0)).row (fieldOf req99 20 0)).st = PhState.poisoned ∨ ((phTouch (engRow PhState.poisoned 0).clear (fieldOf req99 20 0)).row (fieldOf req99 20 0)).st = PhState.scrubbing) ∧
    1 < (engRow PhState.normal 7).b.eports ∧
    (engRow PhState.normal 7).ctlOn = true ∧
    (engRow PhState.normal 7).flt.halt < 6 ∧
    unitByTag (engRow PhState.normal 7) 1 (fieldOf req99 47 32) = some (unitOn (Place.port 1)) ∧
    inAllot (engRow PhState.normal 7) (unitOn (Place.port 1)).part (fieldOf req99 20 0) = true ∧
    (¬(min 253952 ((engRow PhState.normal 7).f F.PH_WQUOTA_QUOTA (unitOn (Place.port 1)).part) ≤ wUsed (engRow PhState.normal 7) (unitOn (Place.port 1)).part ∨ 253952 ≤ (List.filter (fun x => decide (8192 ≤ x.ent)) (engRow PhState.normal 7).waits).length)) ∧
    ((phTouch (engRow PhState.normal 7).clear (fieldOf req99 20 0)).row (fieldOf req99 20 0)).st = PhState.normal ∧
    5 ≤ ((phTouch (engRow PhState.normal 7).clear (fieldOf req99 20 0)).row (fieldOf req99 20 0)).value ∧
    waiterOf (blockS 0) 300 = some (blockX 0, blockC) ∧
    (blockS 0).verdict (blockX 0).part (some 300) (LbKey.queue 300) = Verdict.free ∧
    (blockX 0).expiry = some 0 ∧
    0 ≤ (blockS 0).time ∧
    waiterOf (blockS 5) 300 = some (blockX 5, blockC) ∧
    (blockS 5).verdict (blockX 5).part (some 300) (LbKey.queue 300) = Verdict.free := by
  (repeat' refine And.intro ?_ ?_) <;> decide +kernel

/-- What the clauses of SignalsReachPigeonholesAndWaiters ask of their states and operands is met. -/
theorem test_witness_signals_reach_pigeonholes_and_waiters_2 :
    (blockX 5).expiry = some 5 ∧
    (blockS 5).time < 5 ∧
    (scrubS 0).prt = [(0, scrubD 0)] ∧
    (scrubD 0).rows = some 0 ∧
    (scrubS 0).f F.PRT_STAT_STEP = 5 ∧
    (scrubS 0).ctlOn = true ∧
    (scrubS 0).flt.halt < 3 ∧
    ((scrubS 0).row 0).st ≠ PhState.scrubbing ∧
    (scrubS2 0).prt = [(0, scrubD 0)] ∧
    (scrubS2 0).f F.PRT_STAT_STEP = 5 ∧
    (scrubS2 0).ctlOn = true ∧
    (scrubS2 0).flt.halt < 3 ∧
    ((scrubS2 0).row 0).st = PhState.scrubbing := by
  (repeat' refine And.intro ?_ ?_) <;> decide +kernel

/-- What the clauses of WatchesReadTheirFences ask of their states and operands is met. -/
theorem test_witness_watches_read_their_fences :
    LastAnswer (watchR true) 9 false (rq false) watchO ∧
    watchO.pur = Purpose.watchRead 3 ∧
    (List.find? (fun x => x.id == 3) (watchR true).watches = some (watchW true)) ∧
    HostReady (watchR true) ∧
    (watchR true).flt.halt = 0 ∧
    ringsDelivered (watchR true) = true ∧
    (watchR true).f F.PRT_STAT_STATE ≠ 2 ∧
    (pollInterval (watchR true) (watchW true).part = 0 ∨ (watchR true).time < (watchW true).lastRead + pollInterval (watchR true) (watchW true).part * 1000 ∨ (watchW true).reading = true) ∧
    (watchW true).reading = true ∧
    mreqOf watchS 9 false = none ∧
    (List.find? (fun x => x.id == 3) watchS.watches = some (watchAt 3)) ∧
    pollInterval watchS (watchAt 3).part ≠ 0 ∧
    (watchAt 3).lastRead + pollInterval watchS (watchAt 3).part * 1000 ≤ watchS.time ∧
    (watchAt 3).reading = false ∧
    watchS.fb F.OBS_RP_CFG_INPUTS = false ∧
    watchF.status ≠ Status.done ∧
    freeS.watches.length < 4096 ∧
    freeS.waits = [waiterQ (WTgt.watch 3)] ++ [noW] ∧
    noW.tgt = WTgt.nowatch 0 8192 (Tgt.mem false 0) := by
  (repeat' refine And.intro ?_ ?_) <;> decide +kernel

/-- What the clauses of AllotmentsLinksAndWaitCycles ask of their states and operands is met. -/
theorem test_witness_allotments_links_and_wait_cycles :
    HostReady (allotE 5 50) ∧
    partQueues (allotE 5 50) 0 = [] ∧
    (allotE 5 50).f F.PH_PART_LIMIT_LAST < (2 ^ 63 + 60) % 2 ^ 21 ∧
    ((allotE 5 50).fb F.PH_PART_BASE_EN = false ∨ (allotE 5 50).f F.PH_PART_BASE_BASE ≤ (2 ^ 63 + 60) % 2 ^ 21 ∧ ¬(fun lo hi => ∃ o, o ∈ (allotE 5 50).setIdx F.PH_PART_BASE_EN ∧ o ≠ 0 ∧ (allotE 5 50).f F.PH_PART_BASE_BASE o ≤ hi ∧ lo ≤ (allotE 5 50).f F.PH_PART_LIMIT_LAST o) ((allotE 5 50).f F.PH_PART_BASE_BASE) ((2 ^ 63 + 60) % 2 ^ 21)) ∧
    (allotE 5 50).fb F.PH_LINK_EN 3 = false ∧
    (phPart (allotE 5 50) (fieldIn (2 ^ 63 + 60) 57 37) = none ∨ (2 ^ 63 + 60) / 2 ^ 58 % 16 = (allotE 5 50).chip) ∧
    (List.find? (fun x => x.fst == 0) (allotE 5 50).stall = none ∨ scanAfter (allotE 5 50) = none) ∧
    (2 ^ 63 + 7) % 2 ^ 21 ≤ (allotE 5 50).f F.PH_PART_LIMIT_LAST ∧
    (¬(fun lo hi => ∃ o, o ∈ (allotE 5 50).setIdx F.PH_PART_BASE_EN ∧ o ≠ 0 ∧ (allotE 5 50).f F.PH_PART_BASE_BASE o ≤ hi ∧ lo ≤ (allotE 5 50).f F.PH_PART_LIMIT_LAST o) ((2 ^ 63 + 7) % 2 ^ 21) ((allotE 5 50).f F.PH_PART_LIMIT_LAST)) ∧
    (allotE 5 50).fb F.PH_PART_BASE_EN = true ∧
    (allotE 5 50).f F.PH_PART_BASE_BASE ≤ (2 ^ 63 + 130) % 2 ^ 21 ∧
    ((fun lo hi => ∃ o, o ∈ (allotE 5 50).setIdx F.PH_PART_BASE_EN ∧ o ≠ 0 ∧ (allotE 5 50).f F.PH_PART_BASE_BASE o ≤ hi ∧ lo ≤ (allotE 5 50).f F.PH_PART_LIMIT_LAST o) ((allotE 5 50).f F.PH_PART_BASE_BASE) ((2 ^ 63 + 130) % 2 ^ 21)) ∧
    3 % 2 ^ 21 < (allotE 5 50).f F.PH_PART_BASE_BASE ∧
    (3 < 2 ^ 63 ∨ ¬(phPart (allotE 5 50) (fieldIn 3 57 37) = none ∨ 3 / 2 ^ 58 % 16 = (allotE 5 50).chip)) ∧
    HostReady (allotE 5 150) ∧
    partQueues (allotE 5 150) 0 = [] ∧
    (2 ^ 63 + 60) % 2 ^ 21 ≤ (allotE 5 150).f F.PH_PART_LIMIT_LAST ∧
    ((fun lo hi => ∃ o, o ∈ (allotE 5 150).setIdx F.PH_PART_BASE_EN ∧ o ≠ 0 ∧ (allotE 5 150).f F.PH_PART_BASE_BASE o ≤ hi ∧ lo ≤ (allotE 5 150).f F.PH_PART_LIMIT_LAST o) ((2 ^ 63 + 60) % 2 ^ 21) ((allotE 5 150).f F.PH_PART_LIMIT_LAST)) ∧
    HostReady allotQ ∧
    partQueues allotQ 0 ≠ [] ∧
    HostReady linkIn ∧
    linkIn.fb F.PH_LINK_EN 3 = true ∧
    (List.find? (fun x => x.fst == 0) (stallUp QState.active).stall = some (0, 0, 0)) ∧
    scanAfter (stallUp QState.active) = some 100000 ∧
    0 + 100000 ≤ (stallUp QState.active).time ∧
    ((stallUp QState.active).coreUp 0 = true ∨ (stallUp QState.active).coreUp 1 = true) ∧
    (stallUp QState.active).halted = false ∧
    (stallUp QState.active).ctlOn = true ∧
    (List.find? (fun x => x.fst == 0) (atTime 99999 (stallUp QState.active)).stall = some (0, 0, 0)) ∧
    scanAfter (atTime 99999 (stallUp QState.active)) = some 100000 ∧
    (atTime 99999 (stallUp QState.active)).time < 0 + 100000 := by
  (repeat' refine And.intro ?_ ?_) <;> decide +kernel

/-! ### Statements about scheduling -/

/-- A placed command of queue 300 that waits for its admission. -/
def heldS (b : Body) : State := { upQ { st := .active, descs := [desc 1] } with cmds := [{ cmdOf b with st := .held }] }

/-- Engine port 1 has been drained for good. -/
def gonePort (s : State) : State := { s with sch := { s.sch with failed := [1] } }

def launchB : Body := .launch false true 1 0 0 [1, 2, 3, 4] none
def collectB : Body := .collect false 0 false 0 0 0 0 1 0 0 false false 0

/-- Engine port 1 is ready, and partition 0 may share and has a balance. -/
def shareS : State := { setAll (heldS launchB) [(F.INT_EPORT_READY, 1, 1), (F.SCH_PRT_SHAREEN, 0, 1)] with sch := { started := true, bal := [(0, 1)] } }

/-- The LAUNCH goes to its pinned port, which then runs one unit (spec/03 R85, spec/06 R170). -/
theorem test_admission : got (execUnitAdmission 0 shareS) (fun s => s.units.map (·.place)) = some [.port 1] := by decide +kernel

/-- A TILEPASS with one tile in a state; its header names 4 slots. -/
def tileC (st : Nat) : Cmd :=
  { cmdOf (.tilepass false 0 0 64 1 1 0 [0, 0, 0, 0] 0) with st := .admitted, buf := toBytes 8 0 ++ toBytes 8 (4 * 2 ^ 56 + 2 ^ 48) ++ toBytes 48 0, tiles := [⟨0, 0, 0, 0, 0, st, 0⟩] }
def tileS (st : Nat) : State := { upQ { st := .active, descs := [desc 1] } with cmds := [tileC st] }

/-- Word 0 of a completion item of the unit with tag 9. -/
def item9 (st : Nat) : W64 := BitVec.ofNat 64 (9 * 2 ^ 48 + st * 2 ^ 40)

/-- The timetable has reached the end of a window of 1 µs: `n` windows, each with words `w`. -/
def ttS (w : Win) (n : Nat) : State := { up with sch := { up.sch with active := List.replicate n w, pos := 1000 } }
/-- A shared window, and an EXCLUSIVE one of partition 0. -/
def shareW : Win := (0, 1)
def exclW : Win := (0, 0x8000000000000001#64)
/-- One window in the shadow timetable. -/
def shadowS : State := (ttS shareW 1).setF F.SCH_TTCTL_SHDNWIN 0 1
/-- A scheduler that has not started; a LAUNCH of a lost port; a COLLECT of a lost core. -/
def schOff : State := { up with sch := {} }
def goneS : State := gonePort (heldS launchB)
def goneC : State := (heldS collectB).setF F.FW_CORE_STATE 2 3
def noCmd : Cmd := cmdOf (.nop 0)
def goneOf (s : State) : Cmd := (goneUnit s).getD noCmd
/-- The admission a state makes. -/
def planOf (s : State) : Cmd × Plan := ((laterPlan s).orElse fun _ => if windowOver s then none else nextPlan s 0).getD (noCmd, ⟨0, .nmu, 0, false, 0, 0, none⟩)
/-- A LAUNCH admitted on engine port 1. -/
def launchC : Cmd := { cmdOf launchB with st := .held }
def launchP : Plan := ⟨0, .port 1, 0, true, 0, 0, none⟩
def admitY (s : State) (c : Cmd) (x : Plan) : State := { doAdmit s c x with out := s.out }
def lastUnit (s : State) : Wunit := s.units.getLast?.getD (unitOn (.port 1))
/-- A tile in a state; a slot that an earlier tile has, resolved or not. -/
def tileT (st : Nat) : TileSt := ⟨0, 0, 0, 0, 0, st, 0⟩
def lateT (k st : Nat) : TileSt := ⟨k, k, 0, 0, 0, st, 0⟩
def tileLate (st : Nat) : Cmd := { tileC 0 with tiles := [lateT 0 st, lateT 4 0] }
def lateS (st : Nat) : State := { upQ { st := .active, descs := [desc 1] } with cmds := [tileLate st] }
/-- The unit of a resolve write before its access. -/
def resY (s : State) (c : Cmd) (k ix : Nat) : State :=
  let a := addUnit s c (.courier k) ix false 0
  { a.1 with units := a.1.units.map fun (u : Wunit) => if u.id = a.2 then { u with deadline := none } else u }
def resD (s : State) (c : Cmd) (t : TileSt) : Cmd :=
  let c := ((resY s c 0 t.k).cmd? c.id).getD c
  { setTile c { t with st := 5, row := 0 } with live := c.live + 1 }
/-- A queue that moves; port 2 can stand for port 1. -/
def movS : State := { (upQ { st := .active, removed := [2] }).setF F.INT_EPORT_REPORTED 2 1 with cmds := [{ cmdOf launchB with st := .admitted, ran := [.port 1] }] }
def oldCmdR : Cmd := { cmdOf launchB with st := .admitted, ran := [.port 1] }
/-- Completion items: with a translation failure, a fault, a signal. -/
def item9x : W64 := item9 Status.xlateFault.code
def itemP : W64 := item9 1 + 2 ^ 38 + 2 ^ 37
def itemSig (n : Nat) : W64 := item9 1 + 2 ^ 39 + BitVec.ofNat 64 n
def itemSigOk (n : Nat) : W64 := item9 0 + 2 ^ 39 + BitVec.ofNat 64 n
/-- The completion buffer of the unit's queue is full; no unit has the tag; the signal's pigeonhole is POISONED. -/
def engFul : State := { engS.setQ 300 { engS.q 300 with st := .frozen } with cbuf := List.replicate 4096 (300, 0) }
def engUp : State := up
def engPois : State := engRow .poisoned 0
/-- The state whose unit ends, after its signal. -/
def sigEnd (s : State) (u : Wunit) (w0 w1 w2 : W64) : State :=
  let z : State := if w0.toNat.testBit 38 then s.clear.raise (hwFault 10 3 1 true none 0) else s.clear
  let y0 : State := settleUnit z u
  let y : State := match y0.cmd? u.cmd with
    | some c => if w0.toNat.testBit 37 then y0.setCmd { c with edig := c.edig + w2 } else y0
    | none => y0
  let r := (phSignal y (fieldOf w0 20 0) .max w1 none).1
  match r.cmd? u.cmd with
  | some c => r.setCmd { c with sumPh := fieldOf w0 20 0, sumPhV := (r.row (fieldOf w0 20 0)).value }
  | none => r
/-- A unit elsewhere; a watchdog's end of a collective's part. -/
def onPlace (p : Place) : State := { engS with units := [unitOn p] }
def relayEnd (s : State) (u : Wunit) : State :=
  let f : Flt := ⟨1, 1, 1, true, false, u.place.num, some u.part, Status.watchdog.code, commonDetail 0 ((s.cmd? u.cmd).map Cmd.at) u.place.num 0 0 0 0, some u.cmd, none⟩
  let s := collEndPart ((s.clear.raise f).incF F.SCH_WD_FIRED 0) u.cmd .watchdog true
  collForget { s with colls := s.colls.filter (·.cmd != u.cmd) }
/-- Engine port 1 is in a reset that has passed its limit at 9 ns. -/
def resetS : State := { up with sch := { up.sch with resets := [(1, 9)] } }
/-- A collective's part has ended. -/
def endedV : Collv := { cmd := 77, g := 0, rank := 0, n := 1, phase := 4, since := 0, st := .aborted }
def collEndS : State := { withCmd { cmdOf collectB with st := .admitted } ⟨0, 1, 0, none, none, []⟩ with colls := [endedV] }
/-- The major cycle's boundary, the end of RUN; an EXCLUSIVE window before a shared one; a swap that may be made. -/
def cycleE (s : State) : State := majorBoundary s.clear
def runEndE (s : State) : State := exclusiveRunEnd s.clear
def exclS : State := { ttS exclW 1 with sch := { (ttS exclW 1).sch with active := [exclW, shareW] } }
def swapS : State := { shadowS with sch := { shadowS.sch with shadow := [(0, shareW)] } }
/-- A unit with a later deadline; a relay's unit while another collective goes on. -/
def unitLate : Wunit := { unitOn (.port 1) with deadline := some 5 }
def engLate : State := { engS with units := [unitLate] }
def relS : State := { onPlace (.relay 0) with colls := [{ endedV with cmd := 78 }] }
def endedV' : Collv := { endedV with cmd := 78 }

/-- Places that a watchdog ends in one way. -/
theorem test_unit_places : ((unitOn .nmu).place = .nmu ∨ ∃ a, (unitOn .nmu).place = .courier a) ∧ ((unitOn (.courier 3)).place = .nmu ∨ ∃ a, (unitOn (.courier 3)).place = .courier a) :=
  ⟨.inl rfl, .inr ⟨3, rfl⟩⟩

/-! ### The hypotheses of each clause are met, part 16 -/

/-- What the clauses of UnitsAreAdmittedInOrder ask of their states and operands is met. -/
theorem test_witness_units_are_admitted_in_order_1 :
    schRuns schOff = false ∧
    List.find? (tileWaits 300) schOff.cmds = none ∧
    (schRuns schOff = false ∨ windowOver schOff = true ∨ List.find? (fun x => (resolveReady schOff 0 x).isSome || Option.any (fun e => e.snd.pl == Place.courier 0) (ungroupedPlan schOff 0 x)) (courierOrder schOff) ≠ some 300) ∧
    schRuns goneS = true ∧
    goneUnit goneS = some (goneOf goneS) ∧
    relayGone goneS (goneOf goneS) = false ∧
    (goneS.q 300).st ≠ QState.disabled ∧
    goneS.ctlOn = true ∧
    (goneS.coreUp 4 = true ∨ goneS.coreUp 5 = true) ∧
    goneS.verdict (goneS.qPart 300) (some 300) (LbKey.queue 300) = Verdict.free ∧
    replacement goneS 1 2 = false ∧
    1 < goneS.b.eports ∧
    2 < goneS.b.stations ∧
    schRuns goneC = true ∧
    goneUnit goneC = some (goneOf goneC) ∧
    relayGone goneC (goneOf goneC) = true ∧
    schRuns up = true ∧
    goneUnit up = none ∧
    (((laterPlan up).orElse fun x => if windowOver up = true then none else nextPlan up 0) = none) ∧
    schRuns shareS = true ∧
    goneUnit shareS = none ∧
    (((laterPlan shareS).orElse fun x => if windowOver shareS = true then none else nextPlan shareS 0) = some ((planOf shareS).fst, (planOf shareS).snd)) ∧
    (planOf shareS).fst.body = Body.launch false true 1 0 0 [1, 2, 3, 4] none ∧
    (planOf shareS).snd.pl = Place.port 1 ∧
    (planOf shareS).snd.mask = 0 ∧
    shareS.cmd? (planOf shareS).fst.id = some (planOf shareS).fst ∧
    shareS.unit? shareS.nid = none ∧
    shareS.verdict (shareS.qPart (planOf shareS).fst.q) (some (planOf shareS).fst.q) (LbKey.place 0 1) = Verdict.free ∧
    List.find? (tileWaits 300) (tileS 0).cmds = some (tileC 0) ∧
    (List.find? (fun x => x.st == 0) (tileC 0).tiles = some (tileT 0)) ∧
    ((tileT 0).k < (tileHdr (tileC 0).buf).nslot ∨ ∀ (y : TileSt), y ∈ (tileC 0).tiles → y.k = (tileT 0).k - (tileHdr (tileC 0).buf).nslot → y.st = 4) ∧
    List.find? (tileWaits 300) (lateS 1).cmds = some (tileLate 1) ∧
    (List.find? (fun x => x.st == 0) (tileLate 1).tiles = some (lateT 4 0)) ∧
    (¬((lateT 4 0).k < (tileHdr (tileLate 1).buf).nslot ∨ ∀ (y : TileSt), y ∈ (tileLate 1).tiles → y.k = (lateT 4 0).k - (tileHdr (tileLate 1).buf).nslot → y.st = 4)) ∧
    schRuns (tileS 3) = true ∧
    windowOver (tileS 3) = false ∧
    (List.find? (fun x => (resolveReady (tileS 3) 0 x).isSome || Option.any (fun e => e.snd.pl == Place.courier 0) (ungroupedPlan (tileS 3) 0 x)) (courierOrder (tileS 3)) = some 300) ∧
    resolveReady (tileS 3) 0 300 = some (tileC 3, tileT 3) ∧
    (tileS 3).verdict ((tileS 3).qPart 300) (some 300) (LbKey.place 2 0) = Verdict.free ∧
    (tileS 3).cmd? (tileC 3).id = some (tileC 3) ∧
    (tileS 3).unit? (tileS 3).nid = none ∧
    (movS.q 300).st ≠ QState.disabled ∧
    movS.ctlOn = true ∧
    (movS.coreUp 4 = true ∨ movS.coreUp 5 = true) ∧
    movS.verdict (movS.qPart 300) (some 300) (LbKey.queue 300) = Verdict.free := by
  (repeat' refine And.intro ?_ ?_) <;> decide +kernel

/-- What the clauses of UnitsAreAdmittedInOrder ask of their states and operands is met. -/
theorem test_witness_units_are_admitted_in_order_2 :
    replacement movS 1 2 = true := by
  (repeat' refine And.intro ?_ ?_) <;> decide +kernel

/-- What the clauses of EngineUnitsCompleteOrAreCutOff ask of their states and operands is met. -/
theorem test_witness_engine_units_complete_or_are_cut_off_1 :
    engS.ctlOn = true ∧
    engS.flt.halt < 6 ∧
    1 < engS.b.eports ∧
    unitByTag engS 1 (fieldOf (item9 1) 63 48) = some (unitOn (Place.port 1)) ∧
    cbufFull engS (unitOn (Place.port 1)).q = false ∧
    ((BitVec.toNat (item9 1)).testBit 39 && !(engS.mirrored (unitOn (Place.port 1)).q && engS.f F.ECH_STAT_ROLE == 5)) = false ∧
    unitByTag engS 1 (fieldOf (itemSig 99) 63 48) = some (unitOn (Place.port 1)) ∧
    ((BitVec.toNat (itemSig 99)).testBit 39 && !(engS.mirrored (unitOn (Place.port 1)).q && engS.f F.ECH_STAT_ROLE == 5)) = true ∧
    inAllot engS (unitOn (Place.port 1)).part (fieldOf (itemSig 99) 20 0) = true ∧
    unitByTag engS 1 (fieldOf (itemSig 100) 63 48) = some (unitOn (Place.port 1)) ∧
    ((BitVec.toNat (itemSig 100)).testBit 39 && !(engS.mirrored (unitOn (Place.port 1)).q && engS.f F.ECH_STAT_ROLE == 5)) = true ∧
    inAllot engS (unitOn (Place.port 1)).part (fieldOf (itemSig 100) 20 0) = false ∧
    engFul.ctlOn = true ∧
    engFul.flt.halt < 6 ∧
    1 < engFul.b.eports ∧
    unitByTag engFul 1 (fieldOf (item9 1) 63 48) = some (unitOn (Place.port 1)) ∧
    cbufFull engFul (unitOn (Place.port 1)).q = true ∧
    engUp.ctlOn = true ∧
    engUp.flt.halt < 6 ∧
    1 < engUp.b.eports ∧
    unitByTag engUp 1 (fieldOf (item9 1) 63 48) = none ∧
    (onPlace (Place.port 1)).ctlOn = true ∧
    (onPlace (Place.port 1)).flt.halt < 6 ∧
    (onPlace (Place.port 1)).unit? 9 = some (unitOn (Place.port 1)) ∧
    (unitOn (Place.port 1)).deadline = some 0 ∧
    0 ≤ (onPlace (Place.port 1)).time ∧
    (unitOn (Place.port 1)).place = Place.port 1 ∧
    (onPlace (Place.stations 0 4)).ctlOn = true ∧
    (onPlace (Place.stations 0 4)).flt.halt < 6 ∧
    (onPlace (Place.stations 0 4)).unit? 9 = some (unitOn (Place.stations 0 4)) ∧
    (unitOn (Place.stations 0 4)).deadline = some 0 ∧
    0 ≤ (onPlace (Place.stations 0 4)).time ∧
    (unitOn (Place.stations 0 4)).place = Place.stations 0 4 ∧
    relS.ctlOn = true ∧
    relS.flt.halt < 6 ∧
    relS.unit? 9 = some (unitOn (Place.relay 0)) ∧
    (unitOn (Place.relay 0)).deadline = some 0 ∧
    0 ≤ relS.time ∧
    (unitOn (Place.relay 0)).place = Place.relay 0 ∧
    endedV' ∈ (relayEnd relS (unitOn (Place.relay 0))).colls ∧
    (onPlace Place.nmu).ctlOn = true ∧
    (onPlace Place.nmu).flt.halt < 6 ∧
    (onPlace Place.nmu).unit? 9 = some (unitOn Place.nmu) ∧
    (unitOn Place.nmu).deadline = some 0 ∧
    0 ≤ (onPlace Place.nmu).time := by
  (repeat' refine And.intro ?_ ?_) <;> decide +kernel

/-- What the clauses of EngineUnitsCompleteOrAreCutOff ask of their states and operands is met. -/
theorem test_witness_engine_units_complete_or_are_cut_off_2 :
    engLate.ctlOn = true ∧
    engLate.flt.halt < 6 ∧
    engLate.unit? 9 = some unitLate ∧
    unitLate.deadline = some 5 ∧
    engLate.time < 5 ∧
    resetS.ctlOn = true ∧
    resetS.flt.halt < 6 ∧
    (List.find? (fun x => x.fst == 1) resetS.sch.resets = some (1, 9)) ∧
    resetS.time < (1, 9).snd ∧
    (atTime 9 resetS).ctlOn = true ∧
    (atTime 9 resetS).flt.halt < 6 ∧
    (List.find? (fun x => x.fst == 1) (atTime 9 resetS).sch.resets = some (1, 9)) ∧
    (1, 9).snd ≤ (atTime 9 resetS).time ∧
    collEndS.ctlOn = true ∧
    collEndS.flt.halt < 6 ∧
    (List.find? (fun v => v.phase == 4 && match collEndS.cmd? v.cmd with | some c => c.q == 300 && !cbufFull collEndS 300 | none => false) collEndS.colls = some endedV) := by
  (repeat' refine And.intro ?_ ?_) <;> decide +kernel

/-- What the clauses of TimetablesTurnAndSwap ask of their states and operands is met. -/
theorem test_witness_timetables_turn_and_swap :
    (ttS shareW 2).b.Permitted ∧
    windowOver (ttS shareW 2) = true ∧
    (ttS shareW 2).sch.win + 1 < (ttS shareW 2).sch.active.length ∧
    (¬((ttS shareW 2).sch.started = true ∧ winExcl (curWin (ttS shareW 2)) = true ∧ (ttS shareW 2).f F.SCH_TTSTAT_PHASE = 0 ∧ winEnd (ttS shareW 2) (ttS shareW 2).sch.win ≤ ttPos (ttS shareW 2) ∧ nextSame (ttS shareW 2) = false)) ∧
    WorkReady (ttS shareW 2) ∧
    swapError (ttS shareW 2) = some (1, 0) ∧
    HostReady (ttS shareW 2) ∧
    (ttS shareW 1).b.Permitted ∧
    windowOver (ttS shareW 1) = true ∧
    (ttS shareW 1).sch.active.length ≤ (ttS shareW 1).sch.win + 1 ∧
    (ttS shareW 1).fb F.SCH_TTCTL_PEND = false ∧
    up.b.Permitted ∧
    windowOver up = false ∧
    ((ttS shareW 1).setF F.SCH_TTCTL_PEND 0 1).b.Permitted ∧
    windowOver ((ttS shareW 1).setF F.SCH_TTCTL_PEND 0 1) = true ∧
    ((ttS shareW 1).setF F.SCH_TTCTL_PEND 0 1).sch.active.length ≤ ((ttS shareW 1).setF F.SCH_TTCTL_PEND 0 1).sch.win + 1 ∧
    ((ttS shareW 1).setF F.SCH_TTCTL_PEND 0 1).fb F.SCH_TTCTL_PEND = true ∧
    exclS.b.Permitted ∧
    (exclS.sch.started = true ∧ winExcl (curWin exclS) = true ∧ exclS.f F.SCH_TTSTAT_PHASE = 0 ∧ winEnd exclS exclS.sch.win ≤ ttPos exclS ∧ nextSame exclS = false) ∧
    swapS.b.Permitted ∧
    WorkReady swapS ∧
    swapError swapS = none := by
  (repeat' refine And.intro ?_ ?_) <;> decide +kernel

/-! ### Statements about the gallery -/

/-- A write or read of 4 bytes at address 8 by engine port 0. -/
def hreq (wr : Bool) : HReq := ⟨1, 0, 0, ⟨0, some 5, false⟩, 8, 4, wr, false, 0, false, false, false, [1, 2, 3, 4], none, none⟩

/-- Hall 0 with one request, its slot 0 owned by engine port 0. -/
def hallS (r : HReq) : State :=
  { setAll up [(F.GAL_WHEEL_ACT_ENTRIES, 0, 128), (F.GAL_CPWR_STAT_STATES, 0, 0), (F.PWR_DOM_STATE, up.b.domLogic 0, 3)] with gal := { own := [(0, ⟨true, false, 0, 0⟩)], halls := [(0, { queue := [r] })], cells := [(7, 9), (9, 1), (12, 5)] } }

/-- The slot serves its owner's write (spec/07 R186). -/
theorem test_hall_write : got (execHallSlotAccess 0 (hallS (hreq true))) (fun s => s.gal.cells) = some [(7, 9), (8, 1), (9, 2), (10, 3), (11, 4), (12, 5)] := by decide +kernel

/-- A gather entry that has waited, an increment, and patrol passes each millisecond. -/
def bufS : State := { setAll up [(F.GAL_SCRUB_PATROL, 0, 1), (F.GAL_CPWR_STAT_STATES, 1, 4 + 5 * 8)] with
  time := 1000000, gal := { incs := [(3, 2)], gather := [⟨0, ⟨0, none, false⟩, none, 512, [], [], 64, 0, false⟩], halls := [(1, { patrol := some 7 })] }, pwr := { chAt := [(16, 5), (17, 5)], fromDark := [16] } }

/-- Drop window 2 is allotted to partition 0, which has selected it and owns its range of one tile line; partition 1 holds counters 200 to 299. -/
def dropS : State := { setAll up [(F.GAL_PW_DROP_SEL_WIN, 0, 2), (F.GAL_DROP_ALLOT, 2, 1), (F.GAL_DROP_OWNER, 2, 0), (F.GAL_PW_DROP_RANGE_LINES, 2, 1),
    (F.GAL_FRANK_PART_EN, 1, 1), (F.GAL_FRANK_PART_BASE, 1, 200), (F.GAL_FRANK_PART_LAST, 1, 299)] with gal := { own := [(0, ⟨true, false, 0, 0⟩)] } }

/-- A hall's clock that stands; a request that meets an armed region; one that no check admits; a sealed one. -/
def hallOff : State := (hallS (hreq true)).setF F.PWR_STATE_STATE 0 3
def noOwner (wr : Bool) : State := { hallS (hreq wr) with gal := { (hallS (hreq wr)).gal with own := [] } }
/-- Region 3 is armed over the first tile line. -/
def armed (s : State) : State := setAll s [(F.GAL_SEAL_MODE_ARMED, 3, 1), (F.GAL_SEAL_SIZE_SIZE, 3, 512)]
def sreq (wr : Bool) : HReq := { hreq wr with sealed := true }
def armedS (r : HReq) : State := armed (hallS r)
def fullL (s : State) : State := { s with gal := { s.gal with full := [0] } }
def peekL (s : State) : State := (fullL s).setF F.GAL_SEAL_MODE_PEEK 3 1
/-- The check at a request's entry. -/
def checkOf (s : State) (r : HReq) : Option Status × Option Nat := entryCheck (turnStart s.clear 0) 0 r
/-- The patrol off or not due; a hall whose logic is on and that passes. -/
def bufOff : State := bufS.setF F.GAL_SCRUB_PATROL 0 0
def bufLate : State := atTime 999999 bufS
def bufOn : State := bufS.setF F.PWR_DOM_STATE (bufS.b.domLogic 1) 3
def bufDim : State := { bufS with pwr := { bufS.pwr with fromDark := [] } }
/-- Block 0 scrubs; in every hall still; hall 0 with the logic on. -/
def scrubB : State := up.setF F.GAL_OWN_STATE 0 1
def scrubbing0 : State := { scrubB with gal := { halls := [(0, { scrub := [(0, 5)] })] } }
def litUp : State := up.setF F.PWR_DOM_STATE (up.b.domLogic 0) 3
/-- Hall 0 at a turn's first slot, in its middle, with a pending wheel. -/
def turnS (c : Nat) : State := { litUp with gal := { halls := [(0, { cyc := c, newChange := [4] })] } }
def turnP : State := (turnS 32).setF F.GAL_WHEEL_MODE_PEND 0 1
/-- The drop window open, of a range of no line, of one elsewhere, with a counter of another. -/
def dropO : State := dropS.setF F.GAL_PW_DROP_CTL_OPEN 2 1
def drop0 : State := dropS.setF F.GAL_PW_DROP_RANGE_LINES 2 0
def dropN : State := dropS.setF F.GAL_DROP_ALLOT 2 0
def frankOn : State := dropS.setF F.GAL_FRANK_PART_EN 1 1
def frankOff : State := dropS.setF F.GAL_FRANK_PART_EN 0 0

/-! ### The hypotheses of each clause are met, part 18 -/

/-- What the clauses of HallSlotsServeTheirOwner ask of their states and operands is met. -/
theorem test_witness_hall_slots_serve_their_owner_1 :
    hallRuns hallOff 0 = false ∧
    hallRuns (hallS (hreq true)) 0 = true ∧
    1 < (hallS (hreq true)).b.halls ∧
    Memory.wf (hallS (hreq true)).gal.cells ∧
    (hallS (hreq true)).gal.gather = [] ∧
    (hallS (hreq true)).gal.err = [] ∧
    (hallS (hreq true)).fb F.FLT_INJ_ARM = false ∧
    ((hallS (hreq true)).hall 0).queue = [hreq true] ∧
    (hreq true).req ≠ 121 ∧
    (hreq true).narrow = false ∧
    (hreq true).col = false ∧
    (hreq true).mask = 0 ∧
    wheelOwner (turnStart (hallS (hreq true)).clear 0) 0 (((hallS (hreq true)).hall 0).cyc % 32) = some (hreq true).req ∧
    entryCheck (turnStart (hallS (hreq true)).clear 0) 0 (hreq true) = (none, none) ∧
    unsealedHit (turnStart (hallS (hreq true)).clear 0) (hreq true) = false ∧
    (hreq true).sealed = false ∧
    (hreq true).wr = true ∧
    (hreq true).data.length = (hreq true).len ∧
    hallRuns (hallS (hreq false)) 0 = true ∧
    (hallS (hreq false)).gal.gather = [] ∧
    (hallS (hreq false)).gal.err = [] ∧
    (hallS (hreq false)).fb F.FLT_INJ_ARM = false ∧
    Memory.wf (hallS (hreq false)).gal.cells ∧
    ((hallS (hreq false)).hall 0).queue = [hreq false] ∧
    (hreq false).req ≠ 121 ∧
    (hreq false).narrow = false ∧
    (hreq false).col = false ∧
    (hreq false).mask = 0 ∧
    wheelOwner (turnStart (hallS (hreq false)).clear 0) 0 (((hallS (hreq false)).hall 0).cyc % 32) = some (hreq false).req ∧
    entryCheck (turnStart (hallS (hreq false)).clear 0) 0 (hreq false) = (none, none) ∧
    unsealedHit (turnStart (hallS (hreq false)).clear 0) (hreq false) = false ∧
    (hreq false).sealed = false ∧
    (hreq false).wr = false ∧
    hallRuns (noOwner true) 0 = true ∧
    (noOwner true).gal.gather = [] ∧
    (noOwner true).gal.err = [] ∧
    (noOwner true).fb F.FLT_INJ_ARM = false ∧
    Memory.wf (noOwner true).gal.cells ∧
    ((noOwner true).hall 0).queue = [hreq true] ∧
    wheelOwner (turnStart (noOwner true).clear 0) 0 (((noOwner true).hall 0).cyc % 32) = some (hreq true).req ∧
    entryCheck (turnStart (noOwner true).clear 0) 0 (hreq true) = (some Status.xlateFault, none) ∧
    hallRuns (armedS (hreq true)) 0 = true ∧
    (armedS (hreq true)).gal.gather = [] ∧
    (armedS (hreq true)).gal.err = [] ∧
    (armedS (hreq true)).fb F.FLT_INJ_ARM = false := by
  (repeat' refine And.intro ?_ ?_) <;> decide +kernel

/-- What the clauses of HallSlotsServeTheirOwner ask of their states and operands is met. -/
theorem test_witness_hall_slots_serve_their_owner_2 :
    Memory.wf (armedS (hreq true)).gal.cells ∧
    ((armedS (hreq true)).hall 0).queue = [hreq true] ∧
    wheelOwner (turnStart (armedS (hreq true)).clear 0) 0 (((armedS (hreq true)).hall 0).cyc % 32) = some (hreq true).req ∧
    entryCheck (turnStart (armedS (hreq true)).clear 0) 0 (hreq true) = (none, none) ∧
    unsealedHit (turnStart (armedS (hreq true)).clear 0) (hreq true) = true ∧
    hallRuns (armedS (sreq true)) 0 = true ∧
    (armedS (sreq true)).gal.gather = [] ∧
    (armedS (sreq true)).gal.err = [] ∧
    (armedS (sreq true)).fb F.FLT_INJ_ARM = false ∧
    Memory.wf (armedS (sreq true)).gal.cells ∧
    ((armedS (sreq true)).hall 0).queue = [sreq true] ∧
    (sreq true).req ≠ 121 ∧
    (sreq true).narrow = false ∧
    (sreq true).col = false ∧
    (sreq true).mask = 0 ∧
    wheelOwner (turnStart (armedS (sreq true)).clear 0) 0 (((armedS (sreq true)).hall 0).cyc % 32) = some (sreq true).req ∧
    entryCheck (turnStart (armedS (sreq true)).clear 0) 0 (sreq true) = (none, none) ∧
    (sreq true).sealed = true ∧
    regionOf (armedS (sreq true)) (sreq true).addr = some 3 ∧
    (sreq true).first = none ∧
    (sreq true).wr = true ∧
    (¬(sreq true).addr / 512 ∈ (armedS (sreq true)).gal.full) ∧
    (sreq true).data.length = (sreq true).len ∧
    hallRuns (armedS (sreq false)) 0 = true ∧
    (armedS (sreq false)).gal.gather = [] ∧
    (armedS (sreq false)).gal.err = [] ∧
    (armedS (sreq false)).fb F.FLT_INJ_ARM = false ∧
    Memory.wf (armedS (sreq false)).gal.cells ∧
    ((armedS (sreq false)).hall 0).queue = [sreq false] ∧
    (sreq false).req ≠ 121 ∧
    (sreq false).narrow = false ∧
    (sreq false).col = false ∧
    (sreq false).mask = 0 ∧
    wheelOwner (turnStart (armedS (sreq false)).clear 0) 0 (((armedS (sreq false)).hall 0).cyc % 32) = some (sreq false).req ∧
    entryCheck (turnStart (armedS (sreq false)).clear 0) 0 (sreq false) = (none, none) ∧
    (sreq false).sealed = true ∧
    regionOf (armedS (sreq false)) (sreq false).addr = some 3 ∧
    (sreq false).first = none ∧
    (sreq false).wr = false ∧
    (¬(sreq false).addr / 512 ∈ (armedS (sreq false)).gal.full) ∧
    hallRuns (fullL (armedS (sreq true))) 0 = true ∧
    (fullL (armedS (sreq true))).gal.gather = [] ∧
    (fullL (armedS (sreq true))).gal.err = [] ∧
    (fullL (armedS (sreq true))).fb F.FLT_INJ_ARM = false ∧
    Memory.wf (fullL (armedS (sreq true))).gal.cells := by
  (repeat' refine And.intro ?_ ?_) <;> decide +kernel

/-- What the clauses of HallSlotsServeTheirOwner ask of their states and operands is met. -/
theorem test_witness_hall_slots_serve_their_owner_3 :
    ((fullL (armedS (sreq true))).hall 0).queue = [sreq true] ∧
    wheelOwner (turnStart (fullL (armedS (sreq true))).clear 0) 0 (((fullL (armedS (sreq true))).hall 0).cyc % 32) = some (sreq true).req ∧
    entryCheck (turnStart (fullL (armedS (sreq true))).clear 0) 0 (sreq true) = (none, none) ∧
    regionOf (fullL (armedS (sreq true))) (sreq true).addr = some 3 ∧
    (sreq true).addr / 512 ∈ (fullL (armedS (sreq true))).gal.full ∧
    hallRuns (fullL (armedS (sreq false))) 0 = true ∧
    (fullL (armedS (sreq false))).gal.gather = [] ∧
    (fullL (armedS (sreq false))).gal.err = [] ∧
    (fullL (armedS (sreq false))).fb F.FLT_INJ_ARM = false ∧
    Memory.wf (fullL (armedS (sreq false))).gal.cells ∧
    ((fullL (armedS (sreq false))).hall 0).queue = [sreq false] ∧
    wheelOwner (turnStart (fullL (armedS (sreq false))).clear 0) 0 (((fullL (armedS (sreq false))).hall 0).cyc % 32) = some (sreq false).req ∧
    entryCheck (turnStart (fullL (armedS (sreq false))).clear 0) 0 (sreq false) = (none, none) ∧
    regionOf (fullL (armedS (sreq false))) (sreq false).addr = some 3 ∧
    (sreq false).addr / 512 ∈ (fullL (armedS (sreq false))).gal.full := by
  (repeat' refine And.intro ?_ ?_) <;> decide +kernel

/-- What the clauses of BuffersPatrolHostDataAndPower ask of their states and operands is met. -/
theorem test_witness_buffers_patrol_host_data_and_power :
    bufS.gal.incs = [(3, 2)] ∧
    bufS.ctlOn = true ∧
    (bufS.f F.GAL_SCRUB_PATROL ≠ 0 ∧ bufS.ctlOn = true ∧ bufS.gal.patrolAt + bufS.f F.GAL_SCRUB_PATROL * 1000000 ≤ bufS.time) ∧
    (∀ (h : Nat), h < bufS.b.halls → (bufS.hall h).patrol = none ∨ bufS.domOn (bufS.b.domLogic h) = false) ∧
    1 < bufS.b.halls ∧
    (up.gal.incs = [] ∨ up.ctlOn = false) ∧
    (¬(up.f F.GAL_SCRUB_PATROL ≠ 0 ∧ up.ctlOn = true ∧ up.gal.patrolAt + up.f F.GAL_SCRUB_PATROL * 1000000 ≤ up.time)) ∧
    bufS.b.Permitted ∧
    HostReady bufS ∧
    Enabled bufS 0 ∧
    hostOk bufS = true ∧
    (List.find? (fun x => x.fst == 16 * 1 + 0) bufS.pwr.chAt = some (16 * 1 + 0, 5)) ∧
    5 ≤ bufS.time ∧
    bufS.chamber 1 0 = 4 ∧
    bufS.pwr.fromDark.contains (16 * 1 + 0) = true ∧
    (List.find? (fun x => x.fst == 16 * 1 + 1) bufS.pwr.chAt = some (16 * 1 + 1, 5)) ∧
    bufS.chamber 1 1 = 5 ∧
    Memory.wf bufS.gal.cells ∧
    (bufOn.f F.GAL_SCRUB_PATROL ≠ 0 ∧ bufOn.ctlOn = true ∧ bufOn.gal.patrolAt + bufOn.f F.GAL_SCRUB_PATROL * 1000000 ≤ bufOn.time) ∧
    (¬∀ (h : Nat), h < bufOn.b.halls → (bufOn.hall h).patrol = none ∨ bufOn.domOn (bufOn.b.domLogic h) = false) ∧
    bufDim.b.Permitted ∧
    1 < bufDim.b.halls ∧
    (List.find? (fun x => x.fst == 16 * 1 + 0) bufDim.pwr.chAt = some (16 * 1 + 0, 5)) ∧
    5 ≤ bufDim.time ∧
    bufDim.chamber 1 0 = 4 ∧
    bufDim.pwr.fromDark.contains (16 * 1 + 0) = false ∧
    (atTime 4 bufS).b.Permitted ∧
    1 < (atTime 4 bufS).b.halls ∧
    (List.find? (fun x => x.fst == 16 * 1 + 0) (atTime 4 bufS).pwr.chAt = some (16 * 1 + 0, 5)) ∧
    (atTime 4 bufS).time < 5 := by
  (repeat' refine And.intro ?_ ?_) <;> decide +kernel

/-- What the clauses of OwnersAndWheelsChangeAtTurnBoundaries ask of their states and operands is met. -/
theorem test_witness_owners_and_wheels_change_at_turn_boundaries :
    up.b.Permitted ∧
    HostReady up ∧
    0 < up.b.galleryBytes / 65536 ∧
    up.f F.GAL_OWN_STATE ≠ 1 ∧
    (¬(up.f F.GAL_OWN_VALID = 2147483649 / 2 ^ 31 ∧ up.f F.GAL_OWN_CTXEN = 2147483649 / 2 ^ 30 % 2 ∧ up.f F.GAL_OWN_CTX = 2147483649 / 2 ^ 16 % 1024 ∧ up.f F.GAL_OWN_PART = 2147483649 % 64)) ∧
    0 < up.b.halls ∧
    emptyHall up 0 = true ∧
    scrubbedAll up 0 = false ∧
    hostOk up = true ∧
    (¬(hallRuns up 0 = true ∧ (up.hall 0).cyc % 32 = 0 ∧ (up.hall 0).turned = false)) ∧
    (up.f F.GAL_OWN_VALID = 0 / 2 ^ 31 ∧ up.f F.GAL_OWN_CTXEN = 0 / 2 ^ 30 % 2 ∧ up.f F.GAL_OWN_CTX = 0 / 2 ^ 16 % 1024 ∧ up.f F.GAL_OWN_PART = 0 % 64) ∧
    scrubB.b.Permitted ∧
    HostReady scrubB ∧
    0 < scrubB.b.galleryBytes / 65536 ∧
    scrubB.f F.GAL_OWN_STATE = 1 ∧
    scrubbedAll scrubB 0 = true ∧
    litUp.b.Permitted ∧
    HostReady litUp ∧
    0 < litUp.b.galleryBytes / 65536 ∧
    litUp.f F.GAL_OWN_STATE ≠ 1 ∧
    (¬(litUp.f F.GAL_OWN_VALID = 2147483649 / 2 ^ 31 ∧ litUp.f F.GAL_OWN_CTXEN = 2147483649 / 2 ^ 30 % 2 ∧ litUp.f F.GAL_OWN_CTX = 2147483649 / 2 ^ 16 % 1024 ∧ litUp.f F.GAL_OWN_PART = 2147483649 % 64)) ∧
    0 < litUp.b.halls ∧
    emptyHall litUp 0 = false ∧
    (hallRuns litUp 0 = true ∧ (litUp.hall 0).cyc % 32 = 0 ∧ (litUp.hall 0).turned = false) ∧
    litUp.fb F.GAL_WHEEL_MODE_PEND = false ∧
    turnP.b.Permitted ∧
    (hallRuns turnP 0 = true ∧ (turnP.hall 0).cyc % 32 = 0 ∧ (turnP.hall 0).turned = false) ∧
    turnP.fb F.GAL_WHEEL_MODE_PEND = true := by
  (repeat' refine And.intro ?_ ?_) <;> decide +kernel

/-- What the clauses of DropWindowsSealsAndFrankRanges ask of their states and operands is met. -/
theorem test_witness_drop_windows_seals_and_frank_ranges :
    HostReady dropS ∧
    Enabled dropS 0 ∧
    2 = dropS.f F.GAL_PW_DROP_SEL_WIN ∧
    windowReplayed dropS 0 = false ∧
    (dropS.fb F.GAL_DROP_ALLOT 2 = true ∧ dropS.f F.GAL_DROP_OWNER 2 = 0) ∧
    dropS.fb F.GAL_PW_DROP_CTL_OPEN 2 = false ∧
    dropS.f F.GAL_PW_DROP_RANGE_LINES 2 * 512 ≠ 0 ∧
    inGalleryRanges (((((dropS.clear.note (some 0) true 21 none (16777216 + 0 * 65536 + 61984) (2 ^ 63 + 2 ^ 62)).setF F.GAL_PW_DROP_CTL_UNIT 2 ((2 ^ 63 + 2 ^ 62) / 2 ^ 62)).setF F.GAL_PW_DROP_CTL_COURIER 2 ((2 ^ 63 + 2 ^ 62) / 2 ^ 61)).setF F.GAL_PW_DROP_CTL_SRCCHIPS 2 ((2 ^ 63 + 2 ^ 62) / 2 ^ 32)).setF F.GAL_PW_DROP_CTL_COUNTER 2 (2 ^ 63 + 2 ^ 62)) 0 (dropS.f F.GAL_PW_DROP_RANGE_BASE 2 * 512) (dropS.f F.GAL_PW_DROP_RANGE_LINES 2 * 512) = true ∧
    holdsCounter (((((dropS.clear.note (some 0) true 21 none (16777216 + 0 * 65536 + 61984) (2 ^ 63 + 2 ^ 62)).setF F.GAL_PW_DROP_CTL_UNIT 2 ((2 ^ 63 + 2 ^ 62) / 2 ^ 62)).setF F.GAL_PW_DROP_CTL_COURIER 2 ((2 ^ 63 + 2 ^ 62) / 2 ^ 61)).setF F.GAL_PW_DROP_CTL_SRCCHIPS 2 ((2 ^ 63 + 2 ^ 62) / 2 ^ 32)).setF F.GAL_PW_DROP_CTL_COUNTER 2 (2 ^ 63 + 2 ^ 62)) 0 ((((((dropS.clear.note (some 0) true 21 none (16777216 + 0 * 65536 + 61984) (2 ^ 63 + 2 ^ 62)).setF F.GAL_PW_DROP_CTL_UNIT 2 ((2 ^ 63 + 2 ^ 62) / 2 ^ 62)).setF F.GAL_PW_DROP_CTL_COURIER 2 ((2 ^ 63 + 2 ^ 62) / 2 ^ 61)).setF F.GAL_PW_DROP_CTL_SRCCHIPS 2 ((2 ^ 63 + 2 ^ 62) / 2 ^ 32)).setF F.GAL_PW_DROP_CTL_COUNTER 2 (2 ^ 63 + 2 ^ 62)).f F.GAL_PW_DROP_CTL_COUNTER 2) = true ∧
    ((if dropS.fb F.GAL_FRANK_PART_EN = true then dropS.f F.GAL_FRANK_PART_BASE else (2 ^ 63 + 2 ^ 62) % 4096) ≤ if dropS.fb F.GAL_FRANK_PART_EN = true then dropS.f F.GAL_FRANK_PART_LAST else (2 ^ 63 + 2 ^ 62) / 2 ^ 16 % 4096) ∧
    (¬∃ o, o < 64 ∧ o ≠ 0 ∧ dropS.fb F.GAL_FRANK_PART_EN o = true ∧ (dropS.f F.GAL_FRANK_PART_BASE o ≤ if dropS.fb F.GAL_FRANK_PART_EN = true then dropS.f F.GAL_FRANK_PART_LAST else (2 ^ 63 + 2 ^ 62) / 2 ^ 16 % 4096) ∧ (if dropS.fb F.GAL_FRANK_PART_EN = true then dropS.f F.GAL_FRANK_PART_BASE else (2 ^ 63 + 2 ^ 62) % 4096) ≤ dropS.f F.GAL_FRANK_PART_LAST o) ∧
    inGalleryRanges (((((dropS.clear.note (some 0) true 21 none (16777216 + 0 * 65536 + 61984) (2 ^ 63 + 100)).setF F.GAL_PW_DROP_CTL_UNIT 2 ((2 ^ 63 + 100) / 2 ^ 62)).setF F.GAL_PW_DROP_CTL_COURIER 2 ((2 ^ 63 + 100) / 2 ^ 61)).setF F.GAL_PW_DROP_CTL_SRCCHIPS 2 ((2 ^ 63 + 100) / 2 ^ 32)).setF F.GAL_PW_DROP_CTL_COUNTER 2 (2 ^ 63 + 100)) 0 (dropS.f F.GAL_PW_DROP_RANGE_BASE 2 * 512) (dropS.f F.GAL_PW_DROP_RANGE_LINES 2 * 512) = true ∧
    holdsCounter (((((dropS.clear.note (some 0) true 21 none (16777216 + 0 * 65536 + 61984) (2 ^ 63 + 100)).setF F.GAL_PW_DROP_CTL_UNIT 2 ((2 ^ 63 + 100) / 2 ^ 62)).setF F.GAL_PW_DROP_CTL_COURIER 2 ((2 ^ 63 + 100) / 2 ^ 61)).setF F.GAL_PW_DROP_CTL_SRCCHIPS 2 ((2 ^ 63 + 100) / 2 ^ 32)).setF F.GAL_PW_DROP_CTL_COUNTER 2 (2 ^ 63 + 100)) 0 ((((((dropS.clear.note (some 0) true 21 none (16777216 + 0 * 65536 + 61984) (2 ^ 63 + 100)).setF F.GAL_PW_DROP_CTL_UNIT 2 ((2 ^ 63 + 100) / 2 ^ 62)).setF F.GAL_PW_DROP_CTL_COURIER 2 ((2 ^ 63 + 100) / 2 ^ 61)).setF F.GAL_PW_DROP_CTL_SRCCHIPS 2 ((2 ^ 63 + 100) / 2 ^ 32)).setF F.GAL_PW_DROP_CTL_COUNTER 2 (2 ^ 63 + 100)).f F.GAL_PW_DROP_CTL_COUNTER 2) = false ∧
    HostReady dropO ∧
    Enabled dropO 0 ∧
    2 = dropO.f F.GAL_PW_DROP_SEL_WIN ∧
    windowReplayed dropO 0 = false ∧
    (dropO.fb F.GAL_DROP_ALLOT 2 = true ∧ dropO.f F.GAL_DROP_OWNER 2 = 0) ∧
    dropO.fb F.GAL_PW_DROP_CTL_OPEN 2 = true ∧
    HostReady drop0 ∧
    Enabled drop0 0 ∧
    2 = drop0.f F.GAL_PW_DROP_SEL_WIN ∧
    windowReplayed drop0 0 = false ∧
    (drop0.fb F.GAL_DROP_ALLOT 2 = true ∧ drop0.f F.GAL_DROP_OWNER 2 = 0) ∧
    drop0.fb F.GAL_PW_DROP_CTL_OPEN 2 = false ∧
    (drop0.f F.GAL_PW_DROP_RANGE_LINES 2 * 512 = 0 ∨ inGalleryRanges (((((drop0.clear.note (some 0) true 21 none (16777216 + 0 * 65536 + 61984) (2 ^ 63 + 2 ^ 62)).setF F.GAL_PW_DROP_CTL_UNIT 2 ((2 ^ 63 + 2 ^ 62) / 2 ^ 62)).setF F.GAL_PW_DROP_CTL_COURIER 2 ((2 ^ 63 + 2 ^ 62) / 2 ^ 61)).setF F.GAL_PW_DROP_CTL_SRCCHIPS 2 ((2 ^ 63 + 2 ^ 62) / 2 ^ 32)).setF F.GAL_PW_DROP_CTL_COUNTER 2 (2 ^ 63 + 2 ^ 62)) 0 (drop0.f F.GAL_PW_DROP_RANGE_BASE 2 * 512) (drop0.f F.GAL_PW_DROP_RANGE_LINES 2 * 512) = false) ∧
    HostReady dropN ∧
    Enabled dropN 0 ∧
    2 = dropN.f F.GAL_PW_DROP_SEL_WIN ∧
    windowReplayed dropN 0 = false ∧
    (¬(dropN.fb F.GAL_DROP_ALLOT 2 = true ∧ dropN.f F.GAL_DROP_OWNER 2 = 0)) ∧
    HostReady frankOff ∧
    ((if frankOff.fb F.GAL_FRANK_PART_EN = true then frankOff.f F.GAL_FRANK_PART_BASE else (2 ^ 63 + 2 ^ 16 * 250 + 7) % 4096) ≤ if frankOff.fb F.GAL_FRANK_PART_EN = true then frankOff.f F.GAL_FRANK_PART_LAST else (2 ^ 63 + 2 ^ 16 * 250 + 7) / 2 ^ 16 % 4096) ∧
    (∃ o, o < 64 ∧ o ≠ 0 ∧ frankOff.fb F.GAL_FRANK_PART_EN o = true ∧ (frankOff.f F.GAL_FRANK_PART_BASE o ≤ if frankOff.fb F.GAL_FRANK_PART_EN = true then frankOff.f F.GAL_FRANK_PART_LAST else (2 ^ 63 + 2 ^ 16 * 250 + 7) / 2 ^ 16 % 4096) ∧ (if frankOff.fb F.GAL_FRANK_PART_EN = true then frankOff.f F.GAL_FRANK_PART_BASE else (2 ^ 63 + 2 ^ 16 * 250 + 7) % 4096) ≤ frankOff.f F.GAL_FRANK_PART_LAST o) ∧
    ((if frankOff.fb F.GAL_FRANK_PART_EN = true then frankOff.f F.GAL_FRANK_PART_LAST else (2 ^ 63 + 2 ^ 16 * 50 + 99) / 2 ^ 16 % 4096) < if frankOff.fb F.GAL_FRANK_PART_EN = true then frankOff.f F.GAL_FRANK_PART_BASE else (2 ^ 63 + 2 ^ 16 * 50 + 99) % 4096) := by
  (repeat' refine And.intro ?_ ?_) <;> decide +kernel

/-! ### Statements about stations -/

/-- Stations 0 and 1 carry a passage of queue 300; both are in state `st` with `reports`, and station 0 runs `prog`. -/
def passS (st : Nat) (r0 r1 : Bool) (fail : Option Status) (t : Stn) : State :=
  { setAll { withCmd { cmdOf (.passage false 0 1 0 64 false 0) with st := .admitted } ⟨0, 1, 0, none, none, []⟩ with units := [unitOn (.stations 0 2)] }
      [(F.STN_PSTAT_STATE, 0, st), (F.STN_PSTAT_STATE, 1, st), (F.STN_X_VALUE, 2, 7), (F.PWR_DOM_STATE, up.b.domStation 0, 3), (F.STN_PFLAGS_FLAGS, 0, 3)] with
    stns := [(0, { t with cmd := 77, npos := 2, report := r0, fail := fail }), (1, { cmd := 77, npos := 2, report := r1 })] }

/-- Station 0 runs an instruction of an opcode, with `x` in its other bits. -/
def insW (op x : Nat) : W64 := BitVec.ofNat 64 (op * 2 ^ 58 + x)
def insS (op x : Nat) (t : Stn) : State := passS 2 false false none { t with prog := [insW op x] }

/-- A started stream. -/
def strm : Strm := ⟨3, false, false, false, 0, 0, 64, 1, 0⟩

/-- XMOVI X2, −1; XADD X3, X2, 1; the last index wraps to 0 (spec/09 R251). -/
theorem test_xmovi : got (execXmovi 0 (insS 3 (2 * 2 ^ 53 + 0xFFFFFFFF) {})) (fun s => xreg s 0 2) = some 0xFFFFFFFFFFFFFFFF#64 := by decide +kernel
theorem test_xadd : got (execXadd 0 (insS 4 (3 * 2 ^ 53 + 2 * 2 ^ 49 + 2 ^ 44 + 0xFFFFFF) {})) (fun s => (xreg s 0 3, (s.stn 0).pc)) = some (6, 1) := by decide +kernel
/-- VBC copies the low 32 bits of X2 into every lane of L1 (spec/09 R254). -/
theorem test_vbc : got (execVbc 0 (insS 0x28 (2 ^ 53 + 2) {})) (fun s => lanesOf ((s.stn 0).lane 1)) = some (List.replicate 256 7) := by decide +kernel

/-- What the station's instruction gives, a waiting one its state. -/
def insU (v : State) (n : Nat) (q : QIns) : State :=
  let r : Option State := match fieldOf q.w 63 58 with
    | 0x08 => insFstart v n q
    | 0x09 => insFpop v n q.w
    | 0x0C => insEstart v n q
    | 0x0D => insEpush v n q.w
    | 0x0E => insEwait v n q.w
    | 0x10 => insTclr v n q.w
    | 0x11 => insMma v n q.w
    | 0x12 => insEmit v n q
    | 0x18 => insVarith .add v n q
    | 0x19 => insVarith .sub v n q
    | 0x1A => insVarith .mul v n q
    | 0x1B => insVfma v n q
    | 0x1C => insVminmax false v n q.w
    | 0x1D => insVminmax true v n q.w
    | 0x1E => insVcmp v n q.w
    | 0x1F => insVsel v n q.w
    | 0x20 => insVlogic Nat.land v n q.w
    | 0x21 => insVlogic Nat.lor v n q.w
    | 0x22 => insVlogic Nat.xor v n q.w
    | 0x23 => insVshl v n q.w
    | 0x24 => insVshr v n q.w
    | 0x25 => insVcvt v n q
    | 0x26 => insVfn v n q
    | 0x27 => insVsum v n q.w
    | 0x28 => insVbc v n q
    | 0x30 => insRclr v n q.w
    | 0x31 => insRadd v n q.w
    | 0x32 => insTolong v n q
    | 0x33 => insResolve v n q
    | 0x34 => insExport v n q.w
    | 0x35 => insImport v n q.w
    | _ => none
  r.getD v
/-- What the sequencer's instruction gives. -/
def seqU (v : State) (n : Nat) (w : W64) : State :=
  let r : Option State := match fieldOf w 63 58 with
    | 0x01 => insEnd v n w
    | 0x03 => insXmovi v n w
    | 0x04 => insXadd v n w
    | 0x05 => insXflg v n w
    | _ => none
  r.getD v
/-- The instruction in a unit's queue, and whether it is the next to go, none before it. -/
def headQ (s : State) : QIns := (s.stn 0).dq.headD ⟨0, 0⟩
def atInsB (s : State) (op : Nat) : Bool :=
  let v := dispatch s.clear 0
  stnLive v 0 && decide ((v.stn 0).dq = [headQ v]) && decide (fieldOf (headQ v).w 63 58 = op) && !insStalls (v.stn 0) (headQ v).w

/-- The computation decides what the statements mean by an instruction that is the next to go. -/
theorem atIns_of_atInsB {s : State} {op : Nat} (h : atInsB s op = true) :
    AtIns s 0 op (dispatch s.clear 0) [] [] (headQ (dispatch s.clear 0)) ∧ insStalls ((dispatch s.clear 0).stn 0) (headQ (dispatch s.clear 0)).w = false := by
  simp only [atInsB, Bool.and_eq_true, decide_eq_true_eq, Bool.not_eq_true'] at h
  refine ⟨⟨by decide, rfl, h.1.1.1, h.1.1.2, h.1.2, rfl, ?_⟩, h.2⟩
  intro a x b e _
  cases a <;> cases e

/-- The PASSAGE of those stations; bytes of a lane, a tile of either mode and an accumulator. -/
def passCmd : Cmd := { cmdOf (.passage false 0 1 0 64 false 0) with st := .admitted }
def laneD (k : Nat) : List Byte := (List.range 1024).map fun i => BitVec.ofNat 8 (i * 37 * k + k)
def tileD : Tile := { cells := [(0, { v := 77 }), (33, { v := -5 }), (35, { nan := true })] }
def tileW : Tile := { wide := true, cells := [(64, { wide := 9 }), (65, { wide := 3 })] }
def longD : Long := { v := 2 ^ 150 + 5, weight := 3 }
/-- Stream descriptor 0 reads 64 bytes of the gallery, 1 the store. -/
def streamsD : List W64 := [0x1000000000000000#64, 64, 0x100000000#64, 0, 0x3000000000000000#64, 64, 0x100000000#64, 0]
/-- No instruction of an opcode waits, so none goes. -/
theorem noneGoes_of_all {t : Stn} {op : Nat} {l : List QIns} (h : (l.all fun q => decide (fieldOf q.w 63 58 ≠ op)) = true) : NoneGoes t op l := by
  intro a x b e he
  subst e
  simp only [List.all_append, List.all_cons, Bool.and_eq_true, decide_eq_true_eq] at h
  exact absurd he h.2.1

/-! ### The hypotheses of each clause are met, part 20 -/

/-- What the clauses of SequencersRunTheirPrograms ask of their states and operands is met. -/
theorem test_witness_sequencers_run_their_programs_1 :
    (passageStations (passS 1 true false none { }) 0)[0]? = some 0 ∧
    (passS 1 true false none { }).f F.STN_PSTAT_STATE = 1 ∧
    ((passS 1 true false none { }).stn 0).report = true ∧
    (∀ (j : Nat), j ∈ passageStations (passS 1 true false none { }) 0 → j ≠ 0 → (passS 1 true false none { }).f F.STN_PSTAT_STATE j = 1 ∧ ((passS 1 true false none { }).stn j).report = false) ∧
    (∀ (m : Nat), m ∈ passageStations (passS 1 true false none { }) 0 → ((passS 1 true false none { }).stn m).fail = none) ∧
    stnLive (passS 1 true false none { }) 0 = false ∧
    (passageStations (passS 1 true true none { }) 0)[0]? = some 0 ∧
    (passS 1 true true none { }).f F.STN_PSTAT_STATE = 1 ∧
    ((passS 1 true true none { }).stn 0).report = true ∧
    (∃ j, j ∈ passageStations (passS 1 true true none { }) 0 ∧ j ≠ 0 ∧ ((passS 1 true true none { }).stn j).report = true) ∧
    (passageStations (passS 4 true false none { }) 0)[0]? = some 0 ∧
    passageAt (passS 4 true false none { }) 0 = some 77 ∧
    (passS 4 true false none { }).cmd? 77 = some passCmd ∧
    cbufFull (passS 4 true false none { }) passCmd.q = false ∧
    (passS 4 true false none { }).f F.STN_PSTAT_STATE = 4 ∧
    ((passS 4 true false none { }).stn 0).report = true ∧
    (∀ (j : Nat), j ∈ passageStations (passS 4 true false none { }) 0 → j ≠ 0 → (passS 4 true false none { }).f F.STN_PSTAT_STATE j = 4 ∧ ((passS 4 true false none { }).stn j).report = false) ∧
    (passageStations (passS 4 true true none { }) 0)[0]? = some 0 ∧
    passageAt (passS 4 true true none { }) 0 = some 77 ∧
    (passS 4 true true none { }).cmd? 77 = some passCmd ∧
    cbufFull (passS 4 true true none { }) passCmd.q = false ∧
    (passS 4 true true none { }).f F.STN_PSTAT_STATE = 4 ∧
    ((passS 4 true true none { }).stn 0).report = true ∧
    (∃ j, j ∈ passageStations (passS 4 true true none { }) 0 ∧ j ≠ 0 ∧ ((passS 4 true true none { }).stn j).report = true) ∧
    (List.find? (fun n => ((passS 2 false false (some Status.uncorrected) { }).stn n).fail.isSome) (passageStations (passS 2 false false (some Status.uncorrected) { }) 0) = some 0) ∧
    passageAt (passS 2 false false (some Status.uncorrected) { }) 0 = some 77 ∧
    (passS 2 false false (some Status.uncorrected) { }).cmd? 77 = some passCmd ∧
    (passS 2 false false (some Status.uncorrected) { }).verdict ((passS 2 false false (some Status.uncorrected) { }).qPart passCmd.q) (some passCmd.q) (LbKey.queue passCmd.q) = Verdict.free ∧
    stnLive (insS 0 0 { }) 0 = true ∧
    ((((dispatch (insS 0 0 { }).clear 0).stn 0).dq.all fun q => decide (fieldOf q.w 63 58 ≠ 40)) = true) ∧
    ((stnIns (dispatch (insS 0 0 { }).clear 0) 0).map (fun w => fieldOf w 63 58) = some 0) ∧
    stnLive (insS 1 0 { }) 0 = true ∧
    (Option.map (fun w => fieldOf w 63 58) (stnIns (dispatch (insS 1 0 { }).clear 0) 0) ≠ some (0, Instr.stnNop 0).fst) ∧
    ((stnIns (dispatch (insS 1 0 { }).clear 0) 0).map (fun w => fieldOf w 63 58) = some 1) ∧
    ((dispatch (insS 1 0 { }).clear 0).stn 0).dq = [] ∧
    ((dispatch (insS 1 0 { }).clear 0).stn 0).push = [] ∧
    ((dispatch (insS 1 0 { }).clear 0).stn 0).s0 = [] ∧
    ((dispatch (insS 1 0 { }).clear 0).stn 0).s1 = [] ∧
    ((dispatch (insS 1 0 { }).clear 0).stn 0).se = [] ∧
    ((stnIns (dispatch (insS 1 0 { se := [strm] }).clear 0) 0).map (fun w => fieldOf w 63 58) = some 1) ∧
    (((dispatch (insS 1 0 { se := [strm] }).clear 0).stn 0).dq ≠ [] ∨ ((dispatch (insS 1 0 { se := [strm] }).clear 0).stn 0).push ≠ [] ∨ ((dispatch (insS 1 0 { se := [strm] }).clear 0).stn 0).s0 ≠ [] ∨ ((dispatch (insS 1 0 { se := [strm] }).clear 0).stn 0).s1 ≠ [] ∨ ((dispatch (insS 1 0 { se := [strm] }).clear 0).stn 0).se ≠ []) ∧
    ((stnIns (dispatch (insS 2 343798710272 { }).clear 0) 0).map (fun w => fieldOf w 63 58) = some 2) ∧
    ((stnIns (dispatch (insS 3 18014402804449279 { }).clear 0) 0).map (fun w => fieldOf w 63 58) = some 3) ∧
    0 ≠ iD ((stnIns (dispatch (insS 3 18014402804449279 { }).clear 0) 0).getD 0) ∧
    ((stnIns (dispatch (insS 4 28165089873887231 { }).clear 0) 0).map (fun w => fieldOf w 63 58) = some 4) := by
  (repeat' refine And.intro ?_ ?_) <;> decide +kernel

/-- What the clauses of SequencersRunTheirPrograms ask of their states and operands is met. -/
theorem test_witness_sequencers_run_their_programs_2 :
    0 ≠ iD ((stnIns (dispatch (insS 4 28165089873887231 { }).clear 0) 0).getD 0) ∧
    ((stnIns (dispatch (insS 5 18014398509481984 { }).clear 0) 0).map (fun w => fieldOf w 63 58) = some 5) ∧
    ((dispatch (insS 5 18014398509481984 { }).clear 0).stn 0).dq = [] ∧
    ((dispatch (insS 5 18014398509481984 { }).clear 0).stn 0).push = [] ∧
    0 ≠ iD ((stnIns (dispatch (insS 5 18014398509481984 { }).clear 0) 0).getD 0) ∧
    ((stnIns (dispatch (insS 5 18014398509481984 { push := [1] }).clear 0) 0).map (fun w => fieldOf w 63 58) = some 5) ∧
    (((dispatch (insS 5 18014398509481984 { push := [1] }).clear 0).stn 0).dq ≠ [] ∨ ((dispatch (insS 5 18014398509481984 { push := [1] }).clear 0).stn 0).push ≠ []) ∧
    atInsB (insS 8 0 { sd := streamsD }) 8 = true ∧
    atInsB (insS 12 0 { sd := streamsD }) 12 = true ∧
    atInsB (insS 9 31525197391593472 { f0 := List.replicate 1024 5 }) 9 = true ∧
    0 ≠ iD (headQ (dispatch (insS 9 31525197391593472 { f0 := List.replicate 1024 5 }).clear 0)).w ∧
    atInsB (insS 13 562949953421315 { l := [(2, List.replicate 1024 7)] }) 13 = true ∧
    atInsB (insS 14 0 { }) 14 = true := by
  (repeat' refine And.intro ?_ ?_) <;> decide +kernel

/-- What the clauses of VectorInstructionsWriteEveryLane ask of their states and operands is met. -/
theorem test_witness_vector_instructions_write_every_lane_1 :
    atInsB (insS 24 9015995347763200 { l := [(0, laneD 3), (1, laneD 77), (2, laneD 1000)] }) 24 = true ∧
    0 ≠ iD (headQ (dispatch (insS 24 9015995347763200 { l := [(0, laneD 3), (1, laneD 77), (2, laneD 1000)] }).clear 0)).w ∧
    2 ^ 31 ≤ (BitVec.ofNat 32 2147483647).toInt + (BitVec.ofNat 32 1).toInt ∧
    -2 ^ 31 ≤ (BitVec.ofNat 32 2147483647).toInt + (BitVec.ofNat 32 4294967295).toInt ∧
    (BitVec.ofNat 32 2147483647).toInt + (BitVec.ofNat 32 4294967295).toInt < 2 ^ 31 ∧
    atInsB (insS 25 9015995347763200 { l := [(0, laneD 3), (1, laneD 77), (2, laneD 1000)] }) 25 = true ∧
    0 ≠ iD (headQ (dispatch (insS 25 9015995347763200 { l := [(0, laneD 3), (1, laneD 77), (2, laneD 1000)] }).clear 0)).w ∧
    atInsB (insS 26 9015995347763200 { l := [(0, laneD 3), (1, laneD 77), (2, laneD 1000)] }) 26 = true ∧
    0 ≠ iD (headQ (dispatch (insS 26 9015995347763200 { l := [(0, laneD 3), (1, laneD 77), (2, laneD 1000)] }).clear 0)).w ∧
    atInsB (insS 27 9016545103577088 { l := [(0, laneD 3), (1, laneD 77), (2, laneD 1000)] }) 27 = true ∧
    0 ≠ iD (headQ (dispatch (insS 27 9016545103577088 { l := [(0, laneD 3), (1, laneD 77), (2, laneD 1000)] }).clear 0)).w ∧
    atInsB (insS 28 9015995347763200 { l := [(0, laneD 3), (1, laneD 77), (2, laneD 1000)] }) 28 = true ∧
    0 ≠ iD (headQ (dispatch (insS 28 9015995347763200 { l := [(0, laneD 3), (1, laneD 77), (2, laneD 1000)] }).clear 0)).w ∧
    atInsB (insS 29 9015995347763200 { l := [(0, laneD 3), (1, laneD 77), (2, laneD 1000)] }) 29 = true ∧
    0 ≠ iD (headQ (dispatch (insS 29 9015995347763200 { l := [(0, laneD 3), (1, laneD 77), (2, laneD 1000)] }).clear 0)).w ∧
    atInsB (insS 30 9015995347763200 { l := [(0, laneD 3), (1, laneD 77), (2, laneD 1000)] }) 30 = true ∧
    0 ≠ iD (headQ (dispatch (insS 30 9015995347763200 { l := [(0, laneD 3), (1, laneD 77), (2, laneD 1000)] }).clear 0)).w ∧
    atInsB (insS 31 9016545103577088 { l := [(0, laneD 3), (1, laneD 77), (2, laneD 1000)] }) 31 = true ∧
    0 ≠ iD (headQ (dispatch (insS 31 9016545103577088 { l := [(0, laneD 3), (1, laneD 77), (2, laneD 1000)] }).clear 0)).w ∧
    atInsB (insS 32 9015995347763200 { l := [(0, laneD 3), (1, laneD 77), (2, laneD 1000)] }) 32 = true ∧
    0 ≠ iD (headQ (dispatch (insS 32 9015995347763200 { l := [(0, laneD 3), (1, laneD 77), (2, laneD 1000)] }).clear 0)).w ∧
    atInsB (insS 33 9015995347763200 { l := [(0, laneD 3), (1, laneD 77), (2, laneD 1000)] }) 33 = true ∧
    0 ≠ iD (headQ (dispatch (insS 33 9015995347763200 { l := [(0, laneD 3), (1, laneD 77), (2, laneD 1000)] }).clear 0)).w ∧
    atInsB (insS 34 9015995347763200 { l := [(0, laneD 3), (1, laneD 77), (2, laneD 1000)] }) 34 = true ∧
    0 ≠ iD (headQ (dispatch (insS 34 9015995347763200 { l := [(0, laneD 3), (1, laneD 77), (2, laneD 1000)] }).clear 0)).w ∧
    atInsB (insS 35 9007199254740992 { l := [(0, laneD 3), (1, laneD 77), (2, laneD 1000)] }) 35 = true ∧
    0 ≠ iD (headQ (dispatch (insS 35 9007199254740992 { l := [(0, laneD 3), (1, laneD 77), (2, laneD 1000)] }).clear 0)).w ∧
    atInsB (insS 36 9007199254740992 { l := [(0, laneD 3), (1, laneD 77), (2, laneD 1000)] }) 36 = true ∧
    iMod (headQ (dispatch (insS 36 9007199254740992 { l := [(0, laneD 3), (1, laneD 77), (2, laneD 1000)] }).clear 0)).w / 32 % 2 = 0 ∧
    0 ≠ iD (headQ (dispatch (insS 36 9007199254740992 { l := [(0, laneD 3), (1, laneD 77), (2, laneD 1000)] }).clear 0)).w ∧
    atInsB (insS 36 9007199254741024 { l := [(0, laneD 3), (1, laneD 77), (2, laneD 1000)] }) 36 = true ∧
    iMod (headQ (dispatch (insS 36 9007199254741024 { l := [(0, laneD 3), (1, laneD 77), (2, laneD 1000)] }).clear 0)).w / 32 % 2 = 1 ∧
    0 ≠ iD (headQ (dispatch (insS 36 9007199254741024 { l := [(0, laneD 3), (1, laneD 77), (2, laneD 1000)] }).clear 0)).w ∧
    atInsB (insS 37 9007199254740993 { l := [(0, laneD 3), (1, laneD 77), (2, laneD 1000)] }) 37 = true ∧
    iMod (headQ (dispatch (insS 37 9007199254740993 { l := [(0, laneD 3), (1, laneD 77), (2, laneD 1000)] }).clear 0)).w < 16 ∧
    iFmt (headQ (dispatch (insS 37 9007199254740993 { l := [(0, laneD 3), (1, laneD 77), (2, laneD 1000)] }).clear 0)).w < 16 ∧
    0 ≠ iD (headQ (dispatch (insS 37 9007199254740993 { l := [(0, laneD 3), (1, laneD 77), (2, laneD 1000)] }).clear 0)).w ∧
    atInsB (insS 37 9024928879738880 { l := [(0, laneD 3), (1, laneD 77), (2, laneD 1000)] }) 37 = true ∧
    iMod (headQ (dispatch (insS 37 9024928879738880 { l := [(0, laneD 3), (1, laneD 77), (2, laneD 1000)] }).clear 0)).w < 16 ∧
    16 ≤ iFmt (headQ (dispatch (insS 37 9024928879738880 { l := [(0, laneD 3), (1, laneD 77), (2, laneD 1000)] }).clear 0)).w ∧
    0 ≠ iD (headQ (dispatch (insS 37 9024928879738880 { l := [(0, laneD 3), (1, laneD 77), (2, laneD 1000)] }).clear 0)).w ∧
    atInsB (insS 37 9007749010554896 { l := [(0, laneD 3), (1, laneD 77), (2, laneD 1000)] }) 37 = true ∧
    16 ≤ iMod (headQ (dispatch (insS 37 9007749010554896 { l := [(0, laneD 3), (1, laneD 77), (2, laneD 1000)] }).clear 0)).w ∧
    iC (headQ (dispatch (insS 37 9007749010554896 { l := [(0, laneD 3), (1, laneD 77), (2, laneD 1000)] }).clear 0)).w ≠ iD (headQ (dispatch (insS 37 9007749010554896 { l := [(0, laneD 3), (1, laneD 77), (2, laneD 1000)] }).clear 0)).w ∧
    0 ≠ iD (headQ (dispatch (insS 37 9007749010554896 { l := [(0, laneD 3), (1, laneD 77), (2, laneD 1000)] }).clear 0)).w := by
  (repeat' refine And.intro ?_ ?_) <;> decide +kernel

/-- What the clauses of VectorInstructionsWriteEveryLane ask of their states and operands is met. -/
theorem test_witness_vector_instructions_write_every_lane_2 :
    0 ≠ iC (headQ (dispatch (insS 37 9007749010554896 { l := [(0, laneD 3), (1, laneD 77), (2, laneD 1000)] }).clear 0)).w ∧
    atInsB (insS 38 9007199254740992 { l := [(0, laneD 3), (1, laneD 77), (2, laneD 1000)] }) 38 = true ∧
    0 ≠ iD (headQ (dispatch (insS 38 9007199254740992 { l := [(0, laneD 3), (1, laneD 77), (2, laneD 1000)] }).clear 0)).w ∧
    atInsB (insS 39 9007199254740992 { l := [(0, laneD 3), (1, laneD 77), (2, laneD 1000)] }) 39 = true ∧
    0 ≠ iD (headQ (dispatch (insS 39 9007199254740992 { l := [(0, laneD 3), (1, laneD 77), (2, laneD 1000)] }).clear 0)).w ∧
    atInsB (insS 40 9007199254740994 { l := [(0, laneD 3), (1, laneD 77), (2, laneD 1000)] }) 40 = true ∧
    0 ≠ iD (headQ (dispatch (insS 40 9007199254740994 { l := [(0, laneD 3), (1, laneD 77), (2, laneD 1000)] }).clear 0)).w := by
  (repeat' refine And.intro ?_ ?_) <;> decide +kernel

/-- What the clauses of TilesAndAccumulatorsTakeTheirSums ask of their states and operands is met. -/
theorem test_witness_tiles_and_accumulators_take_their_sums :
    atInsB (insS 16 54219117388890112 { tiles := [(1, tileD)], w := [(1, longD), (5, longD)] }) 16 = true ∧
    0 ≠ iT (headQ (dispatch (insS 16 54219117388890112 { tiles := [(1, tileD)], w := [(1, longD), (5, longD)] }).clear 0)).w ∧
    [FV.fin false 3 0, FV.fin true 5 2].Perm [FV.fin true 5 2, FV.fin false 3 0] ∧
    longD.weight + [FV.fin false 3 0, FV.fin true 5 2].length ≤ 2 ^ 58 ∧
    atInsB (insS 17 54606145482915840 { tiles := [(1, tileD)], w := [(1, longD), (5, longD)] }) 17 = true ∧
    ((mmaTake ((dispatch (insS 17 54606145482915840 { tiles := [(1, tileD)], w := [(1, longD), (5, longD)] }).clear 0).stn 0) (headQ (dispatch (insS 17 54606145482915840 { tiles := [(1, tileD)], w := [(1, longD), (5, longD)] }).clear 0)).w).st0.length < mmaNeed (headQ (dispatch (insS 17 54606145482915840 { tiles := [(1, tileD)], w := [(1, longD), (5, longD)] }).clear 0)).w 0 ∨ (mmaTake ((dispatch (insS 17 54606145482915840 { tiles := [(1, tileD)], w := [(1, longD), (5, longD)] }).clear 0).stn 0) (headQ (dispatch (insS 17 54606145482915840 { tiles := [(1, tileD)], w := [(1, longD), (5, longD)] }).clear 0)).w).st1.length < mmaNeed (headQ (dispatch (insS 17 54606145482915840 { tiles := [(1, tileD)], w := [(1, longD), (5, longD)] }).clear 0)).w 1) ∧
    atInsB (insS 17 36063981392101376 { l := [(0, laneD 3), (1, laneD 77), (2, laneD 1000)], tiles := [(1, tileD)], w := [(1, longD), (5, longD)] }) 17 = true ∧
    mmaNeed (headQ (dispatch (insS 17 36063981392101376 { l := [(0, laneD 3), (1, laneD 77), (2, laneD 1000)], tiles := [(1, tileD)], w := [(1, longD), (5, longD)] }).clear 0)).w 0 ≤ (mmaTake ((dispatch (insS 17 36063981392101376 { l := [(0, laneD 3), (1, laneD 77), (2, laneD 1000)], tiles := [(1, tileD)], w := [(1, longD), (5, longD)] }).clear 0).stn 0) (headQ (dispatch (insS 17 36063981392101376 { l := [(0, laneD 3), (1, laneD 77), (2, laneD 1000)], tiles := [(1, tileD)], w := [(1, longD), (5, longD)] }).clear 0)).w).st0.length ∧
    mmaNeed (headQ (dispatch (insS 17 36063981392101376 { l := [(0, laneD 3), (1, laneD 77), (2, laneD 1000)], tiles := [(1, tileD)], w := [(1, longD), (5, longD)] }).clear 0)).w 1 ≤ (mmaTake ((dispatch (insS 17 36063981392101376 { l := [(0, laneD 3), (1, laneD 77), (2, laneD 1000)], tiles := [(1, tileD)], w := [(1, longD), (5, longD)] }).clear 0).stn 0) (headQ (dispatch (insS 17 36063981392101376 { l := [(0, laneD 3), (1, laneD 77), (2, laneD 1000)], tiles := [(1, tileD)], w := [(1, longD), (5, longD)] }).clear 0)).w).st1.length ∧
    0 ≠ iT (headQ (dispatch (insS 17 36063981392101376 { l := [(0, laneD 3), (1, laneD 77), (2, laneD 1000)], tiles := [(1, tileD)], w := [(1, longD), (5, longD)] }).clear 0)).w ∧
    atInsB (insS 18 36028797018963968 { l := [(0, laneD 3), (1, laneD 77), (2, laneD 1000)], tiles := [(1, tileD)], w := [(1, longD), (5, longD)] }) 18 = true ∧
    (BitVec.toNat (headQ (dispatch (insS 18 36028797018963968 { l := [(0, laneD 3), (1, laneD 77), (2, laneD 1000)], tiles := [(1, tileD)], w := [(1, longD), (5, longD)] }).clear 0)).w).testBit 54 = false ∧
    (15 < fieldOf (headQ (dispatch (insS 18 36028797018963968 { l := [(0, laneD 3), (1, laneD 77), (2, laneD 1000)], tiles := [(1, tileD)], w := [(1, longD), (5, longD)] }).clear 0)).w 52 49 ∨ fieldOf (headQ (dispatch (insS 18 36028797018963968 { l := [(0, laneD 3), (1, laneD 77), (2, laneD 1000)], tiles := [(1, tileD)], w := [(1, longD), (5, longD)] }).clear 0)).w 52 49 + 4 ≤ 15) ∧
    atInsB (insS 18 54043195528445952 { l := [(0, laneD 3), (1, laneD 77), (2, laneD 1000)], tiles := [(1, tileD)], w := [(1, longD), (5, longD)] }) 18 = true ∧
    (BitVec.toNat (headQ (dispatch (insS 18 54043195528445952 { l := [(0, laneD 3), (1, laneD 77), (2, laneD 1000)], tiles := [(1, tileD)], w := [(1, longD), (5, longD)] }).clear 0)).w).testBit 54 = true ∧
    atInsB (insS 48 9620726743040 { tiles := [(1, tileD)], w := [(1, longD), (5, longD)] }) 48 = true ∧
    iB (headQ (dispatch (insS 48 9620726743040 { tiles := [(1, tileD)], w := [(1, longD), (5, longD)] }).clear 0)).w ≤ 1 ∧
    1 ≤ iB (headQ (dispatch (insS 48 9620726743040 { tiles := [(1, tileD)], w := [(1, longD), (5, longD)] }).clear 0)).w + iC (headQ (dispatch (insS 48 9620726743040 { tiles := [(1, tileD)], w := [(1, longD), (5, longD)] }).clear 0)).w ∧
    (0 < iB (headQ (dispatch (insS 48 9620726743040 { tiles := [(1, tileD)], w := [(1, longD), (5, longD)] }).clear 0)).w ∨ iB (headQ (dispatch (insS 48 9620726743040 { tiles := [(1, tileD)], w := [(1, longD), (5, longD)] }).clear 0)).w + iC (headQ (dispatch (insS 48 9620726743040 { tiles := [(1, tileD)], w := [(1, longD), (5, longD)] }).clear 0)).w < 0) ∧
    atInsB (insS 49 8796093022209 { l := [(0, laneD 3), (1, laneD 77), (2, laneD 1000)], tiles := [(1, tileD)], w := [(1, longD), (5, longD)] }) 49 = true ∧
    iMod (headQ (dispatch (insS 49 8796093022209 { l := [(0, laneD 3), (1, laneD 77), (2, laneD 1000)], tiles := [(1, tileD)], w := [(1, longD), (5, longD)] }).clear 0)).w % 2 = 1 ∧
    0 ≠ iB (headQ (dispatch (insS 49 8796093022209 { l := [(0, laneD 3), (1, laneD 77), (2, laneD 1000)], tiles := [(1, tileD)], w := [(1, longD), (5, longD)] }).clear 0)).w ∧
    atInsB (insS 49 8589934592 { l := [(0, laneD 3), (1, laneD 77), (2, laneD 1000)], tiles := [(1, tileD)], w := [(1, longD), (5, longD)] }) 49 = true ∧
    iMod (headQ (dispatch (insS 49 8589934592 { l := [(0, laneD 3), (1, laneD 77), (2, laneD 1000)], tiles := [(1, tileD)], w := [(1, longD), (5, longD)] }).clear 0)).w % 2 = 0 ∧
    atInsB (insS 50 36873221949095936 { tiles := [(1, tileD)], w := [(1, longD), (5, longD)] }) 50 = true ∧
    atInsB (insS 51 9017094859390984 { l := [(0, laneD 3), (1, laneD 77), (2, laneD 1000)], tiles := [(1, tileD)], w := [(1, longD), (5, longD)] }) 51 = true ∧
    0 ≠ iD (headQ (dispatch (insS 51 9017094859390984 { l := [(0, laneD 3), (1, laneD 77), (2, laneD 1000)], tiles := [(1, tileD)], w := [(1, longD), (5, longD)] }).clear 0)).w ∧
    atInsB (insS 52 9070970929152 { tiles := [(1, tileD)], w := [(1, longD), (5, longD)] }) 52 = true ∧
    atInsB (insS 53 4512670598299648 { tiles := [(1, tileD)], w := [(1, longD), (5, longD)], f0 := laneD 9 }) 53 = true ∧
    (0 < iB (headQ (dispatch (insS 53 4512670598299648 { tiles := [(1, tileD)], w := [(1, longD), (5, longD)], f0 := laneD 9 }).clear 0)).w ∨ iB (headQ (dispatch (insS 53 4512670598299648 { tiles := [(1, tileD)], w := [(1, longD), (5, longD)], f0 := laneD 9 }).clear 0)).w + iC (headQ (dispatch (insS 53 4512670598299648 { tiles := [(1, tileD)], w := [(1, longD), (5, longD)], f0 := laneD 9 }).clear 0)).w < 0) ∧
    0 < iC (headQ (dispatch (insS 53 4512670598299648 { tiles := [(1, tileD)], w := [(1, longD), (5, longD)], f0 := laneD 9 }).clear 0)).w + 1 := by
  (repeat' refine And.intro ?_ ?_) <;> decide +kernel

/-! ### Statements about translation -/

/-- An invalidation of context 5, at a step, of partition 0's window. -/
def inv5 (st : Nat) (ports : List Nat) : Inv := ⟨3, 5, 0, 0, 0, 0x1000, none, some 0, st, ports, 0, 1, []⟩
def invS (st : Nat) (ports : List Nat) : State := { up with time := 1000000, xlt := { invs := [inv5 st ports] } }

/-- An access of a command whose translation has ended in a page fault. -/
def pfS : State :=
  let o := { mkOp (.ld 77) ⟨0, some 5, false⟩ 112 .va 0x1000 8 false [] with id := 1, fail := some ⟨.notPresent, 0, 0x1000, false, true, 0⟩, cur := 8 }
  { withCmd (cmdOf (.ld false 4 3 0 1)) ⟨0, 1, 0, none, none, []⟩ with ops := [o] }
/-- A command of queue 300 that is set aside. -/
def asideC : Cmd := { cmdOf (.ld false 4 3 0 1) with st := .aside 0 }
def asideS : State := { setAll (withCmd asideC ⟨0, 1, 0, none, none, []⟩) [(F.XLT_PFCFG_LIMIT, 0, 1)] with time := 1000000 }
/-- Queue 300 uses context 5; notices; access counters that decay each millisecond. -/
def ctxUsed : State := qIn .active
def ctxOff : State := up.setF F.XLT_CTX_EN 5 0
def notesS (l : List Nat) : State := { up with xlt := { notes := l } }
def decayS : State := { up.setF F.XLT_ACNT_CFG_DECAY 0 1 with time := 1000000, xlt := { acnt := [(3, 7), (9, 1)] } }
/-- Engine port 1's unit, its command held for a fault record. -/
def engHeld : State := { engS with flt := { recs := [⟨4, 0, [], some 77, none, false, none, false, some 5⟩] } }
/-- An invalidation of a range, of a segment; cached entries of contexts 5 and 6; buffers of engines. -/
def tlb (ctx va : Nat) : Tlb := ⟨ctx, 0, va, 4096, va, true, true, 0, false, 0, none, 1⟩
def cachedS (i : Inv) : State := { up with xlt := { stc := [tlb 5 0x1000, tlb 5 0x9000, tlb 6 0x1000], etb := [(1, [tlb 5 0x1000, tlb 6 0x1000])], held := [(1, [5, 6])], invs := [i] } }
def inv5r : Inv := { inv5 0 [] with scope := 2, start := 0x1000, len := 0x1000 }
def goBusy : State := up.setF F.XLT_PW_INV_CTL_BUSY 0 1
def inv5s : Inv := { inv5 0 [] with scope := 1, seg := 2 }
def segS : State := { up with xlt := { invs := [inv5s] } }
def manyInv : State := { up with xlt := { invs := (List.range 16).map (fun k => { inv5 3 [] with id := 100 + k, ctx := 10 + k }) ++ [inv5 0 []] } }
/-- An invalidation that an XINVAL made. -/
def inv5c : Inv := { inv5 3 [] with cmd := some 77, pw := none }
def invC : State := { withCmd (cmdOf (.xinval 0 0 5 0 0)) ⟨0, 1, 0, none, none, []⟩ with xlt := { invs := [inv5c] } }
/-- A port that has not drained, with a unit and without. -/
def invU : State := { invS 3 [1] with units := [unitOn (.port 1)], cmds := engS.cmds }
/-- A queue with a fetch set aside; one that a replay run makes. -/
def asideF (t : Nat) : State := { setAll (upQ { st := .active, descs := [desc 1], asideFetch := some t }) [(F.XLT_PFCFG_LIMIT, 0, 1)] with time := 1000000 }
def tlbE : Tlb := { tlb 5 0x9000 with epoch := 1 }
/-- Partition 1 is ENABLED too. -/
def up2 : State := up.setF F.PRT_STAT_STATE 1 1

/-! ### The hypotheses of each clause are met, part 24 -/

/-- What the clauses of EngineTranslationsAndContexts ask of their states and operands is met. -/
theorem test_witness_engine_translations_and_contexts :
    engS.ctlOn = true ∧
    engS.flt.halt < 6 ∧
    1 < engS.b.eports ∧
    unitByTag engS 1 9 = some (unitOn (Place.port 1)) ∧
    engS.qCtx (unitOn (Place.port 1)).q = 5 ∧
    engS.cmdHeld (unitOn (Place.port 1)).cmd = false ∧
    HostReady engS ∧
    (¬((2 ^ 63 + 7) / 2 ^ 63 % 2 = 0 ∧ engS.fb F.XLT_CTX_EN 5 = true ∧ ∃ e, e ∈ engS.qs ∧ e.snd.st ≠ QState.disabled ∧ engS.qCtx e.fst = 5)) ∧
    (engS.f F.XLT_ACNT_CFG_DECAY * 1000000 = 0 ∨ engS.time < engS.xlt.decayAt + engS.f F.XLT_ACNT_CFG_DECAY * 1000000) ∧
    (5 / 2 ^ 63 % 2 = 0 ∧ engS.fb F.XLT_CTX_EN 5 = true ∧ ∃ e, e ∈ engS.qs ∧ e.snd.st ≠ QState.disabled ∧ engS.qCtx e.fst = 5) ∧
    (∀ (u : Wunit), unitByTag engS 1 9 = some u → engS.qCtx u.q ≠ 6) ∧
    engHeld.ctlOn = true ∧
    engHeld.flt.halt < 6 ∧
    1 < engHeld.b.eports ∧
    unitByTag engHeld 1 9 = some (unitOn (Place.port 1)) ∧
    engHeld.qCtx (unitOn (Place.port 1)).q = 5 ∧
    engHeld.cmdHeld (unitOn (Place.port 1)).cmd = true ∧
    decayS.ctlOn = true ∧
    decayS.f F.XLT_ACNT_CFG_DECAY * 1000000 ≠ 0 ∧
    decayS.xlt.decayAt + decayS.f F.XLT_ACNT_CFG_DECAY * 1000000 ≤ decayS.time := by
  (repeat' refine And.intro ?_ ?_) <;> decide +kernel

/-- What the clauses of InvalidationsDrainAndPageFaultsResume ask of their states and operands is met. -/
theorem test_witness_invalidations_drain_and_page_faults_resume_1 :
    HostReady up ∧
    Enabled up 0 ∧
    hostOk up = true ∧
    up.fb F.XLT_PW_INV_CTL_BUSY = false ∧
    (¬(up.f F.XLT_CTX_PART ((2 ^ 63 + 5) % 1024) ≠ 0 ∨ (2 ^ 63 + 5) / 2 ^ 16 % 4 = 3 ∨ (2 ^ 63 + 5) / 2 ^ 16 % 4 = 2 ∧ (up.f F.XLT_PW_INV_START_START % 4096 ≠ 0 ∨ up.f F.XLT_PW_INV_LEN_LENGTH % 4096 ≠ 0 ∨ up.f F.XLT_PW_INV_LEN_LENGTH = 0))) ∧
    up.ctlOn = true ∧
    up.halted = false ∧
    (16 ≤ (List.filter (fun x => x.step != 0) up.xlt.invs).length ∨ List.find? (fun x => x.step == 0 && !(List.filter (fun x => x.step != 0) up.xlt.invs).any fun w => w.ctx == x.ctx) up.xlt.invs = none) ∧
    1 < up.b.eports ∧
    ((up.xlt.invs.any fun x => x.ctx == 5 && x.step == 3 && x.epoch == 1 && x.ports.contains 1) = false) ∧
    (up.f F.XLT_CTX_PART ((2 ^ 63 + 2 ^ 16 * 2 + 5) % 1024) ≠ 0 ∨ (2 ^ 63 + 2 ^ 16 * 2 + 5) / 2 ^ 16 % 4 = 3 ∨ (2 ^ 63 + 2 ^ 16 * 2 + 5) / 2 ^ 16 % 4 = 2 ∧ (up.f F.XLT_PW_INV_START_START % 4096 ≠ 0 ∨ up.f F.XLT_PW_INV_LEN_LENGTH % 4096 ≠ 0 ∨ up.f F.XLT_PW_INV_LEN_LENGTH = 0)) ∧
    HostReady goBusy ∧
    Enabled goBusy 0 ∧
    hostOk goBusy = true ∧
    goBusy.fb F.XLT_PW_INV_CTL_BUSY = true ∧
    List.find? isPageFault up.ops = none ∧
    up.qPart ((2 ^ 63 + 5) % 4096) = 0 ∧
    inputsReplayed up ((2 ^ 63 + 5) % 4096) = false ∧
    up.f F.XLT_PFCFG_LIMIT * 1000000 ≠ 0 ∧
    (((List.foldl (fun e c => match c.st with | CmdSt.aside t => if t + up.f F.XLT_PFCFG_LIMIT * 1000000 ≤ e.time then failCmd e c else e | x => e) up.clear (asides up 0)).q 0).asideFetch = none) ∧
    (cachedS (inv5 0 [])).ctlOn = true ∧
    (cachedS (inv5 0 [])).halted = false ∧
    ((List.filter (fun x => x.step != 0) (cachedS (inv5 0 [])).xlt.invs).length < 16) ∧
    (List.find? (fun x => x.step == 0 && !(List.filter (fun x => x.step != 0) (cachedS (inv5 0 [])).xlt.invs).any fun w => w.ctx == x.ctx) (cachedS (inv5 0 [])).xlt.invs = some (inv5 0 [])) ∧
    (inv5 0 []).scope ≠ 1 ∧
    (tlb 6 4096).ctx ≠ (inv5 0 []).ctx ∧
    (1, [tlb 6 4096]) ∈ (unNext (exec Instr.invalidationBegin (cachedS (inv5 0 []))) (cachedS (inv5 0 []))).xlt.etb ∧
    tlb 6 4096 ∈ (1, [tlb 6 4096]).snd ∧
    (List.find? (fun x => x.id == 3) (cachedS (inv5 0 [])).xlt.invs = some (inv5 0 [])) ∧
    invReady (cachedS (inv5 0 [])) (inv5 0 []) = false ∧
    (¬((inv5 0 []).step = 3 ∧ (inv5 0 []).ports.contains 1 = true ∧ (inv5 0 []).since + max 1 ((cachedS (inv5 0 [])).f F.XLT_INVCFG_ELIMIT) * 1000 ≤ (cachedS (inv5 0 [])).time ∧ (List.any (cachedS (inv5 0 [])).sch.resets fun e => e.fst == 1) = false)) ∧
    (cachedS inv5r).ctlOn = true ∧
    (cachedS inv5r).halted = false ∧
    ((List.filter (fun x => x.step != 0) (cachedS inv5r).xlt.invs).length < 16) ∧
    (List.find? (fun x => x.step == 0 && !(List.filter (fun x => x.step != 0) (cachedS inv5r).xlt.invs).any fun w => w.ctx == x.ctx) (cachedS inv5r).xlt.invs = some inv5r) ∧
    inv5r.scope ≠ 1 ∧
    tlbE ∈ (unNext (exec Instr.invalidationBegin (cachedS inv5r)) (cachedS inv5r)).xlt.stc ∧
    tlbE.ctx = inv5r.ctx ∧
    segS.ctlOn = true ∧
    segS.halted = false ∧
    ((List.filter (fun x => x.step != 0) segS.xlt.invs).length < 16) ∧
    (List.find? (fun x => x.step == 0 && !(List.filter (fun x => x.step != 0) segS.xlt.invs).any fun w => w.ctx == x.ctx) segS.xlt.invs = some inv5s) ∧
    inv5s.scope = 1 ∧
    (invS 3 [1]).ctlOn = true ∧
    1 < (invS 3 [1]).b.eports := by
  (repeat' refine And.intro ?_ ?_) <;> decide +kernel

/-- What the clauses of InvalidationsDrainAndPageFaultsResume ask of their states and operands is met. -/
theorem test_witness_invalidations_drain_and_page_faults_resume_2 :
    (((invS 3 [1]).xlt.invs.any fun x => x.ctx == 5 && x.step == 3 && x.epoch == 1 && x.ports.contains 1) = true) ∧
    (List.find? (fun x => x.id == 3) (invS 3 [1]).xlt.invs = some (inv5 3 [1])) ∧
    ((inv5 3 [1]).step = 3 ∧ (inv5 3 [1]).ports.contains 1 = true ∧ (inv5 3 [1]).since + max 1 ((invS 3 [1]).f F.XLT_INVCFG_ELIMIT) * 1000 ≤ (invS 3 [1]).time ∧ (List.any (invS 3 [1]).sch.resets fun e => e.fst == 1) = false) ∧
    (List.find? (fun u => onPort 1 u.place) (invS 3 [1]).units = none) ∧
    (invS 3 []).ctlOn = true ∧
    (List.find? (fun x => x.id == 3) (invS 3 []).xlt.invs = some (inv5 3 [])) ∧
    invReady (invS 3 []) (inv5 3 []) = true ∧
    (inv5 3 []).cmd = none ∧
    (inv5 3 []).pw = some 0 ∧
    invU.ctlOn = true ∧
    (List.find? (fun x => x.id == 3) invU.xlt.invs = some (inv5 3 [1])) ∧
    ((inv5 3 [1]).step = 3 ∧ (inv5 3 [1]).ports.contains 1 = true ∧ (inv5 3 [1]).since + max 1 (invU.f F.XLT_INVCFG_ELIMIT) * 1000 ≤ invU.time ∧ (List.any invU.sch.resets fun e => e.fst == 1) = false) ∧
    (List.find? (fun u => onPort 1 u.place) invU.units = some (unitOn (Place.port 1))) ∧
    invC.ctlOn = true ∧
    (List.find? (fun x => x.id == 3) invC.xlt.invs = some inv5c) ∧
    invReady invC inv5c = true ∧
    inv5c.cmd = some 77 ∧
    inv5c.pw = none ∧
    List.find? isPageFault pfS.ops = some (pfS.ops.headD ldOp) ∧
    HostReady pfS ∧
    Enabled pfS 0 ∧
    hostOk pfS = true ∧
    pfS.qPart ((2 ^ 62 + 300) % 4096) = 0 ∧
    inputsReplayed pfS ((2 ^ 62 + 300) % 4096) = false ∧
    HostReady up2 ∧
    Enabled up2 1 ∧
    hostOk up2 = true ∧
    (up2.qPart ((2 ^ 62 + 300) % 4096) ≠ 1 ∨ inputsReplayed up2 ((2 ^ 62 + 300) % 4096) = true) ∧
    (asideF 0).ctlOn = true ∧
    (asideF 0).f F.XLT_PFCFG_LIMIT * 1000000 ≠ 0 ∧
    (((List.foldl (fun e c => match c.st with | CmdSt.aside t => if t + (asideF 0).f F.XLT_PFCFG_LIMIT * 1000000 ≤ e.time then failCmd e c else e | x => e) (asideF 0).clear (asides (asideF 0) 300)).q 300).asideFetch = some 0) ∧
    (asideS.setF F.XLT_PFCFG_LIMIT 0 0).ctlOn = true ∧
    (asideS.setF F.XLT_PFCFG_LIMIT 0 0).f F.XLT_PFCFG_LIMIT * 1000000 = 0 := by
  (repeat' refine And.intro ?_ ?_) <;> decide +kernel

/-! ### Statements about the fabric -/

/-- Link 2 in a state, its domain ON, the peer's revisions agreeing; this chip is chip 1. -/
def lnk (st : Nat) : State := setAll { up with time := 20000 } [(F.FAB_LSTAT_STATE, 2, st), (F.PWR_DOM_STATE, up.b.domLink 2, 3), (F.FAB_ID_CHIP, 0, 1), (F.FAB_LANN_MAX, 2, revNative)]
/-- Word 0 of a NEG: ACC, chip, maximum and minimum. -/
def neg0 (acc chip mx mn : Nat) : W64 := BitVec.ofNat 64 (acc * 2 ^ 57 + chip * 2 ^ 49 + mx * 2 ^ 20 + mn)

/-- A header word for a destination chip with hops and a tag, and word 1 of a response with a status. -/
def hdr (dst hops : Nat) : W64 := BitVec.ofNat 64 (dst * 2 ^ 54 + 2 * 2 ^ 50 + hops * 2 ^ 47 + 9)
def rsp1 (st : Status) : W64 := BitVec.ofNat 64 (st.code * 2 ^ 56)
/-- A request that waits for its answer. -/
def lreqS : State := { lnk 3 with lreqs := [⟨9, 4, msgOf 1 (hdr 2 0) 0 [], true, 2, 0⟩] }

/-- A flit with word 0 and zeros. -/
def flitOf (w : Nat) : List Byte := toBytes 8 w ++ List.replicate 248 0
/-- A member's part that has sent its step. -/
def grpV : Collv := { cmd := 77, g := 0, rank := 0, n := 1, phase := 2, since := 0, st := .done, sent := true }
/-- A group with members in the table: rank 0 is this chip's partition 0, and rank 1 chip 1's. -/
def grpS : State := setAll { up with gmem := [(65, 64)], colls := [grpV], time := 10 ^ 12, cmds := [cmdOf collectB] } [(F.FAB_GRP_EN, 2, 1)]

/-- Chip 1 follows chip 0 over link 2. -/
def tsS : State := { setAll (lnk 3) [(F.FAB_ROUTE_EN, 0, 1), (F.FAB_ROUTE_LINK, 0, 2)] with tsync := { parent := some 0 }, time := 10000000 }

/-- The postmaster restarts; a lock; a peer below the minimum. -/
def lnkFw : State := (lnk 3).setF F.FW_CORE_STATE 4 2
def lnkLock : State := (lnk 2).setF F.CMT_LINK_LOCK 2 1
def lnkEarly : State := atTime 19999 (lnk 2)
def negBad : W64 := neg0 0 3 0x12217 0x11117
def negOf (acc chip : Nat) : W64 := neg0 acc chip revNative revMin
/-- One request of the link is unanswered. -/
def lreq9 : LReq := ⟨9, 4, msgOf 1 (hdr 2 0) 0 [], true, 2, 0⟩
/-- FAB_MEMIN admits chip 2; a write of chip 2 is under way; the link runs at revision 1; the receive buffer is full. -/
def meminS : State := (lnk 3).setF F.FAB_MEMIN_CHIPS 0 4
def lwS : State := { lnk 3 with ops := [{ mkOp (.linkWrite 2 2 9) ⟨0, some 5, false⟩ 116 (.spans []) 0 8 true [] with id := 1 }] }
def rev1S : State := (lnk 3).setF F.FAB_LREV_CHOSEN 2 0x10000
def fullB : State := { lnk 3 with lout := List.replicate 1024 (msgOf 1 (hdr 3 0) 0 [], some 2) }
def apA : W64 := BitVec.ofNat 64 (2 ^ 52 - 2 ^ 29)
/-- A held request that waits for a route, now and later. -/
def heldR : LReq := ⟨9, 4, msgOf 1 (hdr 2 0) 0 [], false, 2, 0⟩
def heldL : State := { lnk 3 with lreqs := [heldR] }
def heldN : State := atTime (10 ^ 12) heldL
def heldUp : State := setAll heldN [(F.FAB_ROUTE_EN, 2, 1), (F.FAB_ROUTE_LINK, 2, 2)]
/-- A message is in progress on the link. -/
def partS : State := { lnk 3 with lpart := [(2, toBytes 16 5)] }
def flitT (n : Nat) : List Byte := flitOf (2 ^ 56 + n * 2 ^ 40)
def flitC : List Byte := flitOf (2 * 2 ^ 56)
def noLinks : State := { grpS with b := ⟨32, 64, 0, 6, false⟩ }
/-- The rate correction has gathered a nanosecond, ahead and behind. -/
def accS (a : Int) : State := { up with tsync := { acc := a } }
def tsEarly : State := { tsS with tsync := { tsS.tsync with sentAt := 9999000, lastRsp := 9999000 } }
def tsPeer : State := tsS.setF F.FAB_LPEER_CHIP 2 5
def tsq (r : Bool) : W64 := BitVec.ofNat 64 (0x22 * 2 ^ 58 + (if r then 2 ^ 57 else 0))
/-- A link that comes up, before its NEG. -/
def upY (s : State) (l : Nat) : State :=
  let r := s.clear.freeW.2
  let y := (r.setF F.FAB_LSTAT_WIDTH l s.clear.freeW.1.toNat).setF F.FAB_LSTAT_RATE l r.freeW.1.toNat
  State.noteFw { ({ y with free := r.freeW.2.free } : State).setF F.FAB_LSTAT_STATE l 2 with lneg := mset s.lneg l s.time } 3

/-- The offsets after a response, in sixteenths of a nanosecond. -/
def offsOf (s : State) (t1 t2 t3 : Nat) : List Int :=
  let th : Int := (((t2 : Int) - t1) - ((s.time16 : Int) - (t3 : Int))) / 2
  (s.tsync.offs ++ [th]).drop (s.tsync.offs.length + 1 - 64)
/-- Offsets above 64 ns, of at most 4 ns and between (spec/11 R312). -/
theorem test_offsets : 64 * 16 * (offsOf tsS 160000000 160003000 160000000).length < absSum (offsOf tsS 160000000 160003000 160000000) ∧
    absSum (offsOf tsS 160000000 160000000 160000000) ≤ 64 * (offsOf tsS 160000000 160000000 160000000).length ∧
    64 * (offsOf tsS 160000000 160000200 160000000).length < absSum (offsOf tsS 160000000 160000200 160000000) ∧
    absSum (offsOf tsS 160000000 160000200 160000000) ≤ 64 * 16 * (offsOf tsS 160000000 160000200 160000000).length := by decide +kernel
/-- A member's step whose limit has passed, of a command of queue 300, and none. -/
theorem test_late_step : (grpV.phase = 2 ∧ grpV.sent = true ∧ grpS.coreUp (2 + grpV.g % 2) = true ∧ grpV.since + max 1 (grpS.f F.FAB_COLL_STEPLIM) * 1000 ≤ grpS.time ∧
    ∃ c, grpS.cmd? grpV.cmd = some c ∧ c.q = 300) ∧ (lnk 2).colls = [] :=
  ⟨⟨rfl, rfl, by decide +kernel, by decide +kernel, cmdOf collectB, by decide +kernel, rfl⟩, rfl⟩

/-! ### The hypotheses of each clause are met, part 26 -/

/-- What the clauses of LinksChangeState ask of their states and operands is met. -/
theorem test_witness_links_change_state_1 :
    2 < (lnk 0).b.links ∧
    HostReady (lnk 0) ∧
    hostOk (lnk 0) = true ∧
    (lnk 0).f F.FW_CORE_STATE 4 ≤ 1 ∧
    (lnk 0).f F.FW_CORE_STATE 5 ≤ 1 ∧
    ((lnk 0).f F.FAB_LSTAT_STATE 2 = 0 ∨ (lnk 0).f F.FAB_LSTAT_STATE 2 = 4) ∧
    (lnk 0).f F.FAB_LSTAT_STATE 2 = 0 ∧
    ((lnk 0).f F.FAB_LSTAT_STATE 2 ≠ 1 ∨ (lnk 0).domOn ((lnk 0).b.domLink 2) = false) ∧
    ((lnk 0).f F.FAB_LSTAT_STATE 2 ≠ 2 ∨ (lnk 0).time < mget 0 (lnk 0).lneg 2 + 20000) ∧
    (lnk 0).f F.FAB_LSTAT_STATE 2 ≠ 2 ∧
    (∀ (r : LReq), r ∈ (lnk 0).lreqs → r.sent = true → r.link ≠ 2) ∧
    2 < (lnk 1).b.links ∧
    HostReady (lnk 1) ∧
    hostOk (lnk 1) = true ∧
    (lnk 1).f F.FW_CORE_STATE 4 ≤ 1 ∧
    (lnk 1).f F.FW_CORE_STATE 5 ≤ 1 ∧
    (lnk 1).f F.FAB_LSTAT_STATE 2 ≠ 0 ∧
    (lnk 1).f F.FAB_LSTAT_STATE 2 = 1 ∧
    (lnk 1).domOn ((lnk 1).b.domLink 2) = true ∧
    2 < (lnk 2).b.links ∧
    HostReady (lnk 2) ∧
    hostOk (lnk 2) = true ∧
    (lnk 2).f F.FW_CORE_STATE 4 ≤ 1 ∧
    (lnk 2).f F.FW_CORE_STATE 5 ≤ 1 ∧
    ((lnk 2).f F.FAB_LSTAT_STATE 2 = 2 ∨ (lnk 2).f F.FAB_LSTAT_STATE 2 = 3) ∧
    ((lnk 2).f F.FAB_LSTAT_STATE 2 = 3 ∨ (lnk 2).f F.FAB_LSTAT_STATE 2 = 2) ∧
    (lnk 2).rst = 0 ∧
    (lnk 2).flt.halt < 4 ∧
    (lnk 2).f F.FAB_LSTAT_STATE 2 = 2 ∧
    mget 0 (lnk 2).lneg 2 + 20000 ≤ (lnk 2).time ∧
    commonRevs ((lnk 2).f F.FAB_LANN_MAX 2) revMin (fieldOf 0 39 20) (fieldOf 0 19 0) = none ∧
    2 < lnkFw.b.links ∧
    HostReady lnkFw ∧
    hostOk lnkFw = true ∧
    (2 ≤ lnkFw.f F.FW_CORE_STATE 4 ∨ 2 ≤ lnkFw.f F.FW_CORE_STATE 5) ∧
    commonRevs ((lnk 2).f F.FAB_LANN_MAX 2) revMin (fieldOf (negOf 0 1) 39 20) (fieldOf (negOf 0 1) 19 0) = some revNative ∧
    fieldOf (negOf 0 1) 52 49 = (lnk 2).chip ∧
    commonRevs ((lnk 2).f F.FAB_LANN_MAX 2) revMin (fieldOf (negOf 0 3) 39 20) (fieldOf (negOf 0 3) 19 0) = some revNative ∧
    fieldOf (negOf 0 3) 52 49 ≠ (lnk 2).chip ∧
    lockBad (lnk 2) 2 (fieldOf (negOf 0 3) 52 49) revNative = false ∧
    (BitVec.toNat (negOf 0 3)).testBit 57 = false ∧
    commonRevs ((lnk 2).f F.FAB_LANN_MAX 2) revMin (fieldOf (negOf 1 3) 39 20) (fieldOf (negOf 1 3) 19 0) = some revNative ∧
    fieldOf (negOf 1 3) 52 49 ≠ (lnk 2).chip ∧
    lockBad (lnk 2) 2 (fieldOf (negOf 1 3) 52 49) revNative = false ∧
    (BitVec.toNat (negOf 1 3)).testBit 57 = true := by
  (repeat' refine And.intro ?_ ?_) <;> decide +kernel

/-- What the clauses of LinksChangeState ask of their states and operands is met. -/
theorem test_witness_links_change_state_2 :
    fieldOf (BitVec.ofNat 64 revNative) 19 0 = revNative ∧
    fieldOf 0 19 0 ≠ revNative ∧
    2 < lnkLock.b.links ∧
    lnkLock.f F.FAB_LSTAT_STATE 2 = 2 ∧
    commonRevs (lnkLock.f F.FAB_LANN_MAX 2) revMin (fieldOf (negOf 0 3) 39 20) (fieldOf (negOf 0 3) 19 0) = some revNative ∧
    fieldOf (negOf 0 3) 52 49 ≠ lnkLock.chip ∧
    lockBad lnkLock 2 (fieldOf (negOf 0 3) 52 49) revNative = true ∧
    2 < lreqS.b.links ∧
    lreqS.lreqs = [lreq9] ∧
    lreq9.sent = true ∧
    lreq9.link = 2 := by
  (repeat' refine And.intro ?_ ?_) <;> decide +kernel

/-- What the clauses of MessagesOfOtherChipsAreCarriedOut ask of their states and operands is met. -/
theorem test_witness_messages_of_other_chips_are_carried_out :
    2 < (lnk 0).b.links ∧
    (lnk 0).linkUp 2 = false ∧
    (Instr.mrd 2 (hdr 1 0) 0, msgOf 1 (hdr 1 0) 0 []) ∈ [(Instr.mrd 2 (hdr 1 0) 0, msgOf 1 (hdr 1 0) 0 []), (Instr.mwr 2 (hdr 1 0) 0 [1], msgOf 2 (hdr 1 0) 0 [1]), (Instr.phsig 2 (hdr 1 0) 0 5, msgOf 4 (hdr 1 0) 0 (toBytes 8 (5))), (Instr.coll 2 (hdr 1 0) 0 [1], msgOf 5 (hdr 1 0) 0 [1]), (Instr.cbrk 2 (hdr 1 0) 0, msgOf 6 (hdr 1 0) 0 []), (Instr.rdata 2 (hdr 1 0) 0 [1], msgOf 16 (hdr 1 0) 0 [1]), (Instr.wack 2 (hdr 1 0) 0, msgOf 17 (hdr 1 0) 0 [])] ∧
    2 < (lnk 3).b.links ∧
    (lnk 3).linkUp 2 = true ∧
    (lnk 3).flt.halt < 4 ∧
    (lnk 3).rst = 0 ∧
    fieldOf (hdr 1 0) 57 54 = (lnk 3).chip ∧
    (lnk 3).lsigs = [] ∧
    (List.map (fun x => x.id) (List.filter (fun o => match o.pur with | Purpose.linkWrite l c tag => c == (msgOf 4 (hdr 1 0) 0 (toBytes 8 (5))).src | x => false) (lnk 3).ops) = []) ∧
    2 < lwS.b.links ∧
    lwS.linkUp 2 = true ∧
    lwS.flt.halt < 4 ∧
    lwS.rst = 0 ∧
    fieldOf (hdr 1 0) 57 54 = lwS.chip ∧
    lwS.lsigs = [] ∧
    (List.map (fun x => x.id) (List.filter (fun o => match o.pur with | Purpose.linkWrite l c tag => c == (msgOf 4 (hdr 1 0) 0 (toBytes 8 (5))).src | x => false) lwS.ops) ≠ []) ∧
    (Instr.coll 2 (hdr 3 0) 0 [], msgOf 5 (hdr 3 0) 0 []) ∈ [(Instr.mrd 2 (hdr 3 0) 0, msgOf 1 (hdr 3 0) 0 []), (Instr.mwr 2 (hdr 3 0) 0 [], msgOf 2 (hdr 3 0) 0 []), (Instr.phsig 2 (hdr 3 0) 0 5, msgOf 4 (hdr 3 0) 0 (toBytes 8 (5))), (Instr.coll 2 (hdr 3 0) 0 [], msgOf 5 (hdr 3 0) 0 []), (Instr.cbrk 2 (hdr 3 0) 0, msgOf 6 (hdr 3 0) 0 []), (Instr.rdata 2 (hdr 3 0) 0 [], msgOf 16 (hdr 3 0) 0 []), (Instr.wack 2 (hdr 3 0) 0, msgOf 17 (hdr 3 0) 0 [])] ∧
    (Instr.coll 2 (hdr 3 0) 0 [], msgOf 5 (hdr 3 0) 0 []).snd.dst ≠ (lnk 3).chip ∧
    (Instr.coll 2 (hdr 3 0) 0 [], msgOf 5 (hdr 3 0) 0 []).snd.hops ≠ 7 ∧
    (lnk 3).linkRev1 2 = false ∧
    heldUnits (lnk 3) 2 (Instr.coll 2 (hdr 3 0) 0 [], msgOf 5 (hdr 3 0) 0 []).snd.isRsp + (Instr.coll 2 (hdr 3 0) 0 [], msgOf 5 (hdr 3 0) 0 []).snd.units ≤ 1024 ∧
    (Instr.coll 2 (hdr 3 7) 0 [], msgOf 5 (hdr 3 7) 0 []) ∈ [(Instr.mrd 2 (hdr 3 7) 0, msgOf 1 (hdr 3 7) 0 []), (Instr.mwr 2 (hdr 3 7) 0 [], msgOf 2 (hdr 3 7) 0 []), (Instr.phsig 2 (hdr 3 7) 0 5, msgOf 4 (hdr 3 7) 0 (toBytes 8 (5))), (Instr.coll 2 (hdr 3 7) 0 [], msgOf 5 (hdr 3 7) 0 []), (Instr.cbrk 2 (hdr 3 7) 0, msgOf 6 (hdr 3 7) 0 []), (Instr.rdata 2 (hdr 3 7) 0 [], msgOf 16 (hdr 3 7) 0 []), (Instr.wack 2 (hdr 3 7) 0, msgOf 17 (hdr 3 7) 0 [])] ∧
    (Instr.coll 2 (hdr 3 7) 0 [], msgOf 5 (hdr 3 7) 0 []).snd.dst ≠ (lnk 3).chip ∧
    ((Instr.coll 2 (hdr 3 7) 0 [], msgOf 5 (hdr 3 7) 0 []).snd.hops = 7 ∨ (lnk 3).linkRev1 2 = true) ∧
    2 < fullB.b.links ∧
    fullB.linkUp 2 = true ∧
    fullB.flt.halt < 4 ∧
    fullB.rst = 0 ∧
    (Instr.coll 2 (hdr 3 0) 0 [], msgOf 5 (hdr 3 0) 0 []).snd.dst ≠ fullB.chip ∧
    fullB.linkRev1 2 = false ∧
    1024 < heldUnits fullB 2 (Instr.coll 2 (hdr 3 0) 0 [], msgOf 5 (hdr 3 0) 0 []).snd.isRsp + (Instr.coll 2 (hdr 3 0) 0 [], msgOf 5 (hdr 3 0) 0 []).snd.units := by
  (repeat' refine And.intro ?_ ?_) <;> decide +kernel

/-- What the clauses of FlitsHeldRequestsAndGroups ask of their states and operands is met. -/
theorem test_witness_flits_held_requests_and_groups :
    (lnk 2).rst = 0 ∧
    2 < (lnk 2).b.links ∧
    (flitT 0).length = 256 ∧
    (lnk 2).f F.FAB_LSTAT_STATE 2 = 2 ∧
    fieldOf ((wordsOf 1 (flitT 0)).headD 0) 63 56 = 1 ∧
    (List.find? (fun r => r.tag == 9 && !r.sent) (lnk 2).lreqs = none) ∧
    flitC.length = 256 ∧
    fieldOf ((wordsOf 1 flitC).headD 0) 63 56 = 2 ∧
    (flitOf 0).length = 256 ∧
    ((lnk 2).f F.FAB_LSTAT_STATE 2 = 2 ∨ (lnk 2).f F.FAB_LSTAT_STATE 2 = 3) ∧
    fieldOf ((wordsOf 1 (flitOf 0)).headD 0) 63 56 ≠ 1 ∧
    fieldOf ((wordsOf 1 (flitOf 0)).headD 0) 63 56 ≠ 2 ∧
    (lnk 3).rst = 0 ∧
    2 < (lnk 3).b.links ∧
    (lnk 3).f F.FAB_LSTAT_STATE 2 = 3 ∧
    (lnk 0).rst = 0 ∧
    2 < (lnk 0).b.links ∧
    (lnk 0).f F.FAB_LSTAT_STATE 2 ≠ 2 ∧
    (lnk 0).f F.FAB_LSTAT_STATE 2 ≠ 3 ∧
    HostReady (lnk 2) ∧
    (lnk 2).fb F.FAB_GRP_EN 1 = false ∧
    ((2 ^ 63 + 2 * 2 ^ 48) / 2 ^ 48 % 128 = 0 ∨ 64 < (2 ^ 63 + 2 * 2 ^ 48) / 2 ^ 48 % 128 ∨ ¬(List.map (memberAt (lnk 2) 1) (List.range ((2 ^ 63 + 2 * 2 ^ 48) / 2 ^ 48 % 128))).Nodup ∨ (lnk 2).b.links = 0 ∧ ∃ m, m ∈ List.map (memberAt (lnk 2) 1) (List.range ((2 ^ 63 + 2 * 2 ^ 48) / 2 ^ 48 % 128)) ∧ m.fst ≠ (lnk 2).chip) ∧
    (List.find? (fun r => r.tag == 9 && !r.sent) heldL.lreqs = some heldR) ∧
    (heldL.routeUp heldR.msg.dst ≠ none ∨ heldL.time < heldR.since + max 1 (heldL.f F.FAB_HOLD_HOLD) * 1000000) ∧
    (List.find? (fun r => r.tag == 9 && !r.sent) heldN.lreqs = some heldR) ∧
    heldN.routeUp heldR.msg.dst = none ∧
    heldR.since + max 1 (heldN.f F.FAB_HOLD_HOLD) * 1000000 ≤ heldN.time ∧
    grpS.colls = [grpV] ∧
    HostReady grpS ∧
    grpS.fb F.FAB_GRP_EN 1 = false ∧
    (¬((2 ^ 63 + 2 * 2 ^ 48) / 2 ^ 48 % 128 = 0 ∨ 64 < (2 ^ 63 + 2 * 2 ^ 48) / 2 ^ 48 % 128 ∨ ¬(List.map (memberAt grpS 1) (List.range ((2 ^ 63 + 2 * 2 ^ 48) / 2 ^ 48 % 128))).Nodup ∨ grpS.b.links = 0 ∧ ∃ m, m ∈ List.map (memberAt grpS 1) (List.range ((2 ^ 63 + 2 * 2 ^ 48) / 2 ^ 48 % 128)) ∧ m.fst ≠ grpS.chip)) ∧
    grpS.fb F.FAB_GRP_EN 2 = true := by
  (repeat' refine And.intro ?_ ?_) <;> decide +kernel

/-- What the clauses of FabricTimeAdvancesAndFollowsItsSource ask of their states and operands is met. -/
theorem test_witness_fabric_time_advances_and_follows_its_source :
    up.rst ≠ 1 ∧
    up.rst ≠ 4 ∧
    -65536 < up.tsync.acc + up.tsync.rate ∧
    up.tsync.acc + up.tsync.rate < 65536 ∧
    timeSource up = up.chip ∧
    (parentLink up ≠ some 2 ∨ up.rst ≠ 0) ∧
    (accS 65536).rst ≠ 1 ∧
    (accS 65536).rst ≠ 4 ∧
    65536 ≤ (accS 65536).tsync.acc + (accS 65536).tsync.rate ∧
    (accS (-65536)).rst ≠ 1 ∧
    (accS (-65536)).rst ≠ 4 ∧
    (accS (-65536)).tsync.acc + (accS (-65536)).tsync.rate ≤ -65536 ∧
    ((inRst 1 up).rst = 1 ∨ (inRst 1 up).rst = 4) ∧
    parentLink tsS = some 2 ∧
    tsS.rst = 0 ∧
    tsS.tsync.sentAt + 8000 ≤ tsS.time ∧
    tsS.linkUp 2 = true ∧
    fieldOf (tsq false) 63 58 = 34 ∧
    (BitVec.toNat (tsq false)).testBit 57 = false ∧
    timeSource tsS ≠ tsS.chip ∧
    tsS.tsync.lastRsp + 10000000 ≤ tsS.time ∧
    tsS.f F.FAB_LPEER_CHIP 2 = timeSource tsS ∧
    parentLink tsEarly = some 2 ∧
    tsEarly.rst = 0 ∧
    tsEarly.time < tsEarly.tsync.sentAt + 8000 ∧
    timeSource tsEarly ≠ tsEarly.chip ∧
    tsEarly.time < tsEarly.tsync.lastRsp + 10000000 := by
  (repeat' refine And.intro ?_ ?_) <;> decide +kernel

/-! ### Statements about echo pairs -/

/-- An echo unit in PAIR, ROLE and MODE, its port carrying flits. -/
def echoS (pair role mode tie : Nat) : State := { setAll up [(F.ECH_STAT_PAIR, 0, pair), (F.ECH_STAT_ROLE, 0, role), (F.ECH_STAT_MODE, 0, mode), (F.ECH_STAT_TIEBREAK, 0, tie),
    (F.PWR_DOM_STATE, up.b.domEcho, 3), (F.QE_QCFG_MIRRORED, 300, 1), (F.OBS_LB_MODE_MODES, 0, 1), (F.GAL_CPWR_STAT_STATES, 0, 0), (F.PWR_DOM_STATE, up.b.domLogic 0, 3), (F.ECH_HB_PERIOD, 0, 1), (F.ECH_HB_LOSS, 0, 2)] with
  ech := { portUp := true }, time := 1000000 }
/-- A command of queue 300 that waits for the partner's digest. -/
def compareS (tie : Nat) : State := { echoS 3 1 2 tie with cmds := [{ cmdOf (.nop 0) with st := .compare }], time := 10 ^ 9 }

/-- A flit of a kind with its CRC: sequence number 0, no records; one whose CRC is wrong. -/
def eflitK (k : Nat) : List Byte := toBytes 8 (k * 2 ^ 56) ++ toBytes 8 (crc64 (toBytes 8 (k * 2 ^ 56) ++ List.replicate 240 0)) ++ List.replicate 240 0
def eflitBad : List Byte := List.replicate 256 1

/-- The pair waits for its link; for a leader; and has no link. -/
def linkingS (tie : Nat) : State := { echoS 1 0 1 tie with ech := {} }
def noLetterbook : State := (linkingS 0).setF F.OBS_LB_MODE_MODES 0 0
def waitsE (tie : Nat) : State := { echoS 2 0 1 tie with ech := { portUp := true, waits := true } }
def idW : W64 := BitVec.ofNat 64 up.identWord
def cfgW (s : State) : W64 := BitVec.ofNat 64 (s.f F.ECH_CFGDIG_DIGEST)
def cmpC : Cmd := { cmdOf (.nop 0) with st := .compare }
/-- An unacknowledged flit that has been sent `n` times. -/
def unackS (n : Nat) : State := { echoS 3 2 1 0 with ech := { portUp := true, unacked := [⟨0, [], 0, n⟩] } }
def hbEarly : State := { echoS 3 2 1 0 with ech := { portUp := true, hbSent := 999999, lastHb := 999999 } }
/-- A following twin whose hall is dark; one that holds the edition; with done marks. -/
def darkE : State := (echoS 2 2 1 0).setF F.PWR_DOM_STATE (up.b.domLogic 0) 0
def heldE : State := { echoS 2 2 1 0 with eds := [⟨⟨0, 1, 0, 1⟩, false, 0, 1, 0, true⟩] }
def marksE : State := (echoS 3 2 1 0).setQ 300 { marks := [(7, 0, 0, 5), (7, 9, 0, 5)] }
def freshE : State := (echoS 3 4 2 0)
def decW : W64 := BitVec.ofNat 64 (300 * 2 ^ 36)

/-! ### The hypotheses of each clause are met, part 28 -/

/-- What the clauses of TwinsPairCompareAndTakeTheirRoles ask of their states and operands is met. -/
theorem test_witness_twins_pair_compare_and_take_their_roles_1 :
    WorkReady (echoS 0 0 0 0) ∧
    (echoS 0 0 0 0).b.echo = true ∧
    ((echoS 0 0 0 0).f F.ECH_STAT_PAIR = 0 ∨ (echoS 0 0 0 0).f F.ECH_STAT_PAIR = 4) ∧
    ((echoS 0 0 0 0).f F.ECH_STAT_ROLE = 0 ∨ (echoS 0 0 0 0).f F.ECH_STAT_ROLE = 1 ∨ (echoS 0 0 0 0).f F.ECH_STAT_ROLE = 3) ∧
    WorkReady (echoS 3 1 1 0) ∧
    (echoS 3 1 1 0).b.echo = true ∧
    ((echoS 3 1 1 0).f F.ECH_STAT_PAIR = 2 ∨ (echoS 3 1 1 0).f F.ECH_STAT_PAIR = 3) ∧
    WorkReady (echoS 3 2 1 0) ∧
    (echoS 3 2 1 0).b.echo = true ∧
    (echoS 3 2 1 0).f F.ECH_STAT_ROLE ≠ 0 ∧
    (echoS 3 2 1 0).f F.ECH_STAT_ROLE ≠ 1 ∧
    (echoS 3 2 1 0).f F.ECH_STAT_ROLE ≠ 3 ∧
    (¬((echoS 0 0 0 0).ech.portUp = true ∧ (echoS 0 0 0 0).f F.ECH_STAT_MODE = 2 ∧ (echoS 0 0 0 0).f F.ECH_STAT_PAIR = 3)) ∧
    comparing (echoS 0 0 0 0) 300 7 0 = none ∧
    (¬((echoS 0 0 0 0).f F.ECH_STAT_ROLE = 2 ∧ 2 ≤ (echoS 0 0 0 0).f F.ECH_STAT_PAIR)) ∧
    (¬((echoS 0 0 0 0).ech.waits = true ∧ (echoS 0 0 0 0).ech.portUp = true)) ∧
    (echoS 0 0 0 0).f F.ECH_STAT_ROLE ≠ 1 ∧
    (echoS 0 0 0 0).f F.ECH_STAT_ROLE ≠ 3 ∧
    ((echoS 0 0 0 0).f F.ECH_STAT_PAIR ≠ 1 ∨ (echoS 0 0 0 0).ech.portUp = true) ∧
    ((echoS 3 1 1 0).f F.ECH_STAT_ROLE = 1 ∨ (echoS 3 1 1 0).f F.ECH_STAT_ROLE = 3) ∧
    ((echoS 3 2 1 0).f F.ECH_STAT_ROLE = 2 ∧ 2 ≤ (echoS 3 2 1 0).f F.ECH_STAT_PAIR) ∧
    ((echoS 3 4 2 1).ech.portUp = true ∧ (echoS 3 4 2 1).f F.ECH_STAT_MODE = 2 ∧ (echoS 3 4 2 1).f F.ECH_STAT_PAIR = 3) ∧
    comparing (compareS 0) 300 7 0 = some cmpC ∧
    (compareS 0).f F.ECH_STAT_PAIR = 3 ∧
    (compareS 0).ctlOn = true ∧
    cmpC.aux + max 1 ((compareS 0).f F.ECH_CMP_WAIT) * 1000 ≤ (compareS 0).time ∧
    tieb (compareS 0) = false ∧
    comparing (compareS 1) 300 7 0 = some cmpC ∧
    (compareS 1).f F.ECH_STAT_PAIR = 3 ∧
    (compareS 1).ctlOn = true ∧
    cmpC.aux + max 1 ((compareS 1).f F.ECH_CMP_WAIT) * 1000 ≤ (compareS 1).time ∧
    tieb (compareS 1) = true ∧
    comparing (atTime 5 (compareS 0)) 300 7 0 = some cmpC ∧
    (atTime 5 (compareS 0)).f F.ECH_STAT_PAIR = 3 ∧
    (atTime 5 (compareS 0)).ctlOn = true ∧
    (atTime 5 (compareS 0)).time < cmpC.aux + max 1 ((atTime 5 (compareS 0)).f F.ECH_CMP_WAIT) * 1000 ∧
    (¬((waitsE 0).f F.ECH_STAT_ROLE = 2 ∧ 2 ≤ (waitsE 0).f F.ECH_STAT_PAIR)) ∧
    ((waitsE 0).ech.waits = true ∧ (waitsE 0).ech.portUp = true) ∧
    (linkingS 0).f F.ECH_STAT_PAIR = 1 ∧
    (linkingS 0).ech.portUp = false ∧
    (linkingS 0).domOn (linkingS 0).b.domEcho = true ∧
    (linkingS 0).ctlOn = true ∧
    (¬(BitVec.toNat idW ≠ (linkingS 0).identWord ∨ (linkingS 0).f F.FW_STAT_EDITION ≠ (linkingS 0).f F.FW_STAT_EDITION ∨ BitVec.toNat (cfgW (linkingS 0)) ≠ (linkingS 0).f F.ECH_CFGDIG_DIGEST ∨ ((mirParts (linkingS 0)).any fun p => (linkingS 0).lbMode p == 0) = true ∨ regionsOk ((setEch (linkingS 0).clear (have __src := (linkingS 0).ech; { portUp := true, made := [ERec.ident (linkingS 0).identWord ((linkingS 0).f F.FW_STAT_EDITION) ((linkingS 0).f F.ECH_CFGDIG_DIGEST) (tieb (linkingS 0)) ((linkingS 0).fb F.ECH_CTL_SECONDARY)], lines := __src.lines, tx := __src.tx, unacked := __src.unacked, ackDue := __src.ackDue, txSeq := __src.txSeq, rxSeq := __src.rxSeq, lastAdv := (linkingS 0).time, lastHb := (linkingS 0).time, hbSent := (linkingS 0).time, ackNo := __src.ackNo, syncNeed := __src.syncNeed, syncLines := __src.syncLines, syncing := __src.syncing, waits := __src.waits, dirty := __src.dirty, decisions := __src.decisions, mine := __src.mine, peers := __src.peers, ckpts := __src.ckpts, ckPos := __src.ckPos, identOk := __src.identOk })).setF F.ECH_STAT_PEERTB 0 true.toNat) = false)) ∧
    tieb (linkingS 0) = false ∧
    true = true := by
  (repeat' refine And.intro ?_ ?_) <;> decide +kernel

/-- What the clauses of TwinsPairCompareAndTakeTheirRoles ask of their states and operands is met. -/
theorem test_witness_twins_pair_compare_and_take_their_roles_2 :
    (¬(BitVec.toNat idW ≠ (linkingS 0).identWord ∨ (linkingS 0).f F.FW_STAT_EDITION ≠ (linkingS 0).f F.FW_STAT_EDITION ∨ BitVec.toNat (cfgW (linkingS 0)) ≠ (linkingS 0).f F.ECH_CFGDIG_DIGEST ∨ ((mirParts (linkingS 0)).any fun p => (linkingS 0).lbMode p == 0) = true ∨ regionsOk ((setEch (linkingS 0).clear (have __src := (linkingS 0).ech; { portUp := true, made := [ERec.ident (linkingS 0).identWord ((linkingS 0).f F.FW_STAT_EDITION) ((linkingS 0).f F.ECH_CFGDIG_DIGEST) (tieb (linkingS 0)) ((linkingS 0).fb F.ECH_CTL_SECONDARY)], lines := __src.lines, tx := __src.tx, unacked := __src.unacked, ackDue := __src.ackDue, txSeq := __src.txSeq, rxSeq := __src.rxSeq, lastAdv := (linkingS 0).time, lastHb := (linkingS 0).time, hbSent := (linkingS 0).time, ackNo := __src.ackNo, syncNeed := __src.syncNeed, syncLines := __src.syncLines, syncing := __src.syncing, waits := __src.waits, dirty := __src.dirty, decisions := __src.decisions, mine := __src.mine, peers := __src.peers, ckpts := __src.ckpts, ckPos := __src.ckPos, identOk := __src.identOk })).setF F.ECH_STAT_PEERTB 0 false.toNat) = false)) ∧
    false = false ∧
    (BitVec.toNat idW ≠ (linkingS 0).identWord ∨ (linkingS 0).f F.FW_STAT_EDITION ≠ (linkingS 0).f F.FW_STAT_EDITION ∨ 1 ≠ (linkingS 0).f F.ECH_CFGDIG_DIGEST ∨ ((mirParts (linkingS 0)).any fun p => (linkingS 0).lbMode p == 0) = true ∨ regionsOk ((setEch (linkingS 0).clear (have __src := (linkingS 0).ech; { portUp := true, made := [ERec.ident (linkingS 0).identWord ((linkingS 0).f F.FW_STAT_EDITION) ((linkingS 0).f F.ECH_CFGDIG_DIGEST) (tieb (linkingS 0)) ((linkingS 0).fb F.ECH_CTL_SECONDARY)], lines := __src.lines, tx := __src.tx, unacked := __src.unacked, ackDue := __src.ackDue, txSeq := __src.txSeq, rxSeq := __src.rxSeq, lastAdv := (linkingS 0).time, lastHb := (linkingS 0).time, hbSent := (linkingS 0).time, ackNo := __src.ackNo, syncNeed := __src.syncNeed, syncLines := __src.syncLines, syncing := __src.syncing, waits := __src.waits, dirty := __src.dirty, decisions := __src.decisions, mine := __src.mine, peers := __src.peers, ckpts := __src.ckpts, ckPos := __src.ckPos, identOk := __src.identOk })).setF F.ECH_STAT_PEERTB 0 true.toNat) = false) ∧
    (linkingS 1).f F.ECH_STAT_PAIR = 1 ∧
    (linkingS 1).ech.portUp = false ∧
    (linkingS 1).domOn (linkingS 1).b.domEcho = true ∧
    (linkingS 1).ctlOn = true ∧
    (¬(BitVec.toNat idW ≠ (linkingS 1).identWord ∨ (linkingS 1).f F.FW_STAT_EDITION ≠ (linkingS 1).f F.FW_STAT_EDITION ∨ BitVec.toNat (cfgW (linkingS 1)) ≠ (linkingS 1).f F.ECH_CFGDIG_DIGEST ∨ ((mirParts (linkingS 1)).any fun p => (linkingS 1).lbMode p == 0) = true ∨ regionsOk ((setEch (linkingS 1).clear (have __src := (linkingS 1).ech; { portUp := true, made := [ERec.ident (linkingS 1).identWord ((linkingS 1).f F.FW_STAT_EDITION) ((linkingS 1).f F.ECH_CFGDIG_DIGEST) (tieb (linkingS 1)) ((linkingS 1).fb F.ECH_CTL_SECONDARY)], lines := __src.lines, tx := __src.tx, unacked := __src.unacked, ackDue := __src.ackDue, txSeq := __src.txSeq, rxSeq := __src.rxSeq, lastAdv := (linkingS 1).time, lastHb := (linkingS 1).time, hbSent := (linkingS 1).time, ackNo := __src.ackNo, syncNeed := __src.syncNeed, syncLines := __src.syncLines, syncing := __src.syncing, waits := __src.waits, dirty := __src.dirty, decisions := __src.decisions, mine := __src.mine, peers := __src.peers, ckpts := __src.ckpts, ckPos := __src.ckPos, identOk := __src.identOk })).setF F.ECH_STAT_PEERTB 0 true.toNat) = false)) ∧
    tieb (linkingS 1) = true ∧
    (¬(BitVec.toNat idW ≠ (linkingS 1).identWord ∨ (linkingS 1).f F.FW_STAT_EDITION ≠ (linkingS 1).f F.FW_STAT_EDITION ∨ BitVec.toNat (cfgW (linkingS 1)) ≠ (linkingS 1).f F.ECH_CFGDIG_DIGEST ∨ ((mirParts (linkingS 1)).any fun p => (linkingS 1).lbMode p == 0) = true ∨ regionsOk ((setEch (linkingS 1).clear (have __src := (linkingS 1).ech; { portUp := true, made := [ERec.ident (linkingS 1).identWord ((linkingS 1).f F.FW_STAT_EDITION) ((linkingS 1).f F.ECH_CFGDIG_DIGEST) (tieb (linkingS 1)) ((linkingS 1).fb F.ECH_CTL_SECONDARY)], lines := __src.lines, tx := __src.tx, unacked := __src.unacked, ackDue := __src.ackDue, txSeq := __src.txSeq, rxSeq := __src.rxSeq, lastAdv := (linkingS 1).time, lastHb := (linkingS 1).time, hbSent := (linkingS 1).time, ackNo := __src.ackNo, syncNeed := __src.syncNeed, syncLines := __src.syncLines, syncing := __src.syncing, waits := __src.waits, dirty := __src.dirty, decisions := __src.decisions, mine := __src.mine, peers := __src.peers, ckpts := __src.ckpts, ckPos := __src.ckPos, identOk := __src.identOk })).setF F.ECH_STAT_PEERTB 0 false.toNat) = false)) := by
  (repeat' refine And.intro ?_ ?_) <;> decide +kernel

/-- What the clauses of EchoPortKeepsOrderAndHeartbeats ask of their states and operands is met. -/
theorem test_witness_echo_port_keeps_order_and_heartbeats_1 :
    (echoS 3 2 1 0).ech.portUp = true ∧
    (echoS 3 2 1 0).rst = 0 ∧
    (echoS 3 2 1 0).ctlOn = true ∧
    (eflitK 3).length = 256 ∧
    (BitVec.toNat ((wordsOf 2 (eflitK 3)).getD 1 0) = crc64 (List.take 8 (eflitK 3) ++ List.drop 16 (eflitK 3)) ∧ fieldOf ((wordsOf 2 (eflitK 3)).getD 0 0) 55 32 = (echoS 3 2 1 0).ech.rxSeq) ∧
    fieldOf ((wordsOf 2 (eflitK 3)).getD 0 0) 63 56 = 3 ∧
    ((echoS 3 2 1 0).ech.unacked = [] ∨ (echoS 3 2 1 0).time < (echoS 3 2 1 0).ech.lastAdv + 8000) ∧
    (echoS 3 2 1 0).f F.ECH_STAT_PAIR = 3 ∧
    (echoS 3 2 1 0).ech.hbSent + (echoS 3 2 1 0).f F.ECH_HB_PERIOD * 1000 ≤ (echoS 3 2 1 0).time ∧
    (echoS 3 2 1 0).ech.waits = false ∧
    (true = false ∨ tieb (echoS 3 2 1 0) = false ∨ (echoS 3 2 1 0).f F.ECH_STAT_ROLE = 5) ∧
    (echoS 3 2 1 0).ech.lastHb + (echoS 3 2 1 0).f F.ECH_HB_LOSS * 1000 ≤ (echoS 3 2 1 0).time ∧
    (echoS 3 2 1 0).f F.ECH_STAT_MODE = 1 ∧
    (echoS 3 2 1 0).f F.ECH_STAT_ROLE = 2 ∧
    tieb (echoS 3 2 1 0) = false ∧
    (eflitK 2).length = 256 ∧
    (BitVec.toNat ((wordsOf 2 (eflitK 2)).getD 1 0) = crc64 (List.take 8 (eflitK 2) ++ List.drop 16 (eflitK 2)) ∧ fieldOf ((wordsOf 2 (eflitK 2)).getD 0 0) 55 32 = (echoS 3 2 1 0).ech.rxSeq) ∧
    fieldOf ((wordsOf 2 (eflitK 2)).getD 0 0) 63 56 = 2 ∧
    (eflitK 1).length = 256 ∧
    (¬(BitVec.toNat ((wordsOf 2 (eflitK 1)).getD 1 0) = crc64 (List.take 8 (eflitK 1) ++ List.drop 16 (eflitK 1)) ∧ fieldOf ((wordsOf 2 (eflitK 1)).getD 0 0) 55 32 = (echoS 3 2 1 0).ech.rxSeq) ∨ fieldOf ((wordsOf 2 (eflitK 1)).getD 0 0) 63 56 ≠ 2 ∧ fieldOf ((wordsOf 2 (eflitK 1)).getD 0 0) 63 56 ≠ 3) ∧
    (echoS 3 1 1 1).ech.portUp = true ∧
    (echoS 3 1 1 1).rst = 0 ∧
    (echoS 3 1 1 1).ctlOn = true ∧
    (echoS 3 1 1 1).f F.ECH_STAT_PAIR = 3 ∧
    (echoS 3 1 1 1).ech.waits = false ∧
    true = true ∧
    tieb (echoS 3 1 1 1) = true ∧
    (echoS 3 1 1 1).f F.ECH_STAT_ROLE ≠ 5 ∧
    (echoS 3 1 1 1).ech.lastHb + (echoS 3 1 1 1).f F.ECH_HB_LOSS * 1000 ≤ (echoS 3 1 1 1).time ∧
    (echoS 3 1 1 1).f F.ECH_STAT_MODE = 1 ∧
    (echoS 3 1 1 1).f F.ECH_STAT_ROLE = 1 ∧
    (echoS 3 2 1 1).ech.portUp = true ∧
    (echoS 3 2 1 1).rst = 0 ∧
    (echoS 3 2 1 1).ctlOn = true ∧
    (echoS 3 2 1 1).f F.ECH_STAT_PAIR = 3 ∧
    (echoS 3 2 1 1).ech.lastHb + (echoS 3 2 1 1).f F.ECH_HB_LOSS * 1000 ≤ (echoS 3 2 1 1).time ∧
    (echoS 3 2 1 1).f F.ECH_STAT_MODE = 1 ∧
    (echoS 3 2 1 1).f F.ECH_STAT_ROLE = 2 ∧
    tieb (echoS 3 2 1 1) = true ∧
    (echoS 3 3 1 0).ech.portUp = true ∧
    (echoS 3 3 1 0).rst = 0 ∧
    (echoS 3 3 1 0).ctlOn = true ∧
    (echoS 3 3 1 0).f F.ECH_STAT_PAIR = 3 ∧
    (echoS 3 3 1 0).ech.lastHb + (echoS 3 3 1 0).f F.ECH_HB_LOSS * 1000 ≤ (echoS 3 3 1 0).time ∧
    (echoS 3 3 1 0).f F.ECH_STAT_MODE = 1 := by
  (repeat' refine And.intro ?_ ?_) <;> decide +kernel

/-- What the clauses of EchoPortKeepsOrderAndHeartbeats ask of their states and operands is met. -/
theorem test_witness_echo_port_keeps_order_and_heartbeats_2 :
    (echoS 3 3 1 0).f F.ECH_STAT_ROLE ≠ 1 ∧
    (echoS 3 3 1 0).f F.ECH_STAT_ROLE ≠ 2 ∧
    (echoS 3 4 2 0).ech.portUp = true ∧
    (echoS 3 4 2 0).rst = 0 ∧
    (echoS 3 4 2 0).ctlOn = true ∧
    (echoS 3 4 2 0).f F.ECH_STAT_PAIR = 3 ∧
    (echoS 3 4 2 0).ech.lastHb + (echoS 3 4 2 0).f F.ECH_HB_LOSS * 1000 ≤ (echoS 3 4 2 0).time ∧
    (echoS 3 4 2 0).f F.ECH_STAT_MODE = 2 ∧
    (echoS 3 4 2 0).f F.ECH_STAT_ROLE ≠ 5 ∧
    (echoS 3 5 2 0).ech.portUp = true ∧
    (echoS 3 5 2 0).rst = 0 ∧
    (echoS 3 5 2 0).ctlOn = true ∧
    (echoS 3 5 2 0).f F.ECH_STAT_PAIR = 3 ∧
    (echoS 3 5 2 0).ech.lastHb + (echoS 3 5 2 0).f F.ECH_HB_LOSS * 1000 ≤ (echoS 3 5 2 0).time ∧
    (echoS 3 5 2 0).f F.ECH_STAT_MODE = 2 ∧
    (echoS 3 5 2 0).f F.ECH_STAT_ROLE = 5 ∧
    (echoS 2 2 1 0).ech.portUp = true ∧
    (echoS 2 2 1 0).rst = 0 ∧
    (echoS 2 2 1 0).ctlOn = true ∧
    ((echoS 2 2 1 0).f F.ECH_STAT_PAIR ≠ 3 ∨ (echoS 2 2 1 0).time < (echoS 2 2 1 0).ech.hbSent + (echoS 2 2 1 0).f F.ECH_HB_PERIOD * 1000) ∧
    ((echoS 2 2 1 0).f F.ECH_STAT_PAIR ≠ 3 ∨ (echoS 2 2 1 0).time < (echoS 2 2 1 0).ech.lastHb + (echoS 2 2 1 0).f F.ECH_HB_LOSS * 1000) ∧
    (echoS 2 2 1 0).f F.ECH_STAT_PAIR = 2 ∧
    ((echoS 2 2 1 0).f F.ECH_STAT_ROLE = 2 ∨ (echoS 2 2 1 0).f F.ECH_STAT_ROLE = 4) ∧
    false = false ∧
    (unackS 15).ech.portUp = true ∧
    (unackS 15).rst = 0 ∧
    (unackS 15).ctlOn = true ∧
    (unackS 15).ech.unacked ≠ [] ∧
    (unackS 15).ech.lastAdv + 8000 ≤ (unackS 15).time ∧
    (∀ (x : EFlit), x ∈ (unackS 15).ech.unacked → x.sends < 16) ∧
    (unackS 16).ech.portUp = true ∧
    (unackS 16).rst = 0 ∧
    (unackS 16).ctlOn = true ∧
    (unackS 16).ech.lastAdv + 8000 ≤ (unackS 16).time ∧
    (∃ x, x ∈ (unackS 16).ech.unacked ∧ 16 ≤ x.sends) := by
  (repeat' refine And.intro ?_ ?_) <;> decide +kernel

/-- What the clauses of FollowingTwinsTakeTheMirroredState ask of their states and operands is met. -/
theorem test_witness_following_twins_take_the_mirrored_state :
    (¬((echoS 2 2 1 0).ech.waits = true ∧ (echoS 2 2 1 0).ech.portUp = true ∧ tieb (echoS 2 2 1 0) = false ∧ (echoS 2 2 1 0).ctlOn = true)) ∧
    takesState (heard (echoS 2 2 1 0).clear) = true ∧
    (heard (echoS 2 2 1 0).clear).mirrored 300 = true ∧
    ((heard (echoS 2 2 1 0).clear).f F.ECH_STAT_PAIR = 2 ∨ (heard (echoS 2 2 1 0).clear).f F.ECH_STAT_ROLE = 4) ∧
    (List.replicate 512 7).length = 512 ∧
    0 < (heard (echoS 2 2 1 0).clear).b.galleryBytes ∧
    ((heard (echoS 2 2 1 0).clear).domOn ((heard (echoS 2 2 1 0).clear).b.domLogic ((heard (echoS 2 2 1 0).clear).hallOf 0)) = true ∧ ((chambersOf (heard (echoS 2 2 1 0).clear).b.halls (0, 0, 512)).any fun c => (heard (echoS 2 2 1 0).clear).chamber ((heard (echoS 2 2 1 0).clear).hallOf 0) c != 0) = false) ∧
    (heard (echoS 2 2 1 0).clear).f F.ECH_STAT_ROLE = 2 ∧
    (heard (echoS 2 2 1 0).clear).mirrored (lbBits [decW, 1, 2, 3] 0 47 36) = true ∧
    takesState (heard (echoS 3 2 1 0).clear) = true ∧
    (heard (echoS 3 2 1 0).clear).mirrored 300 = true ∧
    (heard (echoS 3 2 1 0).clear).f F.ECH_STAT_PAIR = 3 ∧
    (heard (echoS 3 2 1 0).clear).f F.ECH_STAT_ROLE = 2 ∧
    takesState (heard (echoS 3 4 1 0).clear) = true ∧
    (heard (echoS 3 4 1 0).clear).f F.ECH_STAT_ROLE = 4 ∧
    ((waitsE 0).ech.waits = true ∧ (waitsE 0).ech.portUp = true ∧ tieb (waitsE 0) = false ∧ (waitsE 0).ctlOn = true) ∧
    takesState (heard (waitsE 1).clear) = false ∧
    Instr.phval 0 decW ∈ [Instr.qstate 300 2 true 7 3 4 0 3 1 [1, 2] none [], Instr.phval 0 decW, Instr.fkval 0 decW, Instr.line 0 (List.replicate 512 7) true, Instr.parcel 0 0 0 1 false 4 1 true, Instr.sealreg 0 0 1 0, Instr.hinge 300 7 0 0 decW 4096 4, Instr.decision decW 1 2 3, Instr.hostwr 300 true 4, Instr.retire 300 7 0] ∧
    takesState (heard darkE.clear) = true ∧
    0 < (heard darkE.clear).b.galleryBytes ∧
    (¬((heard darkE.clear).domOn ((heard darkE.clear).b.domLogic ((heard darkE.clear).hallOf 0)) = true ∧ ((chambersOf (heard darkE.clear).b.halls (0, 0, 512)).any fun c => (heard darkE.clear).chamber ((heard darkE.clear).hallOf 0) c != 0) = false)) ∧
    takesState (heard marksE.clear) = true ∧
    (heard marksE.clear).mirrored 300 = true ∧
    (7, 9, 0, 5) ∈ ((unNext (exec (Instr.retire 300 7 5) marksE) marksE).q 300).marks ∧
    (heard (echoS 3 2 1 0).clear).mirrored (lbBits [7, 1, 2, 3] 0 47 36) = false ∧
    (heard (echoS 3 2 1 0).clear).mirrored 5 = false := by
  (repeat' refine And.intro ?_ ?_) <;> decide +kernel

/-! ### Statements about faults -/

/-- A fault of group 3, cause 2, unit 4, of a class. -/
def flt3 (cls : Nat) (prog : Bool) : Flt := ⟨3, 2, cls, prog, true, 4, some 0, 0, [0, 0, 0, 0], none, none⟩
def fltS (cls : Nat) : State := { up with flt := { pend := [(0, flt3 cls false)], halt := cls / 2, haltFlt := some (flt3 2 false) } }
/-- The fault pending while no halt is in motion; while the group's latch escalates it. -/
def fltN (cls : Nat) : State := { up with flt := { pend := [(0, flt3 cls false)] } }
def fltE (cls : Nat) : State := setAll (fltN cls) [(F.FLT_LATCH_K_VALID, 3, 1), (F.FLT_LATCH_K_ESCL, 3, 1), (F.FLT_LATCH_C_VALID, 3, 1), (F.FLT_LATCH_C_ESCL, 3, 1)]
def offS : State := up.setF F.PWR_STATE_STATE 0 0
/-- Latches of group 3 and of partition 63 valid. -/
def latchS : State := setAll up [(F.FLT_LATCH_C_VALID, 3, 1), (F.FLT_LATCH_K_VALID, 3, 1), (F.FLT_PLATCH_VALID, 63, 1)]
def fltP : Flt := { flt3 0 true with part := some 63 }

/-- Word 0 of an injection with ARM for a store: positions 0, 1 and 78. -/
def injW (target : Nat) : W64 := BitVec.ofNat 64 (2 ^ 63 + target * 2 ^ 21 + 2 ^ 7 + 78)
/-- A record that waits for a ring entry; a request that writes one. -/
def recS : State :=
  { sent up (.faultRec 0 3) true with time := 5, flt := { autoack := [(3, 5)], recs := [⟨7, 0, [], none, none, false, none, false, some 5⟩] }, tsync := { cycles := 2048 } }
/-- The same with AUTOACK off, with AUTOACK on, with a core down, and with a partition's state. -/
def ackS (v : Nat) : State := recS.setF F.FLT_CFG_AUTOACK 0 v
def ackLate : State := { recS with time := 4 }
def ringPS (v : Nat) : State := setAll recS [(F.PRT_STAT_STATE, 3, v), (F.FLT_PW_DEAD_DEAD, 3, 1)]
def fixedRec : State := { recS with flt := { recS.flt with recs := [⟨7, 0, [], none, none, false, some 1, false, some 5⟩] } }
def pingS (out missed echo : Bool) (halt : Nat) : State := { recS with flt := { recS.flt with pingOut := out, pingMissed := missed, echoOk := echo, halt := halt } }

/-- The record whose hold runs out is due at 5, and not before; the write that fails is a record's, and another's is not. -/
theorem test_witness_fault_records :
    ((⟨7, 0, [], none, none, false, none, false, some 5⟩ : RingRec).count = none ∧ recS.flt.halt = 0 ∧
      ∃ t, (⟨7, 0, [], none, none, false, none, false, some 5⟩ : RingRec).holdUntil = some t ∧ t ≤ recS.time) ∧
    ¬ ((⟨7, 0, [], none, none, false, none, false, some 5⟩ : RingRec).count = none ∧ ackLate.flt.halt = 0 ∧
      ∃ t, (⟨7, 0, [], none, none, false, none, false, some 5⟩ : RingRec).holdUntil = some t ∧ t ≤ ackLate.time) ∧
    (∃ r i, mPurpose recS (rq true) = .faultRec r i) ∧ (∀ r i, mPurpose (sent up (.fetch 3) true) (rq true) ≠ .faultRec r i) := by
  refine ⟨⟨rfl, rfl, 5, rfl, by decide⟩, ?_, ⟨0, 3, by decide +kernel⟩, ?_⟩
  · rintro ⟨-, -, t, h, h'⟩
    cases h
    exact absurd h' (by decide)
  · intro r i h
    have h' : mPurpose (sent up (.fetch 3) true) (rq true) = .fetch 3 := by decide +kernel
    rw [h'] at h
    cases h

/-! ### The hypotheses of each clause are met, part 30 -/

/-- What the clauses of FaultsAreSequencedAndAFatalOneHalts ask of their states and operands is met. -/
theorem test_witness_faults_are_sequenced_and_a_fatal_one_halts :
    (fltN 0).flt.pend ≠ [] ∧
    nextFault (fltN 0) = some (0, flt3 0 false) ∧
    (fltN 0).ctlOn = true ∧
    (0, flt3 0 false) ∈ (fltN 0).flt.pend ∧
    (if escalates (fltN 0) (flt3 0 false) = true then (flt3 0 false).cls + 1 else (flt3 0 false).cls) ≠ 2 ∧
    nextFault (fltN 2) = some (0, flt3 2 false) ∧
    (fltN 2).ctlOn = true ∧
    (if escalates (fltN 2) (flt3 2 false) = true then (flt3 2 false).cls + 1 else (flt3 2 false).cls) = 2 ∧
    (fltN 2).flt.halt = 0 ∧
    nextFault (fltS 2) = some (0, flt3 2 false) ∧
    (fltS 2).ctlOn = true ∧
    (if escalates (fltS 2) (flt3 2 false) = true then (flt3 2 false).cls + 1 else (flt3 2 false).cls) = 2 ∧
    (fltS 2).flt.halt ≠ 0 ∧
    (up.flt.pend = [] ∨ up.ctlOn = false) ∧
    ((fltN 0).flt.halt ≠ 1 ∨ (fltN 0).flt.haltFlt = none) ∧
    (fltS 2).flt.halt = 1 ∧
    (fltS 2).flt.haltFlt = some (flt3 2 false) ∧
    (flt3 2 false).grp < 16 ∧
    (flt3 2 false).cause < 256 ∧
    0 < (fltS 2).b.eports := by
  (repeat' refine And.intro ?_ ?_) <;> decide +kernel

/-- What the clauses of LatchesFollowOriginAndClass ask of their states and operands is met. -/
theorem test_witness_latches_follow_origin_and_class :
    up.b.Permitted ∧
    (flt3 0 false).grp < 14 ∧
    (flt3 0 false).cause < 256 ∧
    (flt3 0 false).unit < 65536 ∧
    (flt3 0 false).prog = false ∧
    up.fb F.FLT_LATCH_C_VALID (flt3 0 false).grp = false ∧
    up.fb F.FLT_LATCH_K_VALID (flt3 0 false).grp = false ∧
    (flt3 0 true).grp < 14 ∧
    (flt3 0 true).cause < 256 ∧
    (flt3 0 true).unit < 65536 ∧
    (flt3 0 true).prog = true ∧
    fltP.grp < 14 ∧
    fltP.cause < 256 ∧
    fltP.unit < 65536 ∧
    fltP.prog = true ∧
    fltP.part = some 63 ∧
    latchS.b.Permitted ∧
    latchS.fb F.FLT_LATCH_C_VALID (flt3 0 false).grp = true ∧
    latchS.fb F.FLT_LATCH_K_VALID (flt3 0 false).grp = true ∧
    latchS.fb F.FLT_PLATCH_VALID 63 = true := by
  (repeat' refine And.intro ?_ ?_) <;> decide +kernel

/-- What the clauses of LatchesRingsAndInjectionTakeWrites ask of their states and operands is met. -/
theorem test_witness_latches_rings_and_injection_take_writes :
    HostReady recS ∧
    (BitVec.toNat (injW 0)).testBit 63 = true ∧
    (¬(fieldOf (injW 0) 22 21 = 3 ∨ fieldOf (injW 0) 22 21 = 2 ∧ recS.fb F.INT_FEAT_SECUREDEBUG = false ∧ recS.fb F.INT_FEAT_OPENLAB = false)) ∧
    (List.find? (fun x => x.fst == 3) recS.flt.autoack = some (3, 5)) ∧
    ((3, 5).snd ≤ recS.time ∧ recS.ctlOn = true ∧ recS.coreUp 4 = true ∧ recS.coreUp 5 = true) ∧
    recS.fb F.FLT_CFG_AUTOACK = true ∧
    (List.find? (fun x => x.id == 7) recS.flt.recs = some { id := 7, ring := 0, words := [], cmd := none, fetchQ := none, notice := false, count := none, issued := false, holdUntil := some 5 }) ∧
    (List.find? (fun y => y.tag == 7 && y.sent && y.wr) recS.mreqs = none) ∧
    (recS.tsync.cycles % 2048 = 0 ∧ recS.tsync.cycles ≠ recS.flt.pingAt ∧ awakePin recS = true) ∧
    recS.flt.pingOut = false ∧
    (recS.flt.pingOut = false ∨ recS.ctlOn = false) ∧
    (BitVec.toNat (injW 2)).testBit 63 = true ∧
    (fieldOf (injW 2) 22 21 = 3 ∨ fieldOf (injW 2) 22 21 = 2 ∧ recS.fb F.INT_FEAT_SECUREDEBUG = false ∧ recS.fb F.INT_FEAT_OPENLAB = false) ∧
    (6917529027641081856).testBit 63 = false ∧
    (List.find? (fun x => x.id == 9) recS.flt.recs = none) ∧
    (List.find? (fun y => y.tag == 9 && y.sent && y.wr) recS.mreqs = some (rq true)) ∧
    recS.f F.PRT_STAT_STATE 3 = 0 ∧
    (recS.f F.PRT_STAT_STATE = 1 ∨ recS.f F.PRT_STAT_STATE = 2) ∧
    (List.find? (fun x => x.fst == 5) recS.flt.autoack = none) ∧
    (List.find? (fun x => x.fst == 3) (ackS 0).flt.autoack = some (3, 5)) ∧
    ((3, 5).snd ≤ (ackS 0).time ∧ (ackS 0).ctlOn = true ∧ (ackS 0).coreUp 4 = true ∧ (ackS 0).coreUp 5 = true) ∧
    (ackS 0).fb F.FLT_CFG_AUTOACK = false ∧
    (List.find? (fun x => x.fst == 3) ackLate.flt.autoack = some (3, 5)) ∧
    (¬((3, 5).snd ≤ ackLate.time ∧ ackLate.ctlOn = true ∧ ackLate.coreUp 4 = true ∧ ackLate.coreUp 5 = true)) ∧
    (List.find? (fun x => x.id == 7) ackLate.flt.recs = some { id := 7, ring := 0, words := [], cmd := none, fetchQ := none, notice := false, count := none, issued := false, holdUntil := some 5 }) ∧
    (¬(up.tsync.cycles % 2048 = 0 ∧ up.tsync.cycles ≠ up.flt.pingAt ∧ awakePin up = true)) ∧
    ((pingS true false true 0).tsync.cycles % 2048 = 0 ∧ (pingS true false true 0).tsync.cycles ≠ (pingS true false true 0).flt.pingAt ∧ awakePin (pingS true false true 0) = true) ∧
    (pingS true false true 0).flt.pingOut = true ∧
    ((pingS true false true 0).flt.pingMissed = false ∨ (pingS true false true 0).flt.halt ≠ 0) ∧
    (pingS true false true 0).ctlOn = true ∧
    ((pingS true true true 0).tsync.cycles % 2048 = 0 ∧ (pingS true true true 0).tsync.cycles ≠ (pingS true true true 0).flt.pingAt ∧ awakePin (pingS true true true 0) = true) ∧
    (pingS true true true 0).flt.pingOut = true ∧
    (pingS true true true 0).flt.pingMissed = true ∧
    (pingS true true true 0).flt.halt = 0 ∧
    (List.find? (fun y => y.tag == 9 && y.sent && y.wr) (sent up (Purpose.fetch 3) true).mreqs = some (rq true)) := by
  (repeat' refine And.intro ?_ ?_) <;> decide +kernel

/-! ### Statements about power -/

/-- The block in a power state. -/
def pwrS (st : Nat) : State := setAll up [(F.PWR_STATE_STATE, 0, st)]

/-- Station 3's domain waits for its acknowledgement since 0; a bank's domain has timed out. -/
def domS (fail : Nat) (next : SMap Nat) : State :=
  { setAll up [(F.PWR_DOM_FAILED, up.b.domStation 3, fail), (F.PWR_STATE_STATE, 0, 1)] with
    time := 10 ^ 9, pwr := { domAt := [(up.b.domStation 3, (0, false)), (up.b.domBank 2, (0, false))], domNext := next, retryAt := [(up.b.domBank 5, 10 ^ 9)], retried := [up.b.domBank 9] } }

/-- The postmaster pair runs, FALLBACK is set and the ramp has ended. -/
def govS : State := { setAll up [(F.PWR_STAT_FALLBACK, 0, 1), (F.PWR_EXTCFG_EN, 15, 1), (F.PWR_CEIL_EFFECTIVE, 0, 65535)] with time := 10 ^ 10 }
/-- An asleep block whose wake time is reached; one entering. -/
def wakeT (st : Nat) : State := { (pwrS st).setF F.PWR_WAKE_TIME_TIME 0 1 with time := 1 }
/-- The same block with an echo port. -/
def pairS : State := { pwrS 2 with b := { up.b with echo := true } }
/-- A domain whose second request has run out. -/
def domR : State := { domS 0 [] with pwr := { (domS 0 []).pwr with domAt := [(up.b.domBank 9, (0, false))] } }
/-- The always-on island off; the control island off; the loops' next times not reached. -/
def aonOff : State := inRst 1 govS
def offCtl : State := govS.setF F.PWR_STATE_STATE 0 2
def doneS : State := { govS with pwr := { govS.pwr with interval := 10 ^ 10, pubs := 10 ^ 10, steps := 10 ^ 10 } }

/-! ### The hypotheses of each clause are met, part 32 -/

/-- What the clauses of PowerCommandsAndWakeEvents ask of their states and operands is met. -/
theorem test_witness_power_commands_and_wake_events :
    WorkReady (pwrS 0) ∧
    (pwrS 0).f F.PWR_STATE_STATE = 0 ∧
    lowRefuse (hostWr (pwrS 0).clear none 1048576 3) false = 0 ∧
    lowRefuse (hostWr (pwrS 0).clear none 1048576 4) true = 0 ∧
    WorkReady (pwrS 1) ∧
    (pwrS 1).f F.PWR_STATE_STATE = 1 ∧
    WorkReady (upQ { st := QState.active }) ∧
    lowRefuse (hostWr (upQ { st := QState.active }).clear none 1048576 3) false ≠ 0 ∧
    lowRefuse (hostWr (upQ { st := QState.active }).clear none 1048576 4) true ≠ 0 ∧
    (pwrS 0).rst = 0 ∧
    0 < (pwrS 0).b.links ∧
    (¬((pwrS 0).f F.PWR_WAKE_TIME_TIME ≠ 0 ∧ (pwrS 0).f F.PWR_WAKE_TIME_TIME ≤ (pwrS 0).time ∧ ((pwrS 0).f F.PWR_STATE_STATE = 2 ∨ (pwrS 0).f F.PWR_STATE_STATE = 3 ∨ (pwrS 0).f F.PWR_STATE_STATE = 4 ∧ (pwrS 0).pwr.sleepAt < (pwrS 0).f F.PWR_WAKE_TIME_TIME))) ∧
    (pwrS 0).b.links ≤ 6 ∧
    (pwrS 0).b.echo = true ∧
    (wakeT 2).rst = 0 ∧
    ((wakeT 2).f F.PWR_WAKE_TIME_TIME ≠ 0 ∧ (wakeT 2).f F.PWR_WAKE_TIME_TIME ≤ (wakeT 2).time ∧ ((wakeT 2).f F.PWR_STATE_STATE = 2 ∨ (wakeT 2).f F.PWR_STATE_STATE = 3 ∨ (wakeT 2).f F.PWR_STATE_STATE = 4 ∧ (wakeT 2).pwr.sleepAt < (wakeT 2).f F.PWR_WAKE_TIME_TIME)) := by
  (repeat' refine And.intro ?_ ?_) <;> decide +kernel

/-- What the clauses of DomainRequestsSettleOrFail ask of their states and operands is met. -/
theorem test_witness_domain_requests_settle_or_fail :
    aonOn (domS 1 []) = true ∧
    domWaits (domS 1 []) (up.b.domStation 3) = true ∧
    (List.find? (fun x => x.fst == up.b.domStation 3) (domS 1 []).pwr.domNext = none) ∧
    (List.find? (fun x => x.fst == up.b.domStation 3) (domS 1 []).pwr.domAt = some (up.b.domStation 3, 0, false)) ∧
    ((up.b.domStation 3, 0, false).snd.snd = false ∧ (up.b.domStation 3, 0, false).snd.fst + max 1 ((domS 1 []).f F.PWR_CFG_DOMTMO) * 1000 ≤ (domS 1 []).time) ∧
    (¬(5 ≤ domKind (domS 1 []).b (up.b.domStation 3) ∧ (domS 1 []).pwr.retried.contains (up.b.domStation 3) = false)) ∧
    (List.find? (fun x => x.fst == up.b.domStation 3) (domS 1 []).pwr.retryAt = none) ∧
    HostReady (domS 1 []) ∧
    up.b.domStation 3 < (domS 1 []).b.domains ∧
    (domS 1 []).fb F.PWR_DOM_FAILED (up.b.domStation 3) = true ∧
    ((domS 1 []).f F.PWR_STATE_STATE = 1 ∧ 2 ≤ 2 ∧ 2 ≤ leveled (domS 1 []).b ∧ (busyIslands (domS 1 [])).contains 2 = false ∧ mget 0 (domS 1 []).pwr.busyAt 2 + max 1 ((domS 1 []).f F.PWR_CFG_GATE) * 1000 ≤ (domS 1 []).time) ∧
    (¬((domS 1 []).f F.PWR_STATE_STATE = 1 ∧ 2 ≤ 1 ∧ 1 ≤ leveled (domS 1 []).b ∧ (busyIslands (domS 1 [])).contains 1 = false ∧ mget 0 (domS 1 []).pwr.busyAt 1 + max 1 ((domS 1 []).f F.PWR_CFG_GATE) * 1000 ≤ (domS 1 []).time)) ∧
    (List.find? (fun x => x.fst == up.b.domBank 2) (domS 1 []).pwr.domAt = some (up.b.domBank 2, 0, false)) ∧
    ((up.b.domBank 2, 0, false).snd.snd = false ∧ (up.b.domBank 2, 0, false).snd.fst + max 1 ((domS 1 []).f F.PWR_CFG_DOMTMO) * 1000 ≤ (domS 1 []).time) ∧
    (5 ≤ domKind (domS 1 []).b (up.b.domBank 2) ∧ (domS 1 []).pwr.retried.contains (up.b.domBank 2) = false) ∧
    up.b.domBank 2 < (domS 1 []).b.domains ∧
    (domS 1 []).fb F.PWR_DOM_FAILED (up.b.domBank 2) = false ∧
    domWaits (domS 1 []) (up.b.domBank 9) = false ∧
    (List.find? (fun x => x.fst == up.b.domBank 9) (domS 1 []).pwr.domAt = none) ∧
    (List.find? (fun x => x.fst == up.b.domBank 5) (domS 1 []).pwr.retryAt = some (up.b.domBank 5, 1000000000)) ∧
    (up.b.domBank 5, 1000000000).snd ≤ (domS 1 []).time ∧
    aonOn (domS 0 [(up.b.domStation 3, 0)]) = true ∧
    domWaits (domS 0 [(up.b.domStation 3, 0)]) (up.b.domStation 3) = true ∧
    (List.find? (fun x => x.fst == up.b.domStation 3) (domS 0 [(up.b.domStation 3, 0)]).pwr.domNext = some (up.b.domStation 3, 0)) ∧
    aonOn (atTime 5 (domS 0 [])) = true ∧
    (List.find? (fun x => x.fst == up.b.domStation 3) (atTime 5 (domS 0 [])).pwr.domAt = some (up.b.domStation 3, 0, false)) ∧
    (¬((up.b.domStation 3, 0, false).snd.snd = false ∧ (up.b.domStation 3, 0, false).snd.fst + max 1 ((atTime 5 (domS 0 [])).f F.PWR_CFG_DOMTMO) * 1000 ≤ (atTime 5 (domS 0 [])).time)) ∧
    (List.find? (fun x => x.fst == up.b.domBank 5) (atTime 5 (domS 0 [])).pwr.retryAt = some (up.b.domBank 5, 1000000000)) ∧
    (atTime 5 (domS 0 [])).time < (up.b.domBank 5, 1000000000).snd := by
  (repeat' refine And.intro ?_ ?_) <;> decide +kernel

/-- What the clauses of SensorsAndSupplyAreTaken ask of their states and operands is met. -/
theorem test_witness_sensors_and_supply_are_taken :
    aonOn govS = true ∧
    (¬(3 < 16 ∧ govS.fb F.PWR_EXTCFG_EN 3 = true ∧ mget 0 govS.pwr.extAt 3 + 10000000 ≤ govS.time)) ∧
    govS.fb F.PWR_CLAMP_SUPPLY = false ∧
    (aonOn govS = false ∨ 0 = 0 ∨ leveled govS.b < 0) ∧
    1 ≤ leveled govS.b ∧
    (15 < 16 ∧ govS.fb F.PWR_EXTCFG_EN 15 = true ∧ mget 0 govS.pwr.extAt 15 + 10000000 ≤ govS.time) ∧
    (aonOn govS = false ∨ 16 ≤ 16) ∧
    (aonOn govS = false ∨ 64 ≤ 64) ∧
    aonOn (govS.setF F.PWR_CLAMP_SUPPLY 0 1) = true ∧
    (govS.setF F.PWR_CLAMP_SUPPLY 0 1).fb F.PWR_CLAMP_SUPPLY = true := by
  (repeat' refine And.intro ?_ ?_) <;> decide +kernel

/-- What the clauses of GovernorForecastAndModelRun ask of their states and operands is met. -/
theorem test_witness_governor_forecast_and_model_run :
    govS.f F.PWR_CEIL_EFFECTIVE < 65536 ∧
    govS.ctlOn = true ∧
    govS.pwr.interval ≤ govS.time / 10000 ∧
    postRuns govS = true ∧
    govS.pwr.pubs ≤ govS.time / 1000000 ∧
    govS.pwr.steps ≤ govS.time / 1000000 ∧
    0 < zoneCount govS.b ∧
    govS.f F.PWR_ZONE_STATE = 0 ∧
    govS.fb F.PWR_STAT_FALLBACK = true ∧
    aonOn govS = true ∧
    max 1 (govS.f F.PWR_SAFE_RAMP) * 1000 ≤ govS.time - govS.pwr.rampAt ∧
    (govS.setF F.PWR_STAT_FALLBACK 0 0).f F.PWR_CEIL_EFFECTIVE < 65536 ∧
    ((govS.setF F.PWR_STAT_FALLBACK 0 0).fb F.PWR_STAT_FALLBACK = false ∨ aonOn (govS.setF F.PWR_STAT_FALLBACK 0 0) = false) ∧
    aonOff.f F.PWR_CEIL_EFFECTIVE < 65536 ∧
    (aonOff.ctlOn = false ∨ aonOff.time / 10000 < aonOff.pwr.interval) ∧
    (postRuns aonOff = false ∨ aonOff.time / 1000000 < aonOff.pwr.pubs) ∧
    (postRuns aonOff = false ∨ aonOff.time / 1000000 < aonOff.pwr.steps) := by
  (repeat' refine And.intro ?_ ?_) <;> decide +kernel

/-! ### Statements about firmware -/

/-- Firmware in a state, the vault zeroed or not; core 1 has crashed. -/
def fwS (step ready st upd : Nat) : State :=
  setAll up [(F.INT_STARTUP_STEP, 0, step), (F.FW_STAT_VAULTREADY, 0, ready), (F.FW_STAT_STATE, 0, st), (F.FW_UPDATE_STATE, 0, upd), (F.FW_CORE_STATE, 1, 2)]
/-- An update that is staged, all cores running. -/
def quietS (floor : Nat) : State := setAll up [(F.FW_UPDATE_STATE, 0, 2), (F.FW_STAT_FLOOR, 0, floor)]
def frozenOf (s : State) : State := startFallback ((s.qs.map (·.1)).foldl freezeQueue (s.clear.setF F.FW_UPDATE_STATE 0 4))
/-- Word 1 of the staging slot's image and a word that is beyond correction in the slot. -/
def badSlot (s : State) : State := { s with fw := { vault := [(slotBytes + 8, 8)], verr := [(slotBytes / 8, [1, 2, 3])] } }

/-- The code section of core 1 has a word that is beyond correction. -/
def badCore (failed : List Nat) : State := { fwS 6 1 2 0 with fw := { vault := [(24, 8), (29, 1)], verr := [(32, [1, 2, 3])], failed } }
/-- The checks wait for the settings to be read; a fatal fault; core 3 down; an image whose words read well but that is below the floor is active in the quiet point. -/
def readingS : State := { fwS 4 1 1 0 with cmt := { job := some (.read 0 none) } }
def haltedS : State := { up with flt := { halt := 7 } }
def coreDown : State := fwS 6 1 2 0
def activateS (s : State) : State := s.setF F.FW_UPDATE_STATE 0 4

/-! ### The hypotheses of each clause are met, part 36 -/

/-- What the clauses of VaultAccessesAndBoot ask of their states and operands is met. -/
theorem test_witness_vault_accesses_and_boot :
    HostReady up ∧
    up.rst = 0 ∧
    up.fb F.FW_STAT_VAULTREADY = false ∧
    up.f F.INT_STARTUP_STEP ≠ 2 ∧
    WorkReady up ∧
    (¬(1 % 2 = 1 ∧ up.fb F.FW_STAT_VAULTREADY = true ∧ (up.f F.FW_STAT_STATE = 0 ∨ up.f F.FW_STAT_STATE = 3))) ∧
    up.f F.FW_STAT_STATE ≠ 1 ∧
    up.f F.FW_UPDATE_STATE ≠ 1 ∧
    (fwS 2 0 0 0).rst = 0 ∧
    (fwS 2 0 0 0).fb F.FW_STAT_VAULTREADY = false ∧
    (fwS 2 0 0 0).f F.INT_STARTUP_STEP = 2 ∧
    ((fwS 3 1 0 0).rst ≠ 0 ∨ (fwS 3 1 0 0).fb F.FW_STAT_VAULTREADY = true) ∧
    WorkReady (fwS 3 1 0 0) ∧
    (1 % 2 = 1 ∧ (fwS 3 1 0 0).fb F.FW_STAT_VAULTREADY = true ∧ ((fwS 3 1 0 0).f F.FW_STAT_STATE = 0 ∨ (fwS 3 1 0 0).f F.FW_STAT_STATE = 3)) ∧
    hostOk (fwS 4 1 1 0) = true ∧
    (fwS 4 1 1 0).f F.FW_STAT_STATE = 1 ∧
    (fwS 4 1 1 0).cmt.job = none ∧
    hostOk readingS = true ∧
    readingS.f F.FW_STAT_STATE = 1 ∧
    readingS.cmt.job ≠ none := by
  (repeat' refine And.intro ?_ ?_) <;> decide +kernel

/-- What the clauses of CoresCrashReloadAndReturn ask of their states and operands is met. -/
theorem test_witness_cores_crash_reload_and_return :
    hostOk up = true ∧
    up.coreUp 0 = true ∧
    postRuns up = true ∧
    up.f F.FW_CORE_STATE ≠ 2 ∧
    (up.coreUp 0 = false ∨ 32 < 256) ∧
    (up.coreUp 0 = false ∨ 1 ≠ 2 ∧ 1 ≠ 3) ∧
    hostOk coreDown = true ∧
    coreDown.coreUp 1 = false ∧
    coreDown.f F.FW_CORE_STATE 1 = 2 ∧
    (vaultScan coreDown.clear (codeSection coreDown 1).fst (codeSection coreDown 1).snd).snd = true ∧
    hostOk (badCore [1]) = true ∧
    (badCore [1]).f F.FW_CORE_STATE 1 = 2 ∧
    (vaultScan (badCore [1]).clear (codeSection (badCore [1]) 1).fst (codeSection (badCore [1]) 1).snd).snd = false ∧
    (vaultScan (badCore [1]).clear (codeSection (badCore [1]) 1).fst (codeSection (badCore [1]) 1).snd).fst.fw.failed.contains 1 = true ∧
    hostOk (badCore []) = true ∧
    (badCore []).f F.FW_CORE_STATE 1 = 2 ∧
    (vaultScan (badCore []).clear (codeSection (badCore []) 1).fst (codeSection (badCore []) 1).snd).snd = false ∧
    (vaultScan (badCore []).clear (codeSection (badCore []) 1).fst (codeSection (badCore []) 1).snd).fst.fw.failed.contains 1 = false ∧
    hostOk (setAll up [(F.FW_CORE_STATE, 4, 3), (F.FW_CORE_STATE, 5, 3)]) = true ∧
    postRuns (setAll up [(F.FW_CORE_STATE, 4, 3), (F.FW_CORE_STATE, 5, 3)]) = false := by
  (repeat' refine And.intro ?_ ?_) <;> decide +kernel

/-- What the clauses of UpdatesAreStagedAndActivated ask of their states and operands is met. -/
theorem test_witness_updates_are_staged_and_activated :
    WorkReady up ∧
    (up.f F.FW_UPDATE_STATE = 0 ∨ up.f F.FW_UPDATE_STATE = 5) ∧
    up.f F.FW_UPDATE_STATE ≠ 1 ∧
    up.f F.FW_UPDATE_STATE ≠ 2 ∧
    up.f F.FW_UPDATE_STATE ≠ 3 ∧
    postRuns up = true ∧
    up.flt.halt = 0 ∧
    up.f F.FW_UPDATE_STATE ≠ 4 ∧
    (up.f F.FW_UPDATE_STATE ≠ 2 ∨ activationCode up ≠ 0) ∧
    WorkReady (fwS 6 1 2 1) ∧
    (fwS 6 1 2 1).f F.FW_UPDATE_STATE ≠ 0 ∧
    (fwS 6 1 2 1).f F.FW_UPDATE_STATE ≠ 5 ∧
    ((fwS 6 1 2 1).f F.FW_UPDATE_STATE = 1 ∨ (fwS 6 1 2 1).f F.FW_UPDATE_STATE = 2 ∨ (fwS 6 1 2 1).f F.FW_UPDATE_STATE = 3) ∧
    postRuns (fwS 6 1 2 1) = true ∧
    (fwS 6 1 2 1).flt.halt = 0 ∧
    (fwS 6 1 2 1).f F.FW_STAT_STATE ≠ 1 ∧
    (fwS 6 1 2 1).f F.FW_UPDATE_STATE = 1 ∧
    (verifySlot (fwS 6 1 2 1).clear (stagingSlot (fwS 6 1 2 1))).snd ≠ 0 ∧
    postRuns (quietS 0) = true ∧
    (quietS 0).flt.halt = 0 ∧
    (quietS 0).f F.FW_UPDATE_STATE = 2 ∧
    activationCode (quietS 0) = 0 ∧
    postRuns (activateS (quietS 0)) = true ∧
    (activateS (quietS 0)).flt.halt = 0 ∧
    (activateS (quietS 0)).f F.FW_UPDATE_STATE = 4 ∧
    (¬imgRollback (activateS (quietS 0)) (stagingSlot (activateS (quietS 0)) * slotBytes) < (activateS (quietS 0)).f F.FW_STAT_FLOOR) ∧
    (loadSlot (activateS (quietS 0)).clear (stagingSlot (activateS (quietS 0)))).snd = true ∧
    postRuns (activateS (quietS 1)) = true ∧
    (activateS (quietS 1)).flt.halt = 0 ∧
    (activateS (quietS 1)).f F.FW_UPDATE_STATE = 4 ∧
    imgRollback (activateS (quietS 1)) (stagingSlot (activateS (quietS 1)) * slotBytes) < (activateS (quietS 1)).f F.FW_STAT_FLOOR ∧
    postRuns (activateS (badSlot (quietS 0))) = true ∧
    (activateS (badSlot (quietS 0))).flt.halt = 0 ∧
    (activateS (badSlot (quietS 0))).f F.FW_UPDATE_STATE = 4 ∧
    (¬imgRollback (activateS (badSlot (quietS 0))) (stagingSlot (activateS (badSlot (quietS 0))) * slotBytes) < (activateS (badSlot (quietS 0))).f F.FW_STAT_FLOOR) ∧
    (loadSlot (activateS (badSlot (quietS 0))).clear (stagingSlot (activateS (badSlot (quietS 0))))).snd = false ∧
    (postRuns haltedS = false ∨ haltedS.flt.halt ≠ 0) := by
  (repeat' refine And.intro ?_ ?_) <;> decide +kernel

/-! ### Statements about observation -/

/-- Observation with a trace sampled each µs, a record made, and a replay run in a state. -/
def obsS (rp : Nat) : State := { setAll up [(F.OBS_TRC_CFG_EN, 0, 1), (F.OBS_TRC_CFG_CNT, 0, 1), (F.OBS_TRC_CFG_PERIOD, 0, 1), (F.OBS_TRC_CFG_SET, 0, 0x10), (F.OBS_RP_STAT_STATE, 0, rp)] with
  time := 10 ^ 12, obs := { made := [[0, 0, 0, 0]] } }

/-- A replay run in which queue 300 has waited for a record. -/
def waitRp (filed : List (List W64)) : State := { (obsS 1).setQ 300 { st := .active, rpSince := some 0 } with obs := { filed } }
/-- A record of queue 300 that a queue's decision uses. -/
def recLb : List W64 := [BitVec.ofNat 64 (9 * 2 ^ 56 + 2 ^ 54 + 300 * 2 ^ 36), 0, 0, 0]
/-- OPEN_LAB on; the view of partition 0's window is its own; counters of a placement. -/
def labS : State := up.setF F.INT_FEAT_OPENLAB 0 1
def setS (n : Nat) : State := (obsS 0).setF F.OBS_TRC_CFG_SET 0 n
/-- Staging full, with and without HOLD. -/
def fullLb (hold : Nat) : State := setAll { obsS 0 with obs := { made := [[0, 0, 0, 0]], staging := List.replicate 65536 [] } } [(F.OBS_LB_CFG_HOLD, 0, hold), (F.OBS_LB_CFG_EN, 0, 1)]
/-- A record dropped before. -/
def gapS : State := { obsS 0 with obs := { made := [[0, 0, 0, 0]], gap := true } }
def outRp : State := { obsS 0 with obs := { rpOut := true } }
def rpCmdOf (b : Body) : Cmd := { cmdOf b with q := 300, aux := 1, placed := true, st := match b with | .callp _ => .running | _ => .held }
/-- A CALLP's decision and a DISPATCH's in its queue, for which the run waits; a pin's record. -/
def rpC (b : Body) (filed : List (List W64)) : State :=
  { waitRp filed with cmds := [rpCmdOf b] }
def recPin : List W64 := [BitVec.ofNat 64 (5 * 2 ^ 56 + 2 ^ 54 + 300 * 2 ^ 36), 0, 0, 0]

/-- A queue has waited long enough, at a scan, at a CALLP and at a LAUNCH, or not at all. -/
theorem test_witness_replay_waits :
    (∀ s ∈ [waitRp [], rpC (.callp 1) [], rpC launchB []], s.f F.OBS_RP_STAT_STATE = 1 ∧ s.ctlOn = true ∧ s.flt.halt = 0 ∧
      (s.q 300).rpSince = some 0 ∧ 0 + max 1 (s.f F.OBS_RP_CFG_WAIT) * 1000000 ≤ s.time) ∧
    (obsS 0).f F.OBS_RP_STAT_STATE ≠ 1 := by decide +kernel
theorem test_witness_replay_other (d : Nat) : (rpCmdOf launchB).body ≠ .callp d := by
  intro h
  cases h
/-- Staging that is full. -/
theorem test_witness_full_staging (h : Nat) : 65536 ≤ (fullLb h).obs.staging.length := by
  have e : (fullLb h).obs.staging = List.replicate 65536 [] := rfl
  exact e ▸ Nat.le_of_eq List.length_replicate.symm

/-! ### The hypotheses of each clause are met, part 38 -/

/-- What the clauses of CountersAreSampledAndRecordsWritten ask of their states and operands is met. -/
theorem test_witness_counters_are_sampled_and_records_written :
    (obsS 0).b.Permitted ∧
    WorkReady (obsS 0) ∧
    Enabled (obsS 0) 0 ∧
    HostReady (obsS 0) ∧
    (obsS 0).fb F.INT_FEAT_OPENLAB = false ∧
    ((obsS 0).fb F.OBS_TRC_CFG_EN = true ∧ (obsS 0).fb F.OBS_TRC_CFG_CNT = true ∧ (obsS 0).f F.OBS_TRC_CFG_PERIOD ≠ 0 ∧ (obsS 0).ctlOn = true ∧ (obsS 0).obs.trcAt + (obsS 0).f F.OBS_TRC_CFG_PERIOD * 1000 ≤ (obsS 0).time) ∧
    16 ≤ (obsS 0).f F.OBS_TRC_CFG_SET ∧
    (obsS 0).f F.OBS_TRC_CFG_SET < 21 ∧
    up.b.Permitted ∧
    (¬(up.fb F.OBS_TRC_CFG_EN = true ∧ up.fb F.OBS_TRC_CFG_CNT = true ∧ up.f F.OBS_TRC_CFG_PERIOD ≠ 0 ∧ up.ctlOn = true ∧ up.obs.trcAt + up.f F.OBS_TRC_CFG_PERIOD * 1000 ≤ up.time)) ∧
    labS.b.Permitted ∧
    HostReady labS ∧
    Enabled labS 0 ∧
    labS.fb F.INT_FEAT_OPENLAB = true ∧
    (setS 2).b.Permitted ∧
    ((setS 2).fb F.OBS_TRC_CFG_EN = true ∧ (setS 2).fb F.OBS_TRC_CFG_CNT = true ∧ (setS 2).f F.OBS_TRC_CFG_PERIOD ≠ 0 ∧ (setS 2).ctlOn = true ∧ (setS 2).obs.trcAt + (setS 2).f F.OBS_TRC_CFG_PERIOD * 1000 ≤ (setS 2).time) ∧
    (setS 2).f F.OBS_TRC_CFG_SET < 4 ∧
    (setS 5).b.Permitted ∧
    ((setS 5).fb F.OBS_TRC_CFG_EN = true ∧ (setS 5).fb F.OBS_TRC_CFG_CNT = true ∧ (setS 5).f F.OBS_TRC_CFG_PERIOD ≠ 0 ∧ (setS 5).ctlOn = true ∧ (setS 5).obs.trcAt + (setS 5).f F.OBS_TRC_CFG_PERIOD * 1000 ≤ (setS 5).time) ∧
    (4 ≤ (setS 5).f F.OBS_TRC_CFG_SET ∧ (setS 5).f F.OBS_TRC_CFG_SET < 16 ∨ 21 ≤ (setS 5).f F.OBS_TRC_CFG_SET) ∧
    (obsS 0).obs.made = [[0, 0, 0, 0]] ∧
    (obsS 0).ctlOn = true ∧
    (obsS 0).obs.staging.length < 65536 ∧
    (up.obs.made = [] ∨ up.ctlOn = false) ∧
    (fullLb 0).obs.made = [[0, 0, 0, 0]] ∧
    (fullLb 0).ctlOn = true ∧
    ((fullLb 0).fb F.OBS_LB_CFG_HOLD = false ∨ (fullLb 0).fb F.OBS_LB_CFG_EN = false) ∧
    (fullLb 1).obs.made = [[0, 0, 0, 0]] ∧
    (fullLb 1).ctlOn = true ∧
    ((fullLb 1).fb F.OBS_LB_CFG_HOLD = true ∧ (fullLb 1).fb F.OBS_LB_CFG_EN = true) := by
  (repeat' refine And.intro ?_ ?_) <;> decide +kernel

/-- What the clauses of ReplayRunsStartStopAndDiverge ask of their states and operands is met. -/
theorem test_witness_replay_runs_start_stop_and_diverge :
    WorkReady (obsS 0) ∧
    (obsS 0).ctlOn = true ∧
    (obsS 0).f F.OBS_RP_STAT_STATE ≠ 1 ∧
    (obsS 0).obs.rpOut = false ∧
    WorkReady (obsS 1) ∧
    (obsS 1).ctlOn = true ∧
    (obsS 1).f F.OBS_RP_STAT_STATE = 1 ∧
    WorkReady outRp ∧
    outRp.ctlOn = true ∧
    outRp.f F.OBS_RP_STAT_STATE ≠ 1 ∧
    outRp.obs.rpOut = true ∧
    rpCmd (waitRp []) 300 = none ∧
    rpCmd (rpC (Body.callp 1) []) 300 = some (rpCmdOf (Body.callp 1)) ∧
    (rpCmdOf (Body.callp 1)).body = Body.callp 1 ∧
    rpCmd (rpC launchB []) 300 = some (rpCmdOf launchB) := by
  (repeat' refine And.intro ?_ ?_) <;> decide +kernel

/-! ### Statements about partitions and commits -/

/-- Partition 0 in a state of its disable sequence, with a drain limit of 1 ms that has passed. -/
def prtS (st step : Nat) : State := { setAll up [(F.PRT_STAT_STATE, 0, st), (F.PRT_STAT_STEP, 0, step), (F.PRT_CFG_DRAINLIM, 0, 1)] with time := 1000000, prt := [(0, {})] }
/-- A mailbox of partition 0 in a state, with a request of a code. -/
def mboxS (st code : Nat) : State := setAll up [(F.PRT_MBOX_CTL_STATE, 0, st), (F.PRT_MBOX_REQ_WORD, 0, code * 2 ^ 56)]

/-- The commit of a limit of one partition; partition 0 uses it up. -/
def logOne : W64 × W64 := (BitVec.ofNat 64 (7 * 2 ^ 12 + 2 ^ 16), BitVec.ofNat 64 (logCheck (BitVec.ofNat 64 (7 * 2 ^ 12 + 2 ^ 16)) 0 * 2 ^ 8))
/-- The word of an ARM or COMMIT of setting 7 with value 5, and a state in which it has been armed; the K-port programs an entry. -/
def armW : W64 := BitVec.ofNat 64 (7 * 2 ^ 60 + 5)
def armS (st : Nat) : State := setAll up [(F.CMT_STAT_STATE, 0, st), (F.CMT_ARM_SETTING, 0, 7), (F.CMT_ARM_VALUE, 0, 5)]
def kS (step : Nat) (back : W64) : State := { up with cmt := { job := some (.prog 3 1 2 step back), kreq := some (true, 7, 2) } }
/-- A paired partition; a partition in whose drain a queue still runs, and one whose drain aborts; the limit of one partition used up. -/
def pairedS : State := setAll (prtS 1 0) [(F.ECH_STAT_PAIR, 0, 3), (F.ECH_PARTS_PARTS, 0, 1)]
def drainS : State := (prtS 2 3).setQ 300 { st := .draining, g := [(3, 7)] }
def abortS : State := (prtS 2 3).setF F.PRT_STAT_ABORT 0 1
def limitS : State := { up with cmt := { log := [(0, logOne)] } }
/-- The token of a SECURE_DEBUG arm has not been written; another setting; another value; and a setting of no meaning. -/
def debugW : W64 := BitVec.ofNat 64 (5 * 2 ^ 60 + 1)
def armW6 : W64 := BitVec.ofNat 64 (7 * 2 ^ 60 + 6)
def badW : W64 := 5
/-- The armed word is refused, its value being in effect; it is too late. -/
def armRef : State := { armS 1 with cmt := { job := some (.prog 3 1 2 0 0) } }
def armLate : State := atTime 1000001 (armS 1)
/-- The log is being read. -/
def readS (w0 : Option W64) : State := { up with cmt := { job := some (.read 3 w0), kreq := some (false, 6, 0) } }
/-- A repair waits; the log is full; the postmaster does not run. -/
def waitRepS : State := { up with cmt := { reps := [(5, 1)] } }
def fullK : State := { up with cmt := { kbytes := 0 } }
def noPost : State := setAll up [(F.FW_CORE_STATE, 4, 3), (F.FW_CORE_STATE, 5, 3)]
/-- A token of a key number that does not exist. -/
def tokS : State := up.setF F.CMT_TOKEN_WORD 12 0x400

/-! ### The hypotheses of each clause are met, part 40 -/

/-- What the clauses of PartitionAndMailboxRequestsTakeEffect ask of their states and operands is met. -/
theorem test_witness_partition_and_mailbox_requests_take_effect_1 :
    hostOk up = true ∧
    HostReady up ∧
    up.f F.PRT_STAT_STATE ≠ 0 ∧
    up.f F.PRT_STAT_STATE = 1 ∧
    pairedPart up 0 = false ∧
    (up.f F.PRT_STAT_STATE ≠ 2 ∨ disableEnds up 0 = false) ∧
    (¬(up.f F.PRT_STAT_STATE = 2 ∧ up.fb F.PRT_STAT_ABORT = false ∧ up.f F.PRT_STAT_STEP = 3 ∧ up.f F.PRT_CFG_DRAINLIM ≠ 0 ∧ (up.dis 0).at3 + up.f F.PRT_CFG_DRAINLIM * 1000000 ≤ up.time)) ∧
    up.f F.PRT_STAT_STATE 5 = 0 ∧
    liveParts up < settingOf up 7 0 ∧
    up.f F.PRT_STAT_STATE 5 ≠ 1 ∧
    (up.f F.PRT_STAT_STATE 5 ≠ 2 ∨ up.fb F.PRT_STAT_ABORT 5 = true) ∧
    hostOk (prtS 2 3) = true ∧
    HostReady (prtS 2 3) ∧
    (prtS 2 3).f F.PRT_STAT_STATE = 2 ∧
    (prtS 2 3).fb F.PRT_STAT_ABORT = false ∧
    disableEnds (prtS 2 3) 0 = true ∧
    (prtS 2 3).f F.PRT_STAT_STEP = 3 ∧
    ((prtS 2 3).f F.PRT_STAT_STATE = 2 ∧ (prtS 2 3).fb F.PRT_STAT_ABORT = false ∧ (prtS 2 3).f F.PRT_STAT_STEP = 3 ∧ (prtS 2 3).f F.PRT_CFG_DRAINLIM ≠ 0 ∧ ((prtS 2 3).dis 0).at3 + (prtS 2 3).f F.PRT_CFG_DRAINLIM * 1000000 ≤ (prtS 2 3).time) ∧
    hostOk (prtS 2 4) = true ∧
    (prtS 2 4).f F.PRT_STAT_STATE = 2 ∧
    disableEnds (prtS 2 4) 0 = true ∧
    (prtS 2 4).f F.PRT_STAT_STEP = 4 ∧
    hostOk (prtS 2 5) = true ∧
    (prtS 2 5).f F.PRT_STAT_STATE = 2 ∧
    disableEnds (prtS 2 5) 0 = true ∧
    (prtS 2 5).f F.PRT_STAT_STEP = 5 ∧
    hostOk pairedS = true ∧
    HostReady pairedS ∧
    pairedS.f F.PRT_STAT_STATE = 1 ∧
    pairedPart pairedS 0 = true ∧
    hostOk limitS = true ∧
    HostReady limitS ∧
    limitS.f F.PRT_STAT_STATE 5 = 0 ∧
    settingOf limitS 7 0 ≤ liveParts limitS ∧
    (up.f F.PRT_STAT_STATE = 1 ∨ up.f F.PRT_STAT_STATE = 2) ∧
    up.f F.PRT_MBOX_CTL_STATE = 0 ∧
    up.f F.PRT_MBOX_CTL_STATE ≠ 2 ∧
    up.f F.PRT_MBOX_CTL_STATE ≠ 3 ∧
    (postRuns up = false ∨ up.f F.PRT_MBOX_CTL_STATE ≠ 1) ∧
    ((mboxS 1 1).f F.PRT_STAT_STATE = 1 ∨ (mboxS 1 1).f F.PRT_STAT_STATE = 2) ∧
    hostOk (mboxS 1 1) = true ∧
    HostReady (mboxS 1 1) ∧
    (mboxS 1 1).f F.PRT_MBOX_CTL_STATE ≠ 0 ∧
    postRuns (mboxS 1 1) = true ∧
    (mboxS 1 1).f F.PRT_MBOX_CTL_STATE = 1 := by
  (repeat' refine And.intro ?_ ?_) <;> decide +kernel

/-- What the clauses of PartitionAndMailboxRequestsTakeEffect ask of their states and operands is met. -/
theorem test_witness_partition_and_mailbox_requests_take_effect_2 :
    mboxGood (mboxS 1 1) 0 = true ∧
    ((mboxS 1 12).f F.PRT_STAT_STATE = 1 ∨ (mboxS 1 12).f F.PRT_STAT_STATE = 2) ∧
    hostOk (mboxS 1 12) = true ∧
    postRuns (mboxS 1 12) = true ∧
    (mboxS 1 12).f F.PRT_MBOX_CTL_STATE = 1 ∧
    mboxGood (mboxS 1 12) 0 = false ∧
    ((mboxS 2 1).f F.PRT_STAT_STATE = 1 ∨ (mboxS 2 1).f F.PRT_STAT_STATE = 2) ∧
    hostOk (mboxS 2 1) = true ∧
    HostReady (mboxS 2 1) ∧
    (mboxS 2 1).f F.PRT_MBOX_CTL_STATE = 2 ∧
    ((mboxS 3 1).f F.PRT_STAT_STATE = 1 ∨ (mboxS 3 1).f F.PRT_STAT_STATE = 2) ∧
    hostOk (mboxS 3 1) = true ∧
    HostReady (mboxS 3 1) ∧
    (mboxS 3 1).f F.PRT_MBOX_CTL_STATE = 3 := by
  (repeat' refine And.intro ?_ ?_) <;> decide +kernel

/-- What the clauses of CommitsAreArmedProgrammedAndReadBack ask of their states and operands is met. -/
theorem test_witness_commits_are_armed_programmed_and_read_back_1 :
    WorkReady up ∧
    commitCause (((((up.clear.setF F.CMT_ARM_SETTING 0 (fieldOf armW6 63 60)).setF F.CMT_ARM_LINK 0 (fieldOf armW6 59 57)).setF F.CMT_ARM_FORV 0 (fieldOf armW6 56 56)).setF F.CMT_ARM_FOR 0 (fieldOf armW6 55 50)).setF F.CMT_ARM_VALUE 0 (fieldOf armW6 23 0)) (fieldOf armW6 63 60) (fieldOf armW6 59 57) (fieldOf armW6 23 0) = 0 ∧
    (fieldOf armW6 63 60 = 5 → tokenOk (((((up.clear.setF F.CMT_ARM_SETTING 0 (fieldOf armW6 63 60)).setF F.CMT_ARM_LINK 0 (fieldOf armW6 59 57)).setF F.CMT_ARM_FORV 0 (fieldOf armW6 56 56)).setF F.CMT_ARM_FOR 0 (fieldOf armW6 55 50)).setF F.CMT_ARM_VALUE 0 (fieldOf armW6 23 0)) = true) ∧
    up.f F.CMT_STAT_STATE ≠ 1 ∧
    (up.cmt.kreq = none ∨ up.cmt.job = none) ∧
    5 < up.b.links ∧
    ((((entriesOf up 8 5).any fun e => fieldOf e.snd 23 16 == 1 % 256) || up.cmt.reps.contains (5, 1 % 256)) = false) ∧
    (up.cmt.job = none ∧ postRuns up = true ∧ up.f F.CMT_STAT_STATE ≠ 2) ∧
    up.cmt.reps = [] ∧
    (¬(8 ≤ (entriesOf up 8 5).length ∨ emptySlot up = none)) ∧
    commitCause (((((up.clear.setF F.CMT_ARM_SETTING 0 (fieldOf badW 63 60)).setF F.CMT_ARM_LINK 0 (fieldOf badW 59 57)).setF F.CMT_ARM_FORV 0 (fieldOf badW 56 56)).setF F.CMT_ARM_FOR 0 (fieldOf badW 55 50)).setF F.CMT_ARM_VALUE 0 (fieldOf badW 23 0)) (fieldOf badW 63 60) (fieldOf badW 59 57) (fieldOf badW 23 0) ≠ 0 ∧
    WorkReady (armS 1) ∧
    (armS 1).f F.CMT_STAT_STATE = 1 ∧
    (armS 1).time ≤ (armS 1).cmt.armAt + 1000000 ∧
    (¬(fieldOf armW6 63 60 = (armS 1).f F.CMT_ARM_SETTING ∧ fieldOf armW6 59 57 = (armS 1).f F.CMT_ARM_LINK ∧ fieldOf armW6 56 56 = (armS 1).f F.CMT_ARM_FORV ∧ fieldOf armW6 55 50 = (armS 1).f F.CMT_ARM_FOR ∧ fieldOf armW6 23 0 = (armS 1).f F.CMT_ARM_VALUE)) ∧
    (fieldOf armW 63 60 = (armS 1).f F.CMT_ARM_SETTING ∧ fieldOf armW 59 57 = (armS 1).f F.CMT_ARM_LINK ∧ fieldOf armW 56 56 = (armS 1).f F.CMT_ARM_FORV ∧ fieldOf armW 55 50 = (armS 1).f F.CMT_ARM_FOR ∧ fieldOf armW 23 0 = (armS 1).f F.CMT_ARM_VALUE) ∧
    commitCause (armS 1) (fieldOf armW 63 60) (fieldOf armW 59 57) (fieldOf armW 23 0) = 0 ∧
    5 < armRef.b.links ∧
    ((((entriesOf armRef 8 5).any fun e => fieldOf e.snd 23 16 == 1 % 256) || armRef.cmt.reps.contains (5, 1 % 256)) = false) ∧
    (¬(armRef.cmt.job = none ∧ postRuns armRef = true ∧ armRef.f F.CMT_STAT_STATE ≠ 2)) ∧
    WorkReady armRef ∧
    armRef.f F.CMT_STAT_STATE = 1 ∧
    armRef.time ≤ armRef.cmt.armAt + 1000000 ∧
    (fieldOf armW 63 60 = armRef.f F.CMT_ARM_SETTING ∧ fieldOf armW 59 57 = armRef.f F.CMT_ARM_LINK ∧ fieldOf armW 56 56 = armRef.f F.CMT_ARM_FORV ∧ fieldOf armW 55 50 = armRef.f F.CMT_ARM_FOR ∧ fieldOf armW 23 0 = armRef.f F.CMT_ARM_VALUE) ∧
    commitCause armRef (fieldOf armW 63 60) (fieldOf armW 59 57) (fieldOf armW 23 0) ≠ 0 ∧
    WorkReady armLate ∧
    armLate.f F.CMT_STAT_STATE = 1 ∧
    armLate.cmt.armAt + 1000000 < armLate.time ∧
    (readS none).cmt.kreq ≠ none ∧
    (readS none).cmt.job = some (KJob.read 3 none) ∧
    (readS (some 1)).cmt.kreq ≠ none ∧
    (readS (some 1)).cmt.job = some (KJob.read 3 (some 1)) ∧
    (kS 0 0).cmt.kreq ≠ none ∧
    postRuns (kS 0 0) = true ∧
    (kS 0 0).cmt.job = some (KJob.prog 3 1 2 0 0) ∧
    (kS 1 0).cmt.kreq ≠ none ∧
    postRuns (kS 1 0) = true ∧
    (kS 1 0).cmt.job = some (KJob.prog 3 1 2 1 0) ∧
    (kS 2 0).cmt.kreq ≠ none ∧
    postRuns (kS 2 0) = true ∧
    (kS 2 0).cmt.job = some (KJob.prog 3 1 2 2 0) ∧
    (kS 3 1).cmt.kreq ≠ none ∧
    postRuns (kS 3 1) = true ∧
    (kS 3 1).cmt.job = some (KJob.prog 3 1 2 3 1) ∧
    (up.b.links ≤ 9 ∨ (((entriesOf up 8 9).any fun e => fieldOf e.snd 23 16 == 1 % 256) || up.cmt.reps.contains (9, 1 % 256)) = true) := by
  (repeat' refine And.intro ?_ ?_) <;> decide +kernel

/-- What the clauses of CommitsAreArmedProgrammedAndReadBack ask of their states and operands is met. -/
theorem test_witness_commits_are_armed_programmed_and_read_back_2 :
    5 < fullK.b.links ∧
    ((((entriesOf fullK 8 5).any fun e => fieldOf e.snd 23 16 == 1 % 256) || fullK.cmt.reps.contains (5, 1 % 256)) = false) ∧
    (fullK.cmt.job = none ∧ postRuns fullK = true ∧ fullK.f F.CMT_STAT_STATE ≠ 2) ∧
    fullK.cmt.reps = [] ∧
    (8 ≤ (entriesOf fullK 8 5).length ∨ emptySlot fullK = none) ∧
    WorkReady tokS ∧
    commitCause (((((tokS.clear.setF F.CMT_ARM_SETTING 0 (fieldOf debugW 63 60)).setF F.CMT_ARM_LINK 0 (fieldOf debugW 59 57)).setF F.CMT_ARM_FORV 0 (fieldOf debugW 56 56)).setF F.CMT_ARM_FOR 0 (fieldOf debugW 55 50)).setF F.CMT_ARM_VALUE 0 (fieldOf debugW 23 0)) (fieldOf debugW 63 60) (fieldOf debugW 59 57) (fieldOf debugW 23 0) = 0 ∧
    fieldOf debugW 63 60 = 5 ∧
    tokenOk (((((tokS.clear.setF F.CMT_ARM_SETTING 0 (fieldOf debugW 63 60)).setF F.CMT_ARM_LINK 0 (fieldOf debugW 59 57)).setF F.CMT_ARM_FORV 0 (fieldOf debugW 56 56)).setF F.CMT_ARM_FOR 0 (fieldOf debugW 55 50)).setF F.CMT_ARM_VALUE 0 (fieldOf debugW 23 0)) = false := by
  (repeat' refine And.intro ?_ ?_) <;> decide +kernel

/-! ### Statements about ports and resets -/

/-- A request that has had an error response. -/
def errS (wr : Bool) : State := { sent up (.watchRead 3) wr with mreqs := [⟨9, 1, 0, 0x1000, 64, wr, [], ⟨0, some 5, false⟩, false, 0, 112, true, some 0⟩] }

/-- Engine port 1 has reported; hall logic is on. -/
def repS : State := setAll engS [(F.INT_EPORT_REPORTED, 1, 1), (F.PWR_DOM_STATE, up.b.domLogic 0, 3)]
/-- The request of an access that has had an error; a record of the unit's command waits; 64 requests are unanswered; the port is ready; the unit's hall has no power. -/
def rqErr (wr : Bool) : MReq := ⟨9, 1, 0, 0x1000, 64, wr, [], ⟨0, some 5, false⟩, false, 0, 112, true, some 0⟩
def unitHeld : State := { repS with flt := { recs := [⟨7, 0, [], some 77, none, false, none, false, some 5⟩] } }
def busyPort : State := { repS with ops := List.replicate 64 (mkOp (.engGal 1 9 0) ⟨0, some 5, false⟩ 1 .gal 0 512 false []) }
def portReady : State := repS.setF F.INT_EPORT_READY 1 1
def hallDark : State := repS.setF F.PWR_DOM_STATE (up.b.domLogic 0) 0
def capsW (c : Nat) : W64 := BitVec.ofNat 64 (2 ^ 56 + c * 2 ^ 52 + 3 * 2 ^ 44)
/-- The start-up has not reached step 2; SECURE_DEBUG is on. -/
def earlyS : State := up.setF F.INT_STARTUP_STEP 0 1
def debugS : State := up.setF F.INT_FEAT_SECUREDEBUG 0 1

/-! ### The hypotheses of each clause are met, part 42 -/

/-- What the clauses of ResetsLeaveTheirScope ask of their states and operands is met. -/
theorem test_witness_resets_leave_their_scope :
    up.b.Permitted ∧
    up.rst ≠ 1 ∧
    up.rst ≠ 4 ∧
    (([F.INT_RST_WARM, F.INT_RST_SAFE, F.INT_RST_LAST, F.ECH_STAT_TIEBREAK, F.PWR_CLAMP_SUPPLY, F.PWR_CEIL_PPORT, F.PWR_CEIL_EFFECTIVE, F.PWR_STAT_EFFSLEW].all fun y => F.PH_PW_POLL_INTERVAL.key 0 != y.key 0) = true) ∧
    (up.rst = 0 ∨ up.rst = 4) ∧
    (inRst 1 up).b.Permitted ∧
    ((inRst 1 up).rst = 1 ∨ (inRst 1 up).rst = 4) ∧
    (inRst 1 up).rst ≠ 0 ∧
    (inRst 1 up).rst ≠ 4 := by
  (repeat' refine And.intro ?_ ?_) <;> decide +kernel

/-- What the clauses of HostAccessesAreAnswered ask of their states and operands is met. -/
theorem test_witness_host_accesses_are_answered :
    HostReady up ∧
    (hRules 4 8 = false ∨ 21233664 ≤ 4) ∧
    aonOn up = true ∧
    instrOpen up 2 = false ∧
    hRules 256 8 = true ∧
    hRules 20971520 8 = true ∧
    inDoorbells 20971520 = true ∧
    aonOn debugS = true ∧
    instrOpen debugS 2 = true ∧
    earlyS.rst = 0 ∧
    earlyS.f F.PWR_STATE_STATE ≤ 1 ∧
    earlyS.f F.INT_STARTUP_STEP < 2 ∧
    (pwrS 2).rst = 0 ∧
    ((pwrS 2).f F.PWR_STATE_STATE = 2 ∨ (pwrS 2).f F.PWR_STATE_STATE = 3) ∧
    inDoorbells 256 = false ∧
    (inRst 3 up).rst ≠ 0 ∧
    aonOn (inRst 1 up) = false := by
  (repeat' refine And.intro ?_ ?_) <;> decide +kernel

/-- What the clauses of MemoryAnswersReachTheirRequests ask of their states and operands is met. -/
theorem test_witness_memory_answers_reach_their_requests :
    mreqOf (sent up (Purpose.watchRead 3) false) 9 false = some (rq false) ∧
    Resp.dataerr ≠ Resp.okay ∧
    mreqOf (sent up (Purpose.watchRead 3) false) 9 true = none ∧
    (List.find? (fun r => r.port == 0 && r.errAt.isSome && decide (r.pa ≤ 4159) && decide (4159 < r.pa + r.len)) (sent up (Purpose.watchRead 3) false).mreqs = none) ∧
    (List.find? (fun r => r.tag == 9 && r.errAt.isSome) (sent up (Purpose.watchRead 3) false).mreqs = none) ∧
    mreqOf up 9 false = none ∧
    mreqOf (sent up (Purpose.watchRead 3) true) 9 true = some (rq true) ∧
    (List.find? (fun r => r.port == 0 && r.errAt.isSome && decide (r.pa ≤ 4159) && decide (4159 < r.pa + r.len)) (errS true).mreqs = some (rqErr true)) ∧
    (List.find? (fun r => r.tag == 9 && r.errAt.isSome) (errS true).mreqs = some (rqErr true)) := by
  (repeat' refine And.intro ?_ ?_) <;> decide +kernel

/-- What the clauses of EnginesReportAndAccessTheGallery ask of their states and operands is met. -/
theorem test_witness_engines_report_and_access_the_gallery :
    1 < repS.b.eports ∧
    repS.ctlOn = true ∧
    repS.flt.halt = 0 ∧
    fieldOf (capsW 5) 63 56 = 1 ∧
    repS.fb F.INT_EPORT_REPORTED 1 = true ∧
    repS.fb F.INT_EPORT_READY 1 = false ∧
    engPending repS 1 < 64 ∧
    unitByTag repS 1 9 = some (unitOn (Place.port 1)) ∧
    repS.cmdHeld (unitOn (Place.port 1)).cmd = false ∧
    repS.domOn (repS.b.domLogic (repS.hallOf (if true = true then 0 / 32 * 32 else 0 / 512 * 512))) = true ∧
    fieldOf 0 63 56 ≠ 1 ∧
    unitByTag repS 1 8 = none ∧
    1 < portReady.b.eports ∧
    portReady.ctlOn = true ∧
    portReady.flt.halt = 0 ∧
    (portReady.fb F.INT_EPORT_REPORTED 1 = false ∨ portReady.fb F.INT_EPORT_READY 1 = true) ∧
    1 < hallDark.b.eports ∧
    hallDark.ctlOn = true ∧
    hallDark.flt.halt = 0 ∧
    engPending hallDark 1 < 64 ∧
    unitByTag hallDark 1 9 = some (unitOn (Place.port 1)) ∧
    hallDark.cmdHeld (unitOn (Place.port 1)).cmd = false ∧
    hallDark.domOn (hallDark.b.domLogic (hallDark.hallOf (if true = true then 0 / 32 * 32 else 0 / 512 * 512))) = false ∧
    1 < unitHeld.b.eports ∧
    unitHeld.ctlOn = true ∧
    unitHeld.flt.halt = 0 ∧
    engPending unitHeld 1 < 64 ∧
    unitByTag unitHeld 1 9 = some (unitOn (Place.port 1)) ∧
    unitHeld.cmdHeld (unitOn (Place.port 1)).cmd = true ∧
    1 < busyPort.b.eports ∧
    busyPort.ctlOn = true ∧
    busyPort.flt.halt = 0 ∧
    64 ≤ engPending busyPort 1 := by
  (repeat' refine And.intro ?_ ?_) <;> decide +kernel

end Sys2Proof.Tests
end

section
/-! SUPPORT. The invariant of the model along every step (spec/00 R6, spec/18 R471, R472). -/

namespace Sys2Proof.Machine

/-- Every row of the opcode table is modelled: its command answers a next state, which is some effect of its own run from the state. -/
theorem exec_eq_next_run (c : Instr) (s : State) : ∃ f : State → State, exec c s = .next (s.run f) := by
  cases c <;> exact ⟨_, rfl⟩

/-- A command keeps the build and the commands that wait behind it. -/
theorem exec_frame (c : Instr) (s : State) : ∃ t, exec c s = .next t ∧ t.b = s.b ∧ t.pending = s.pending := by
  obtain ⟨f, hf⟩ := exec_eq_next_run c s
  exact ⟨s.run f, hf, State.run_b s f, State.run_pending s f⟩

theorem step_of_pending_nil {s : State} (h : s.pending = []) : step s = .next s := by
  simp [step, h]

theorem step_of_pending_cons {s : State} {c : Instr} {l : List Instr} (h : s.pending = c :: l) :
    step s = exec c { s with pending := l } := by
  simp [step, h]

/-- A step never stops; it keeps the build and takes no command from the queue but the front one. -/
theorem step_frame (s : State) : ∃ t, step s = .next t ∧ t.b = s.b ∧ t.pending = s.pending.tail := by
  cases hp : s.pending with
  | nil => exact ⟨s, step_of_pending_nil hp, rfl, hp⟩
  | cons c l =>
    rw [step_of_pending_cons hp]
    exact exec_frame c { s with pending := l }

/-- The invariant speaks of the build and the waiting commands alone, so a state with the same build and fewer waiting commands meets it too. -/
theorem State.Inv.of_pending_subset {s t : State} (h : s.Inv) (hb : t.b = s.b) (hp : t.pending ⊆ s.pending) : t.Inv := by
  obtain ⟨hbuild, hwf⟩ := h
  rw [← hb] at hbuild hwf
  exact ⟨hbuild, fun c hc => hwf c (hp hc)⟩

/-- Settles O3: a step keeps the build and only shortens the queue. -/
theorem invIsKeptByEveryStep : Obligations.InvIsKeptByEveryStep := by
  intro s hs
  obtain ⟨t, hstep, hb, hp⟩ := step_frame s
  have hsub : t.pending ⊆ s.pending := hp ▸ (List.tail_sublist s.pending).subset
  exact ⟨t, hstep, hs.of_pending_subset hb hsub, hb, hp⟩

end Sys2Proof.Machine
end

section
/-! SUPPORT. What a step runs, and the moves that follow from the state alone in a state where nothing goes on of itself (spec/01 R22, R24, spec/18 R472, R491). -/

namespace Sys2Proof.Machine

/-- Settles O1: the queue's front decides. -/
theorem stepRunsTheFrontCommand : Obligations.StepRunsTheFrontCommand :=
  fun _ _ _ => ⟨step_of_pending_cons, step_of_pending_nil⟩

/-! ### Each move, where its work is missing -/

section
variable {s : State}

theorem finishAll_of_no_ops (n : Nat) (h : s.ops = []) : finishAll n s = s := by
  cases n <;> simp [finishAll, h]

theorem flushLinks_of_no_traffic (hm : s.ltx = []) (hc : s.lret = []) : s.flushLinks = s := by
  simp [State.flushLinks, hm, hc]

/-! The units -/

theorem pumpStations_of_no_stations (n : Nat) (h : s.stns = []) : pumpStations n s = s := by
  cases n <;> simp [pumpStations, h]

theorem collPump_of_no_collectives (n : Nat) (h : s.colls = []) : collPump n s = s := by
  cases n <;> simp [collPump, h]

theorem pstopSettle_of_no_commands (h : s.cmds = []) : pstopSettle s = s := by
  simp [pstopSettle, h]

/-- A partition waits for its share only with a command of its own. -/
theorem waiting_of_no_commands (h : s.cmds = []) (p : Nat) : waiting s p = false := by
  simp [waiting, h]

theorem shareSettle_of_no_balances (hc : s.cmds = []) (hb : s.sch.bal = []) : shareSettle s = s := by
  simp [shareSettle, waiting_of_no_commands hc, hb]

theorem drainSettle_outside_drain (h : s.f F.SCH_TTSTAT_PHASE ≠ 1) : drainSettle s = s := by
  simp [drainSettle, h]

/-! The queues, the records and the sides -/

theorem settleQueues_of_no_queues (h : s.qs = []) : settleQueues s = s := by
  simp [settleQueues, h]

theorem pumpM_of_no_requests (h : s.mreqs = []) : s.pumpM = s := by
  cases s
  subst h
  rfl

theorem xlResume_of_no_ops (ho : s.ops = []) (hm : s.mreqs = []) : xlResume s = s := by
  simp [xlResume, ho, pumpM_of_no_requests hm]

theorem settleRings_of_no_records (hr : s.flt.recs = []) (ho : s.ops = []) (hm : s.mreqs = []) : settleRings s = s := by
  simp [settleRings, hr, xlResume_of_no_ops ho hm]

theorem finishSettle_of_no_commands (h : s.cmds = []) : finishSettle s = s := by
  simp [finishSettle, h]

theorem lsigSettle_of_no_signals (h : s.lsigs = []) : lsigSettle s = s := by
  simp [lsigSettle, h]

theorem compareSettle_of_no_digests (h : s.ech.mine = []) : compareSettle s = s := by
  simp [compareSettle, h]

theorem echoSettle_of_no_pair (h : s.b.echo = false) : echoSettle s = s := by
  simp [echoSettle, h]

theorem replaySettle_of_no_run (h : s.f F.OBS_RP_STAT_STATE ≠ 1) : replaySettle s = s := by
  simp [replaySettle, h]

/-- The stall times and the reported cycles are made anew from the queues, so both must be empty already. -/
theorem stallSettle_of_no_queues (hq : s.qs = []) (hs : s.stall = []) (hc : s.cyc = []) : stallSettle s = s := by
  cases s
  subst hq hs hc
  rfl

/-! Power, start-up and update -/

theorem heldSettle_of_none_held (h : s.setIdx F.GAL_CPWR_STAT_HELD = []) : heldSettle s = s := by
  simp [heldSettle, h]

theorem busySettle_of_none_busy (h : busyIslands s = []) : busySettle s = s := by
  simp [busySettle, h]

/-- Entry and wake sequences run in power states 4 and 5 alone (spec/14 R398). -/
theorem pwrSettle_of_no_sequence (n : Nat) (h : s.f F.PWR_STATE_STATE ≤ 3) : pwrSettle n s = s := by
  have h4 : s.f F.PWR_STATE_STATE ≠ 4 := by omega
  have h5 : s.f F.PWR_STATE_STATE ≠ 5 := by omega
  cases n <;> simp [pwrSettle, h4, h5]

theorem startSettle_after_first_step (h : s.f F.INT_STARTUP_STEP ≠ 1) : startSettle s = s := by
  simp [startSettle, h]

theorem updateSettle_of_none_pending (h2 : s.f F.FW_UPDATE_STATE ≠ 2) (h3 : s.f F.FW_UPDATE_STATE ≠ 3) : updateSettle s = s := by
  simp [updateSettle, h2, h3]

end

/-! ### All of them -/

/-- The moves wait for the release of a reset (spec/18 R472). -/
theorem settle_in_reset {s : State} (h : s.rst ≠ 0) : settle s = s := by
  simp [settle, h]

theorem settle_at_rest {s : State} (h : AtRest s) : settle s = s := by
  obtain ⟨hops, hmreqs, hltx, hlret, hcyc, hqs, hcmds, -, hstns, hcolls, hbal, hlsigs, hrecs, hstall, hmine,
    hecho, hphase, hreplay, hheld, hbusy, hpower, hstart, hready, hdeferred⟩ := h
  have units : settleUnitsAll s = s := by
    simp [settleUnitsAll, pumpStations_of_no_stations, hstns, collPump_of_no_collectives, hcolls, pstopSettle_of_no_commands,
      shareSettle_of_no_balances, hcmds, hbal, drainSettle_outside_drain hphase]
  have sides : settleSides s = s := by
    simp [settleSides, settleRings_of_no_records hrecs hops hmreqs, finishSettle_of_no_commands hcmds, lsigSettle_of_no_signals hlsigs,
      compareSettle_of_no_digests hmine, echoSettle_of_no_pair hecho, replaySettle_of_no_run hreplay, stallSettle_of_no_queues hqs hstall hcyc]
  have power : settlePower s = s := by
    simp [settlePower, heldSettle_of_none_held hheld, busySettle_of_none_busy hbusy, pwrSettle_of_no_sequence _ hpower,
      startSettle_after_first_step hstart, updateSettle_of_none_pending hready hdeferred]
  simp [settle, finishAll_of_no_ops _ hops, units, settleQueues_of_no_queues hqs, sides, power, flushLinks_of_no_traffic hltx hlret]

theorem settle_eq_self {s : State} (h : AtRest s ∨ s.rst ≠ 0) : settle s = s := h.elim settle_at_rest settle_in_reset

/-- A command whose own effect ends at rest, or in a reset, gives exactly that effect. -/
theorem State.run_eq_effect (s : State) (f : State → State) (h : AtRest (f s.clear) ∨ (f s.clear).rst ≠ 0) :
    s.run f = { f s.clear with b := s.b, pending := s.pending } := by
  rw [State.run, State.close, settle_eq_self h]

/-- The TAP and the outputs of the step before are no part of being at rest. -/
theorem trst_clear_rests {s : State} (h : AtRest s ∨ s.rst ≠ 0) : AtRest (trst s.clear) ∨ (trst s.clear).rst ≠ 0 := h

/-- TRST_N where nothing goes on of itself (spec/18 R491). -/
theorem exec_trstN_at_rest {s : State} (h : AtRest s ∨ s.rst ≠ 0) : exec .trstN s = .next { s with out := [], tap := ([], 0) } :=
  congrArg Host.Outcome.next (State.run_eq_effect s trst (trst_clear_rests h))

/-- Settles O5: no move finds work, so what a command leaves is its own effect; TRST_N is one such command. -/
theorem nothingFollowsAtRest : Obligations.NothingFollowsAtRest :=
  ⟨fun _ => settle_eq_self, State.run_eq_effect, fun _ => exec_trstN_at_rest⟩

end Sys2Proof.Machine
end

section
/-! SUPPORT. ENQUEUE at steps 3 to 6, and the claim, the publication and the pin of parcel editions (spec/04 R119 to R126). -/

namespace Sys2Proof.Machine

/-! ### The rows run their operations -/

section
variable {s t : State} {q p n : Nat}

theorem exec_enqueueSpaceAvailable (h : enqAgain s.clear q = t) : exec (.enqueueSpaceAvailable q) s = .next (s.close t) := by
  rw [← h]; rfl

theorem exec_parcelClaim (h : giveClaim s.clear p n = t) : exec (.parcelClaim p n) s = .next (s.close t) := by
  rw [← h]; rfl

theorem exec_publication (h : publish s.clear p n = t) : exec (.publication p n) s = .next (s.close t) := by
  rw [← h]; rfl

theorem exec_editionPin (h : pinNewest s.clear q = t) : exec (.editionPin q) s = .next (s.close t) := by
  rw [← h]; rfl

end

/-! ### ENQUEUE at steps 3 to 5 (spec/04 R119, R120) -/

section
variable {s : State} {q t id : Nat} {c : Cmd} {a : W64}

theorem enqAgain_of_none_waits (h : s.cmds.find? (enqWaits q) = none) : enqAgain s q = s := by
  simp [enqAgain, h]

theorem enqAgain_of_waits (h : s.cmds.find? (enqWaits q) = some c) : enqAgain s q = enqGo s c.id c.buf := by
  simp [enqAgain, h]

section
variable (hc : s.cmd? id = some c) (hb : c.body = .enqueue t a) (hpart : s.f F.PRT_STAT_STATE (s.qPart t) ≠ 2)
include hc hb hpart

theorem enqGo_of_target_off (img : List Byte) (ht : (s.q t).st = .disabled ∨ (s.q t).st = .draining) :
    enqGo s id img = endCmd (s.setF F.QE_ENQ_LOST t (s.f F.QE_ENQ_LOST t + 1)) id .done := by
  simp [enqGo, hc, hb, hpart, ht]

theorem enqGo_without_room (img : List Byte) (hdis : (s.q t).st ≠ .disabled) (hdrain : (s.q t).st ≠ .draining) (hroom : enqRoom s t = false) :
    enqGo s id img = enqWait s c img := by
  simp [enqGo, hc, hb, hpart, hdis, hdrain, hroom]

theorem enqGo_of_first (img : List Byte) (hdis : (s.q t).st ≠ .disabled) (hdrain : (s.q t).st ≠ .draining) (hroom : enqRoom s t = true)
    (hfree : s.verdict (s.qPart c.q) (some c.q) (.target t) = .free) (hfirst : enqFirst s c t = true) :
    enqGo s id img = enqPut s c t img := by
  simp [enqGo, hc, hb, hpart, hdis, hdrain, hroom, hfree, hfirst]

end

/-! ### ENQUEUE at step 6 -/

/-- A queue that settles moves alone, and only the end of DRAINING clears its pending bit (spec/02 R52). -/
theorem queueSettle_cases (s : State) (q : Nat) :
    queueSettle s q = s ∨ ∃ Q, queueSettle s q = s.setQ q Q ∧ ((s.q q).st ≠ .draining → Q.pend = (s.q q).pend) := by
  unfold queueSettle
  dsimp only
  split
  · split
    · exact .inr ⟨_, rfl, fun _ => rfl⟩
    · exact .inl rfl
  · split
    · exact .inr ⟨_, rfl, fun _ => rfl⟩
    · exact .inl rfl
  next hdrain =>
    split
    · exact .inr ⟨_, rfl, fun h => absurd hdrain h⟩
    · exact .inl rfl
  · exact .inl rfl

theorem queueSettle_pend (h : (s.q q).st ≠ .draining) : ((queueSettle s q).q q).pend = (s.q q).pend := by
  obtain heq | ⟨Q, heq, hpend⟩ := queueSettle_cases s q
  · rw [heq]
  · rw [heq, State.q_setQ_same, hpend h]

theorem queueSettle_q_ne {x : Nat} (h : x ≠ q) : (queueSettle s q).q x = s.q x := by
  obtain heq | ⟨Q, heq, -⟩ := queueSettle_cases s q
  · rw [heq]
  · rw [heq, State.q_setQ_ne s q x Q h]

theorem q_of_qs {s t : State} (h : t.qs = s.qs) (x : Nat) : t.q x = s.q x := by
  simp only [State.q, h]

/-- A record of the letterbook changes no queue. -/
theorem note_q (s : State) (part : Option Nat) (full : Bool) (kind : Nat) (q : Option Nat) (w2 w3 x : Nat) :
    (s.note part full kind q w2 w3).q x = s.q x :=
  q_of_qs (noted_note s part full kind q w2 w3).qs x

theorem ring_pend (src : Nat) (h : (s.q t).st ≠ .draining) : ((ring s t src).q t).pend = true := by
  rw [ring, queueSettle_pend] <;> rw [note_q, State.q_setQ_same]
  exact h

theorem ring_q_ne (src : Nat) {x : Nat} (h : x ≠ t) : (ring s t src).q x = s.q x := by
  rw [ring, queueSettle_q_ne h, note_q, State.q_setQ_ne s t x _ h]

end

/-- The end of an access changes no queue of itself. -/
theorem over_q (s : State) (tag : Nat) (o : Op) (x : Nat) : (s.over tag o).q x = s.q x :=
  q_of_qs (mDrop_sent (s.setOp o) tag).qs x

theorem exec_enqueueImageWriteResponse_last {s : State} {tag id t : Nat} {r : MReq} {o : Op} (h : LastAnswer s tag true r o) (hpur : o.pur = .enqWrite id t) :
    exec (.enqueueImageWriteResponse tag .okay) s
      = .next (s.close (watchesHit (endCmd (ring (s.clear.over tag (o.given tag [])) t 1) id .done) r.pa r.len)) := by
  obtain ⟨-, -, hdone⟩ := given_ends h []
  have hfinish : finishOp (s.clear.over tag (o.given tag [])) (o.given tag []) = endCmd (ring (s.clear.over tag (o.given tag [])) t 1) id .done := by
    simp [finishOp, hpur, enqWritten, hdone]
  change Host.Outcome.next (s.close (mWriteFor s.clear _ tag .okay)) = _
  rw [mWriteFor_ends h (by simp [hpur]), hfinish]

/-! ### The table of parcels (spec/04 R123) -/

section
variable (s : State) (x : Parcel)

@[simp] theorem setParcel_flds : (setParcel s x).flds = s.flds := by unfold setParcel; split <;> rfl
@[simp] theorem setParcel_qs : (setParcel s x).qs = s.qs := by unfold setParcel; split <;> rfl
@[simp] theorem setParcel_cmds : (setParcel s x).cmds = s.cmds := by unfold setParcel; split <;> rfl
@[simp] theorem setParcel_gal : (setParcel s x).gal = s.gal := by unfold setParcel; split <;> rfl
@[simp] theorem reclaim_flds : (reclaim s).flds = s.flds := rfl
@[simp] theorem reclaim_qs : (reclaim s).qs = s.qs := rfl
@[simp] theorem reclaim_cmds : (reclaim s).cmds = s.cmds := rfl
@[simp] theorem reclaim_gal : (reclaim s).gal = s.gal := rfl
@[simp] theorem reclaim_pcls : (reclaim s).pcls = s.pcls := rfl

theorem mirPart_of_flds {s t : State} (h : t.flds = s.flds) (p : Nat) : t.mirPart p = s.mirPart p := by
  simp only [State.mirPart, State.f, h]

theorem getParcel_of_pcls {s t : State} (h : t.pcls = s.pcls) (p n : Nat) : getParcel t p n = getParcel s p n := by
  simp only [getParcel, findParcel, h]

/-- The entry of a parcel is its own. -/
theorem getParcel_part_num (p n : Nat) : (getParcel s p n).part = p ∧ (getParcel s p n).num = n := by
  unfold getParcel
  cases h : findParcel s p n with
  | none => exact ⟨rfl, rfl⟩
  | some y => simpa using List.find?_some h

theorem findParcel_setParcel_same : findParcel (setParcel s x) x.part x.num = some x := by
  cases h : findParcel s x.part x.num with
  | none =>
    have hnone : s.pcls.find? (fun y => y.part == x.part && y.num == x.num) = none := h
    simp [findParcel, setParcel, List.find?_append, hnone]
  | some y =>
    have hsome : s.pcls.find? (fun y => y.part == x.part && y.num == x.num) = some y := h
    have hkey : (fun y : Parcel => y.part == x.part && y.num == x.num) ∘ (fun y => if y.part = x.part ∧ y.num = x.num then x else y)
        = fun y => y.part == x.part && y.num == x.num := by
      funext y
      by_cases hy : y.part = x.part ∧ y.num = x.num <;> simp [hy]
    have hy : y.part = x.part ∧ y.num = x.num := by simpa using List.find?_some hsome
    have hpcls : (setParcel s x).pcls = s.pcls.map fun y => if y.part = x.part ∧ y.num = x.num then x else y := by simp [setParcel, h]
    rw [findParcel, hpcls, List.find?_map, hkey, hsome]
    simp [hy]

theorem getParcel_setParcel_same (p n : Nat) (hp : x.part = p) (hn : x.num = n) : getParcel (setParcel s x) p n = x := by
  subst hp hn
  simp [getParcel, findParcel_setParcel_same]

end

/-! ### Claims and publications (spec/04 R124) -/

theorem giveClaim_of_free {s : State} {p n id : Nat} {l : List Nat} (hclaim : (getParcel s p n).claim = none) (hwait : (getParcel s p n).waiting = id :: l) :
    giveClaim s p n = parcelGo (setParcel s { getParcel s p n with claim := some id, waiting := l }) id := by
  simp [giveClaim, hclaim, hwait]

theorem giveClaim_of_held {s : State} {p n : Nat} (h : (getParcel s p n).claim ≠ none) : giveClaim s p n = s := by
  obtain ⟨id, hid⟩ := Option.ne_none_iff_exists'.mp h
  simp [giveClaim, hid]

theorem giveClaim_of_none_waits {s : State} {p n : Nat} (h : (getParcel s p n).waiting = []) : giveClaim s p n = s := by
  cases hclaim : (getParcel s p n).claim <;> simp [giveClaim, hclaim, h]

/-- The state in which a parcel has no newest edition and its claim is free. -/
def undefinedState (s : State) (p n : Nat) : State := reclaim (setParcel s { getParcel s p n with newest := none, claim := none })

/-- The state in which edition `e` is published as the newest of a parcel whose claim is free. -/
def publishedState (s : State) (p n : Nat) (e : Edition) : State :=
  reclaim (setParcel { s with eds := s.eds.map fun y => if y.key = e.key then { y with published := true, pins := 0 } else y }
    { getParcel s p n with newest := some e.key.ed, gen := e.key.gen, claim := none })

section
variable (s : State) (p n : Nat) (e : Edition)

@[simp] theorem undefinedState_flds : (undefinedState s p n).flds = s.flds := by simp [undefinedState]
@[simp] theorem undefinedState_qs : (undefinedState s p n).qs = s.qs := by simp [undefinedState]
@[simp] theorem undefinedState_cmds : (undefinedState s p n).cmds = s.cmds := by simp [undefinedState]
@[simp] theorem publishedState_flds : (publishedState s p n e).flds = s.flds := by simp [publishedState]
@[simp] theorem publishedState_qs : (publishedState s p n e).qs = s.qs := by simp [publishedState]
@[simp] theorem publishedState_gal : (publishedState s p n e).gal = s.gal := by simp [publishedState]

theorem getParcel_undefinedState : getParcel (undefinedState s p n) p n = { getParcel s p n with newest := none, claim := none } := by
  obtain ⟨hp, hn⟩ := getParcel_part_num s p n
  exact (getParcel_of_pcls (reclaim_pcls _) p n).trans (getParcel_setParcel_same _ _ p n hp hn)

theorem getParcel_publishedState :
    getParcel (publishedState s p n e) p n = { getParcel s p n with newest := some e.key.ed, gen := e.key.gen, claim := none } := by
  obtain ⟨hp, hn⟩ := getParcel_part_num s p n
  exact (getParcel_of_pcls (reclaim_pcls _) p n).trans (getParcel_setParcel_same _ _ p n hp hn)

end

section
variable {s : State} {p n id : Nat} {c : Cmd} {e : Edition} (hclaim : (getParcel s p n).claim = some id) (hc : s.cmd? id = some c)
include hclaim hc

theorem publish_of_not_ready (haux : c.aux ≠ 4) : publish s p n = s := by
  simp [publish, hclaim, hc, haux]

variable (hid : c.id = id) (hmir : s.mirPart p = false) (haux : c.aux = 4)
include hid hmir haux

theorem publish_pfree {m : Nat} (hb : c.body = .pfree m) : publish s p n = endCmd (undefinedState s p n) id .done := by
  have hmir' : (setParcel s { getParcel s p n with newest := none, claim := none }).mirPart p = false := by
    rw [mirPart_of_flds (setParcel_flds _ _), hmir]
  simp [publish, hclaim, hc, haux, hb, hmir', hid, undefinedState]

variable (he : makingOf s id = some e)
include he

theorem publish_pdef {loc : Bool} {m len : Nat} {src : W64} (hb : c.body = .pdef loc m src len) :
    publish s p n = endCmd (publishedState s p n e) id .done := by
  have hmir' : (publishedState s p n e).mirPart p = false := by rw [mirPart_of_flds (publishedState_flds s p n e), hmir]
  rw [publishedState] at hmir'
  simp [publish, hclaim, hc, haux, hb, hid, he, hmir', publishedState]

theorem publish_ppatch {gd off m cnt : Nat} {src : W64} (hb : c.body = .ppatch gd off m src cnt) :
    publish s p n = endCmd (((publishedState s p n e).setG c.q gd (BitVec.ofNat 64 e.key.ed)).setCmd
      { c with sumR := gd, sumV := BitVec.ofNat 64 e.key.ed }) id .done := by
  have hmir' : (publishedState s p n e).mirPart p = false := by rw [mirPart_of_flds (publishedState_flds s p n e), hmir]
  rw [publishedState] at hmir'
  simp [publish, hclaim, hc, haux, hb, hid, he, hmir', publishedState]

end

/-! ### Registers (spec/03 R62) -/

theorem greg_of_qs {s t : State} (h : t.qs = s.qs) (q g : Nat) : t.greg q g = s.greg q g := by
  simp only [State.greg, State.q, h]

/-- G0 reads 0, whatever is written to it. -/
theorem greg_setG_same (s : State) (q g : Nat) (v : W64) : (s.setG q g v).greg q g = if g = 0 then 0 else v := by
  by_cases hg : g = 0 <;> simp [State.greg, State.setG, hg, State.q_setQ_same, mget_mset_same]

theorem greg_setG_ne (s : State) (q : Nat) {g k : Nat} (v : W64) (h : k ≠ g) : (s.setG q g v).greg q k = s.greg q k := by
  by_cases hg : g = 0 <;> simp [State.greg, State.setG, hg, State.q_setQ_same, mget_mset_ne, h]

/-! ### The pin of a CALLP (spec/04 R125) -/

/-- The word of the CALLP at depth 0 that a further call is made under; `word` where it is made at depth 0 itself. -/
def outermostCall (word : Nat) : List Frame → Nat
  | [] => word
  | f :: r => (r.getLastD f).top

/-- The queue after a CALLP at `word`: the program goes on at word 0 of the edition, the way back is on the call stack. -/
def Queue.called (Q : Queue) (word : Nat) (k : EdKey) : Queue :=
  { Q with stack := ⟨Q.loc, Q.pc, outermostCall word Q.stack⟩ :: Q.stack, loc := some k, pc := 0, win := [], winAt := 0 }

section
variable {s : State} {q n ed : Nat} {c : Cmd}

theorem pinNewest_of_none_asks (h : s.cmds.find? (asksPin q) = none) : pinNewest s q = s := by
  simp [pinNewest, h]

/-- A pin in the CALLP's own program, where no record decides: of the queues only the CALLP's changes. -/
theorem pinNewest_of_newest (h : s.cmds.find? (asksPin q) = some c) (hb : c.body = .callp n) (hcur : (curDesc s q).map (·.count) = some c.sq)
    (hfree : s.verdict (s.qPart q) (some q) (.queue q) = .free) (hnew : (getParcel s (s.qPart q) n).newest = some ed) :
    ∃ u : State, u.qs = s.qs ∧
      pinNewest s q = endCmd (u.setQ q ((s.q q).called c.word ⟨s.qPart q, n, (getParcel s (s.qPart q) n).gen, ed⟩)) c.id .done := by
  let u := pin (s.note (some (s.qPart q)) false 5 (some q) (sqOrd c.sq c.ord) (n * 2 ^ 32 + ed)) ⟨s.qPart q, n, (getParcel s (s.qPart q) n).gen, ed⟩ true
  have hqs : u.qs = s.qs := (noted_note s _ _ _ _ _ _).qs
  refine ⟨u, hqs, ?_⟩
  rw [← q_of_qs hqs q]
  simp only [pinNewest, h, hb, hcur, hfree, hnew, ne_eq, not_true_eq_false, if_false]
  rfl

end

/-! ### The clauses -/

/-- An ENQUEUE that waits at step 3 is tried again. -/
theorem exec_enqueueSpaceAvailable_of_waits {s : State} {q : Nat} {c : Cmd} {u : State} (h : s.cmds.find? (enqWaits q) = some c)
    (hgo : enqGo s.clear c.id c.buf = u) : exec (.enqueueSpaceAvailable q) s = .next (s.close u) :=
  exec_enqueueSpaceAvailable ((enqAgain_of_waits (s := s.clear) h).trans hgo)

/-- Settles O10: each row runs its operation, and each clause names the branch that the operation takes. -/
theorem enqueuesAndParcelsWaitTheirTurn : Obligations.EnqueuesAndParcelsWaitTheirTurn := by
  intro s q p n id tag t ed c r o l a e
  refine ⟨?enqueueNone, ?enqueueWaits, ?imageWritten, ?claimFree, ?claimHeld, ?publication, ?pinNone, ?pin⟩
  case enqueueNone => exact fun hnone => exec_enqueueSpaceAvailable (enqAgain_of_none_waits (s := s.clear) hnone)
  case enqueueWaits =>
    intro hfind hc hb hpart
    refine ⟨fun ht => ?_, fun hdis hdrain hroom => ?_, fun hdis hdrain hroom hfree hfirst => ?_⟩ <;>
      refine exec_enqueueSpaceAvailable_of_waits hfind ?_
    · exact enqGo_of_target_off (s := s.clear) hc hb hpart _ ht
    · exact enqGo_without_room (s := s.clear) hc hb hpart _ hdis hdrain hroom
    · exact enqGo_of_first (s := s.clear) hc hb hpart _ hdis hdrain hroom hfree hfirst
  case imageWritten =>
    intro h hpur
    have hq : ∀ x, (s.clear.over tag (o.given tag [])).q x = s.q x := over_q s.clear tag (o.given tag [])
    exact ⟨exec_enqueueImageWriteResponse_last h hpur, fun ht => ring_pend 1 (by rwa [hq]), fun x hx => (ring_q_ne 1 hx).trans (hq x)⟩
  case claimFree => exact fun hclaim hwait => exec_parcelClaim (giveClaim_of_free (s := s.clear) hclaim hwait)
  case claimHeld =>
    rintro (hclaim | hwait)
    · exact exec_parcelClaim (giveClaim_of_held (s := s.clear) hclaim)
    · exact exec_parcelClaim (giveClaim_of_none_waits (s := s.clear) hwait)
  case publication =>
    intro hclaim hc hid hmir
    refine ⟨fun haux => exec_publication (publish_of_not_ready (s := s.clear) hclaim hc haux), fun haux hb => ?_, ?_, fun gd off src cnt haux hb he => ?_⟩
    · have hparcel := getParcel_undefinedState s.clear p n
      exact ⟨_, exec_publication (publish_pfree (s := s.clear) hclaim hc hid hmir haux hb), by simp [defined, hparcel], congrArg Parcel.claim hparcel,
        undefinedState_qs .., undefinedState_cmds ..⟩
    · rintro haux ⟨loc, src, len, hb⟩ he
      have hparcel := getParcel_publishedState s.clear p n e
      exact ⟨_, exec_publication (publish_pdef (s := s.clear) hclaim hc hid hmir haux he hb), congrArg Parcel.newest hparcel, congrArg Parcel.gen hparcel,
        congrArg Parcel.claim hparcel, publishedState_qs .., publishedState_gal ..⟩
    · have hparcel := (getParcel_of_pcls (State.setG_pcls _ c.q gd (BitVec.ofNat 64 e.key.ed)) p n).trans (getParcel_publishedState s.clear p n e)
      exact ⟨_, exec_publication (publish_ppatch (s := s.clear) hclaim hc hid hmir haux he hb), congrArg Parcel.newest hparcel, congrArg Parcel.gen hparcel,
        congrArg Parcel.claim hparcel, greg_setG_same .., fun g hg => (greg_setG_ne _ _ _ hg).trans (greg_of_qs (publishedState_qs ..) _ _),
        (State.setG_gal ..).trans (publishedState_gal ..)⟩
  case pinNone => exact fun hnone => exec_editionPin (pinNewest_of_none_asks (s := s.clear) hnone)
  case pin =>
    intro hfind hb hcur hfree hnew
    obtain ⟨u, hqs, hpin⟩ := pinNewest_of_newest (s := s.clear) hfind hb hcur hfree hnew
    refine ⟨_, exec_editionPin hpin, ?_⟩
    rw [State.q_setQ_same]
    exact ⟨rfl, rfl, rfl, rfl, rfl, rfl, fun y hy => (State.q_setQ_ne _ q y _ hy).trans (q_of_qs hqs y)⟩

end Sys2Proof.Machine
end

section
/-! SUPPORT. The reads of watched fences: their answers, a watch that is free, the fence doorbell and the poll interval (spec/05 R147, R148, R150, R160). -/

namespace Sys2Proof.Machine

/-- The access is the read of a watch. -/
def isWatchRead : Purpose → Bool
  | .watchRead _ => true
  | _ => false

/-- The waiter waits for a free watch. -/
def lacksWatch (w : Waiter) : Bool := match w.tgt with
  | .nowatch .. => true
  | _ => false

section
variable {s t : State} {tag id p : Nat} {w : Watch} {x : Waiter} {o : Op}

/-! ### A read of a watch returns (spec/05 R148) -/

/-- The value of a watch's read goes to the watch's waiters; the watch is no longer being read. -/
def watchGiven (s : State) (w : Watch) (o : Op) : State :=
  watchValue (setWatch s { w with reading := false, again := false }) w ((wordsOf 1 o.data).headD 0)

theorem watchDone_of_failed (hw : s.watches.find? (·.id == id) = some w) (ho : o.status ≠ .done) :
    watchDone s id o = freeWatches (wakeAll (setWatch s { w with reading := false, again := false }) (.watch id) .uncorrected) := by
  simp [watchDone, hw, ho]

/-- After its value has been given, a watch that is still there is read again when that was asked for. -/
theorem watchDone_of_done (hw : s.watches.find? (·.id == id) = some w) (ho : o.status = .done) :
    watchDone s id o = match (watchGiven s w o).watches.find? (·.id == id) with
      | some w' => if w.again then watchRead (watchGiven s w o) w' else watchGiven s w o
      | none => watchGiven s w o := by
  simp only [watchDone, hw, ho, ne_eq, not_true_eq_false, if_false]
  rfl

/-- The row takes answers of reads of watches alone. -/
theorem exec_watchReadReturn {data : List Byte} (h : mReadFor s.clear isWatchRead tag .okay data = t) :
    exec (.watchReadReturn tag .okay data) s = .next (s.close t) := by
  rw [← h]
  refine congrArg (fun sel => Host.Outcome.next (s.close (mReadFor s.clear sel tag .okay data))) (funext fun pur => ?_)
  cases pur <;> rfl

theorem mReadFor_of_no_request {sel : Purpose → Bool} {resp : Resp} {data : List Byte} (h : mreqOf s tag false = none) : mReadFor s sel tag resp data = s := by
  simp [mReadFor, h]

/-- The end of an access takes no watch away. -/
theorem over_watches (s : State) (tag : Nat) (o : Op) : (s.over tag o).watches = s.watches := (mDrop_sent (s.setOp o) tag).watches

/-! ### A watch that is free (spec/05 R147) -/

theorem lacksWatch_eq_false_iff : lacksWatch x = false ↔ ∀ a b c, x.tgt ≠ .nowatch a b c := by
  cases h : x.tgt <;> simp [lacksWatch, h]

theorem watchFree_without_waiter (h : 4096 ≤ s.watches.length ∨ ∀ z ∈ s.waits, lacksWatch z = false) : watchFree s = s := by
  unfold watchFree
  split
  next => rfl
  next hroom =>
    have hnone : s.waits.find? lacksWatch = none := List.find?_eq_none.mpr fun z hz => by simp [h.resolve_left hroom z hz]
    split
    next z hz => exact absurd (hnone.symm.trans hz) (by simp)
    next => rfl

theorem watchFree_of_first {l l' : List Waiter} {part pa : Nat} {tgt : Tgt} (hroom : s.watches.length < 4096) (hwaits : s.waits = l ++ x :: l')
    (hbefore : ∀ z ∈ l, lacksWatch z = false) (htgt : x.tgt = .nowatch part pa tgt) :
    watchFree s = joinWatch (dropWaiter s x) x part pa tgt true s.time := by
  have hfind : s.waits.find? lacksWatch = some x := by
    have hl : l.find? lacksWatch = none := List.find?_eq_none.mpr fun z hz => by simp [hbefore z hz]
    simp [hwaits, hl, lacksWatch, htgt]
  unfold watchFree
  rw [if_neg (Nat.not_le.mpr hroom)]
  split
  next z hz =>
    obtain rfl : x = z := Option.some.inj (hfind.symm.trans hz)
    simp [htgt]
  next hz => exact absurd (hfind.symm.trans hz) (by simp)

theorem exec_watchFree (h : watchFree s.clear = t) : exec .watchFree s = .next (s.close t) := by
  rw [← h]; rfl

/-! ### The fence doorbell (spec/05 R150) -/

/-- Where the fence doorbell of a partition stands. -/
def fenceBell (p : Nat) : Nat := 0x1400000 + 4096 * p + 0xF00 / 4 * 4

theorem ringLocs_fenceBell (s : State) (p : Nat) : ringLocs s (fenceBell p) 4 15 = doorbellWrite s p 0xF00 := by
  have hbytes : (List.range 4).filter (Nat.testBit 15) = [0, 1, 2, 3] := by decide
  have hlocs : ([0, 1, 2, 3].map fun i => (fenceBell p + i) / 4 * 4) = List.replicate 4 (fenceBell p) := by
    simp only [fenceBell, List.map_cons, List.map_nil, List.replicate, List.cons.injEq, and_true]
    omega
  have honce : (List.replicate 4 (fenceBell p)).eraseDups = [fenceBell p] := by simp [List.replicate, List.eraseDups_cons]
  have hpage : (fenceBell p - 0x1400000) / 4096 = p := by simp only [fenceBell]; omega
  have hslot : fenceBell p % 4096 = 0xF00 := by simp only [fenceBell]; omega
  simp only [ringLocs, hbytes, hlocs, honce, List.foldl_cons, List.foldl_nil, hpage, hslot]

/-- The H-port hands a write of the fence doorbell on and answers it with OKAY (spec/18 R476, R477). -/
theorem hDoorbell_fence (hr : HostReady s) (hp : p < 64) : hDoorbell s p 0xF00 = (doorbellWrite s p 0xF00).ok := by
  obtain ⟨hrst, hpwr, hstep⟩ := hr
  have hrules : hRules (fenceBell p) 4 = true := by
    have hmod : fenceBell p % 4 = 0 := by simp only [fenceBell]; omega
    simp [hRules, hmod]
  have hfrom : 0x1400000 ≤ fenceBell p := by simp only [fenceBell]; omega
  have hto : fenceBell p < 0x1440000 := by simp only [fenceBell]; omega
  have hin : inDoorbells (fenceBell p) = true := by
    rw [inDoorbells, decide_eq_true hfrom, decide_eq_true hto]
    rfl
  have h2 : s.f F.PWR_STATE_STATE ≠ 2 := by omega
  have h3 : s.f F.PWR_STATE_STATE ≠ 3 := by omega
  have h4 : s.f F.PWR_STATE_STATE ≠ 4 := by omega
  have h5 : s.f F.PWR_STATE_STATE ≠ 5 := by omega
  have hbell : hDoorbell s p 0xF00 = hPort s (fenceBell p) true 4 15 [] := by
    simp [hDoorbell, fenceBell, Nat.not_le.mpr hp]
  rw [hbell]
  simp [hPort, hrst, h2, h3, h4, h5, Nat.not_lt.mpr hstep, hrules, hin, Nat.not_le.mpr hto, ringLocs_fenceBell, hAnswer]

/-- A ring of the fence doorbell is delivered while the sorter cores run, unless its partition is being disabled (spec/16 R435). -/
theorem doorbellWrite_fence (hr : HostReady s) (hhalt : s.flt.halt = 0) (hrings : ringsDelivered s = true) (hpart : s.f F.PRT_STAT_STATE p ≠ 2) :
    doorbellWrite s p 0xF00 = fenceDoorbell s p := by
  obtain ⟨hrst, -, hstep⟩ := hr
  simp [doorbellWrite, deliverDoorbell, Nat.not_lt.mpr hstep, hrst, hhalt, hrings, hpart]

theorem exec_fenceDoorbell (h : hDoorbell s.clear p 0xF00 = t) : exec (.fenceDoorbell p) s = .next (s.close t) := by
  rw [← h]; rfl

/-! ### The poll interval (spec/05 R148, R160) -/

section
variable (hw : s.watches.find? (·.id == id) = some w)
include hw

theorem pollExpiry_due (hn : pollInterval s w.part ≠ 0) (ht : w.lastRead + pollInterval s w.part * 1000 ≤ s.time) (hr : w.reading = false) :
    pollExpiry s id = watchRead s w := by
  simp [pollExpiry, hw, hn, Nat.not_lt.mpr ht, hr]

theorem pollExpiry_not_due (h : pollInterval s w.part = 0 ∨ s.time < w.lastRead + pollInterval s w.part * 1000 ∨ w.reading = true) :
    pollExpiry s id = s := by
  simp [pollExpiry, hw, h]

end

theorem exec_pollIntervalExpiry (h : pollExpiry s.clear id = t) : exec (.pollIntervalExpiry id) s = .next (s.close t) := by
  rw [← h]; rfl

/-! ### A read of a watch (spec/05 R148) -/

theorem watchRead_of_reading (h : w.reading = true) : watchRead s w = setWatch s { w with again := true } := by
  simp [watchRead, h]

/-- The access that reads the fence of a watch, in the context of its first waiter. -/
def watchOp (s : State) (w : Watch) : Op :=
  mkOp (.watchRead w.id) ⟨w.part, some (((waitersOn s (.watch w.id)).head?.map (·.ctx)).getD 0), false⟩ 112 (.spans [⟨0, 8, w.pa, w.tgt⟩]) 0 8 false []

/-- Outside a replay run with INPUTS a read begins. -/
theorem watchRead_starts (h : w.reading = false) (hin : s.fb F.OBS_RP_CFG_INPUTS = false) :
    watchRead s w = (setWatch s { w with reading := true, again := false, lastRead := s.time }).startOp (watchOp s w) := by
  have hin' : (setWatch s { w with reading := true, again := false, lastRead := s.time }).fb F.OBS_RP_CFG_INPUTS = false := hin
  simp only [watchRead, h, hin', Bool.false_eq_true, if_false, watchOp]

end

/-! ### The clauses -/

/-- Settles O22: each row runs its operation, and each clause names the branch that the operation takes. -/
theorem watchesReadTheirFences : Obligations.WatchesReadTheirFences := by
  intro s tag id p data w x r o part pa tgt l l'
  refine ⟨?answered, ?unasked, ?failed, ?watchGiven, ?noneWaits, ?doorbell, ?poll, ?again, ?begins⟩
  case answered =>
    intro h hpur hw
    refine exec_watchReadReturn ((mReadFor_ends h (by rw [hpur]; rfl) data).trans ?_)
    obtain ⟨-, -, hdone⟩ := given_ends h (r.bytes data)
    have hw' : (s.clear.over tag (o.given tag (r.bytes data))).watches.find? (·.id == id) = some w := by rwa [over_watches]
    simp only [finishOp, Op.given_pur, hpur]
    rw [watchDone_of_done hw' hdone]
    rfl
  case unasked => exact fun h => exec_watchReadReturn (mReadFor_of_no_request (s := s.clear) h)
  case failed => exact fun hw ho => watchDone_of_failed hw ho
  case watchGiven =>
    exact fun hroom hwaits hbefore htgt => exec_watchFree
      (watchFree_of_first (s := s.clear) hroom hwaits (fun z hz => lacksWatch_eq_false_iff.mpr (hbefore z hz)) htgt)
  case noneWaits =>
    exact fun h => exec_watchFree
      (watchFree_without_waiter (s := s.clear) (h.imp_right fun hnone z hz => lacksWatch_eq_false_iff.mpr (hnone z hz)))
  case doorbell =>
    intro hr hp hhalt hrings hpart
    refine exec_fenceDoorbell ((hDoorbell_fence (s := s.clear) hr hp).trans ?_)
    rw [doorbellWrite_fence (s := s.clear) hr hhalt hrings hpart]
    rfl
  case poll =>
    exact fun hw => ⟨fun hn ht hr => exec_pollIntervalExpiry (pollExpiry_due (s := s.clear) hw hn ht hr),
      fun h => exec_pollIntervalExpiry (pollExpiry_not_due (s := s.clear) hw h)⟩
  case again => exact watchRead_of_reading
  case begins => exact fun hr hin => ⟨_, watchOp s w, watchRead_starts hr hin, rfl, rfl, rfl, rfl, rfl, rfl⟩

end Sys2Proof.Machine
end

section
/-! SUPPORT. Writes of a pigeonhole allotment and of a link entry, and the scan for wait cycles (spec/05 R141, R153, R156 to R158). -/

namespace Sys2Proof.Machine

/-! ### The allotment of a partition (spec/05 R141) -/

/-- The range `lo` to `hi` meets the enabled range of a partition other than `p`. -/
def MeetsOther (s : State) (p lo hi : Nat) : Prop :=
  ∃ o ∈ s.setIdx F.PH_PART_BASE_EN, o ≠ p ∧ s.f F.PH_PART_BASE_BASE o ≤ hi ∧ lo ≤ s.f F.PH_PART_LIMIT_LAST o

/-- A refused write of PH_PART_BASE or PH_PART_LIMIT notes its cause and its partition. -/
def allotErr (s : State) (p cause : Nat) : State := (s.setF F.PH_ERR_CAUSE 0 cause).setF F.PH_ERR_WHERE 0 p

/-- An accepted write of PH_PART_BASE. -/
def baseWritten (s : State) (p base en : Nat) : State :=
  (((s.setF F.PH_PART_BASE_BASE p base).setF F.PH_PART_BASE_EN p en).setF F.PH_ERR_CAUSE 0 0).setF F.PH_ERR_WHERE 0 0

/-- The judgement of a range `base` to `last` that partition `p` would have, enabled or not, with what an accepted write leaves: ORDER first, then OVERLAP (log 97). -/
def allotJudged (s : State) (p : Nat) (en : Bool) (base last : Nat) (accepted : State) : State :=
  if en ∧ last < base then allotErr s p 2
  else if en ∧ ((s.setIdx F.PH_PART_BASE_EN).any fun o => o != p && decide (s.f F.PH_PART_BASE_BASE o ≤ last) && decide (base ≤ s.f F.PH_PART_LIMIT_LAST o)) then
    allotErr s p 1
  else accepted

section
variable {s : State} {p v base last : Nat} {limit en : Bool} {t : State}

theorem any_other_iff_meets (lo hi : Nat) :
    ((s.setIdx F.PH_PART_BASE_EN).any fun o => o != p && decide (s.f F.PH_PART_BASE_BASE o ≤ hi) && decide (lo ≤ s.f F.PH_PART_LIMIT_LAST o)) = true ↔
      MeetsOther s p lo hi := by
  simp [MeetsOther, and_assoc]

/-- A range that is not to be enabled is not checked. -/
theorem allotJudged_off : allotJudged s p false base last t = t := by
  simp [allotJudged]

theorem allotJudged_order (h : last < base) : allotJudged s p true base last t = allotErr s p 2 := by
  simp only [allotJudged, h, and_self, if_true]

theorem allotJudged_overlap (h : base ≤ last) (hm : MeetsOther s p base last) : allotJudged s p true base last t = allotErr s p 1 := by
  simp only [allotJudged, (any_other_iff_meets base last).mpr hm, Nat.not_lt.mpr h, and_false, and_self, if_false, if_true]

theorem allotJudged_good (h : base ≤ last) (hm : ¬ MeetsOther s p base last) : allotJudged s p true base last t = t := by
  simp only [allotJudged, mt (any_other_iff_meets base last).mp hm, Nat.not_lt.mpr h, and_false, if_false, Bool.false_eq_true]

theorem phAllotWrite_of_queues (h : partQueues s p ≠ []) : phAllotWrite s p limit v = s := by
  simp [phAllotWrite, h]

/-- Without an enabled queue, a write of the base is judged with EN of the word written and the limit that stands. -/
theorem phAllotWrite_base (hp : p < 64) (hq : partQueues s p = []) (hen : v.testBit 63 = en) : phAllotWrite s p false v
    = allotJudged s p en (v % 2 ^ 21) (s.f F.PH_PART_LIMIT_LAST p) (baseWritten s p (v % 2 ^ 21) en.toNat) := by
  simp only [phAllotWrite, hq, ne_eq, not_true_eq_false, Nat.not_le.mpr hp, or_self, if_false, Bool.false_eq_true, hen]
  rfl

/-- Without an enabled queue, a write of the limit is judged with the EN and the base that stand. -/
theorem phAllotWrite_limit (hp : p < 64) (hq : partQueues s p = []) (hen : s.fb F.PH_PART_BASE_EN p = en) : phAllotWrite s p true v
    = allotJudged s p en (s.f F.PH_PART_BASE_BASE p) (v % 2 ^ 21) (s.setF F.PH_PART_LIMIT_LAST p (v % 2 ^ 21)) := by
  simp only [phAllotWrite, hq, ne_eq, not_true_eq_false, Nat.not_le.mpr hp, or_self, if_false, if_true, hen]
  rfl

/-- EN is the top bit of the register. -/
theorem testBit_top_of_lt (h : v < 2 ^ 63) : v.testBit 63 = false := Nat.testBit_lt_two_pow h

theorem testBit_top_of_ge (hv : v < 2 ^ 64) (h : 2 ^ 63 ≤ v) : v.testBit 63 = true := by
  rw [Nat.testBit_eq_decide_div_mod_eq]
  simp only [decide_eq_true_eq]
  omega

/-- The row hands the write to its register (spec/05 R141). -/
theorem exec_phAllotmentWrite {t : State} (hr : HostReady s) (hp : p < 64) (h : phAllotWrite s.clear p limit v = t) :
    exec (.phAllotmentWrite p limit v) s = .next (s.close t.ok) := by
  have hrun : exec (.phAllotmentWrite p limit v) s
      = .next (s.close (hostCmd s.clear ((if limit then 0x21008 else 0x21000) + 16 * p) fun s => if p < 64 then phAllotWrite s p limit v else s)) := rfl
  rw [hrun, hostCmd_ready hr, if_pos hp, h]

end

/-! ### A link entry (spec/05 R153) -/

/-- The pigeonhole a link entry would name stands in no allotment, or its chip is this one. -/
def LinkOutOfRange (s : State) (v : Nat) : Prop := phPart s (fieldIn v 57 37) = none ∨ v / 2 ^ 58 % 16 = s.chip

/-- The causes of PH_ERR are cleared by an accepted write. -/
def phErrClear (s : State) : State := (s.setF F.PH_ERR_CAUSE 0 0).setF F.PH_ERR_WHERE 0 0

/-- The fields of an accepted link entry. -/
def linkFields (s : State) (i v en : Nat) : State :=
  ((((s.setF F.PH_LINK_DIR i (v / 2 ^ 62)).setF F.PH_LINK_CHIP i (v / 2 ^ 58)).setF F.PH_LINK_LOCAL i (v / 2 ^ 37)).setF F.PH_LINK_REMOTE i (v / 2 ^ 16)).setF
    F.PH_LINK_EN i en

section
variable {s : State} {i v : Nat}

/-- What is left of the word above its top bit is that bit. -/
theorem testBit_top_toNat (hv : v < 2 ^ 64) : (v.testBit 63).toNat = v / 2 ^ 63 := by
  by_cases h : v < 2 ^ 63
  · rw [testBit_top_of_lt h, Bool.toNat_false, Nat.div_eq_of_lt h]
  · rw [testBit_top_of_ge hv (Nat.not_lt.mp h), Bool.toNat_true]
    omega

section
variable (hi : i < 4096)
include hi

theorem phLinkWrite_enabled_keeps (hon : s.fb F.PH_LINK_EN i = true) (hv : v.testBit 63 = true) : phLinkWrite s i v = s := by
  simp [phLinkWrite, hon, hv, Nat.not_le.mpr hi]

/-- EN = 0 drops the value that an OUT entry has not sent (log 103). -/
theorem phLinkWrite_disables (hon : s.fb F.PH_LINK_EN i = true) (hv : v.testBit 63 = false) :
    phLinkWrite s i v = phErrClear (State.setF { s with linkOut := mdel s.linkOut i } F.PH_LINK_EN i 0) := by
  simp [phLinkWrite, phErrClear, hon, hv, Nat.not_le.mpr hi]

theorem phLinkWrite_refused (hoff : s.fb F.PH_LINK_EN i = false) (hv : v.testBit 63 = true) (hbad : LinkOutOfRange s v) :
    phLinkWrite s i v = (s.setF F.PH_ERR_CAUSE 0 3).setF F.PH_ERR_WHERE 0 i := by
  have hrange : phPart s (fieldIn v 57 37) = none ∨ fieldIn v 61 58 = s.chip := hbad
  simp only [phLinkWrite, hoff, hv, hrange, Nat.not_le.mpr hi, Bool.false_eq_true, if_false, and_self, if_true]

theorem phLinkWrite_stores (hoff : s.fb F.PH_LINK_EN i = false) (hgood : v.testBit 63 = false ∨ ¬ LinkOutOfRange s v) :
    phLinkWrite s i v = phErrClear (linkFields s i v (v.testBit 63).toNat) := by
  have hpass : ¬ (v.testBit 63 = true ∧ (phPart s (fieldIn v 57 37) = none ∨ fieldIn v 61 58 = s.chip)) := fun ⟨hv, hbad⟩ =>
    hgood.elim (by simp [hv]) (· hbad)
  simp only [phLinkWrite, hoff, hpass, Nat.not_le.mpr hi, Bool.false_eq_true, if_false, phErrClear, linkFields]

end

/-- The row hands the write to its register (spec/05 R153). -/
theorem exec_phLinkWrite {t : State} (hr : HostReady s) (hi : i < 4096) (h : phLinkWrite s.clear i v = t) :
    exec (.phLinkWrite i v) s = .next (s.close t.ok) := by
  have hrun : exec (.phLinkWrite i v) s = .next (s.close (hostCmd s.clear (0x28000 + 8 * i) fun s => if i < 4096 then phLinkWrite s i v else s)) := rfl
  rw [hrun, hostCmd_ready hr, if_pos hi, h]

end

/-! ### The scan for cycles of waits (spec/05 R156 to R158) -/

/-- The queues that are the lowest of their strongly connected component. -/
def componentLows (edges : Nat → List Nat) (bs : List Nat) : List Nat :=
  bs.filter fun q => componentOf edges bs q != [] && (componentOf edges bs q).all fun v => decide (q ≤ v)

/-- What a scan does at the component whose lowest queue is `q`. -/
def scanTakes (p : Nat) (edges : Nat → List Nat) (bs : List Nat) (e : State) (q : Nat) : State :=
  if reported e (componentOf edges bs q) then e else match cycleOf edges bs q with
    | some cyc => raiseCycle e p (componentOf edges bs q) cyc
    | none => e

section
variable {s : State} {p since last n : Nat} {texts : List (Nat × List W64)}

theorem waitCycleScan_without_stall (h : s.stall.find? (·.1 == p) = none ∨ scanAfter s = none) : waitCycleScan s p texts = s := by
  unfold waitCycleScan
  split
  next hstall hafter => simp [hstall, hafter] at h
  next => rfl

section
variable (hstall : s.stall.find? (·.1 == p) = some (p, since, last)) (hafter : scanAfter s = some n)
include hstall hafter

theorem waitCycleScan_early (h : s.time < last + n) : waitCycleScan s p texts = s := by
  simp [waitCycleScan, hstall, hafter, h]

/-- A scan that is due notes its time and takes the components in the order of their lowest queues. -/
theorem waitCycleScan_due (h : last + n ≤ s.time) (hcore : s.coreUp 0 = true ∨ s.coreUp 1 = true) (hhalt : s.halted = false) (hctl : s.ctlOn = true) :
    waitCycleScan s p texts = (componentLows (waitEdges s (blockedQueues s p) texts) (blockedQueues s p)).mergeSort.foldl
      (scanTakes p (waitEdges s (blockedQueues s p) texts) (blockedQueues s p)) { s with stall := mset s.stall p (since, s.time) } := by
  have hgo : ¬ (s.time < last + n ∨ (s.coreUp 0 = false ∧ s.coreUp 1 = false) ∨ s.halted = true ∨ s.ctlOn = false) := by
    rintro (hlt | ⟨h0, h1⟩ | hh | hc)
    · omega
    · simp [h0, h1] at hcore
    · simp [hhalt] at hh
    · simp [hctl] at hc
  have hlows : (blockedQueues s p).filter (fun q => match componentOf (waitEdges s (blockedQueues s p) texts) (blockedQueues s p) q with
        | [] => false
        | comp => comp.all fun v => decide (q ≤ v))
      = componentLows (waitEdges s (blockedQueues s p) texts) (blockedQueues s p) := by
    refine List.filter_congr fun q _ => ?_
    cases componentOf (waitEdges s (blockedQueues s p) texts) (blockedQueues s p) q <;> simp
  rw [← hlows]
  simp only [waitCycleScan, hstall, hafter, if_neg hgo]
  rfl

end

/-- WAIT_CYCLE is counted for its partition, with the length of its cycle, and kept with the queues of its component (spec/05 R158). -/
theorem raiseCycle_count (hp : p < 64) (comp cyc : List Nat) :
    (raiseCycle s p comp cyc).f F.PH_PW_CYCLE_COUNT p = (s.f F.PH_PW_CYCLE_COUNT p + 1) % 2 ^ F.PH_PW_CYCLE_COUNT.w := by
  have hkey : F.PH_PW_CYCLE_COUNT.key p ≠ F.PH_PW_CYCLE_LEN.key p := Fld.key_ne _ _ p p (by omega) (by omega) (.inl (by decide))
  simp only [raiseCycle, State.raise_f]
  rw [State.f_setF_ne _ _ _ _ _ _ hkey, State.incF, State.f_setF_same]
  rfl

theorem raiseCycle_len (comp cyc : List Nat) : (raiseCycle s p comp cyc).f F.PH_PW_CYCLE_LEN p = cyc.length % 2 ^ F.PH_PW_CYCLE_LEN.w := by
  simp only [raiseCycle, State.raise_f]
  exact State.f_setF_same ..

theorem raiseCycle_keeps_component (comp cyc : List Nat) : ∃ key, (raiseCycle s p comp cyc).cyc = s.cyc ++ [key] ∧ key.map (·.1) = comp :=
  ⟨_, rfl, by rw [List.map_map]; exact List.map_id comp⟩

theorem exec_waitCycleScan {t : State} (h : waitCycleScan s.clear p texts = t) : exec (.waitCycleScan p texts) s = .next (s.close t) := by
  rw [← h]; rfl

end

/-! ### The clauses -/

/-- Settles O23: each write and each scan runs its operation, and each clause names the branch that the operation takes. -/
theorem allotmentsLinksAndWaitCycles : Obligations.AllotmentsLinksAndWaitCycles := by
  intro s p i v since last n texts
  refine ⟨?allotment, ?queues, ?link, ?noScan, ?scan, ?raise⟩
  case allotment =>
    intro hr hp hq hv
    have hbase (en : Bool) (hen : v.testBit 63 = en) := phAllotWrite_base (s := s.clear) hp hq hen
    have hlimit (en : Bool) (hen : s.fb F.PH_PART_BASE_EN p = en) := phAllotWrite_limit (s := s.clear) (v := v) hp hq hen
    refine ⟨fun hlt => ?_, fun hge => ⟨fun ho => ?_, fun ho hm => ?_, fun ho hm => ?_⟩, fun hgood => ?_, fun hon ho => ?_, fun hon ho hm => ?_⟩ <;>
      refine exec_phAllotmentWrite hr hp ?_
    · exact (hbase false (testBit_top_of_lt hlt)).trans allotJudged_off
    · exact (hbase true (testBit_top_of_ge hv hge)).trans (allotJudged_order ho)
    · exact (hbase true (testBit_top_of_ge hv hge)).trans (allotJudged_overlap ho hm)
    · exact (hbase true (testBit_top_of_ge hv hge)).trans (allotJudged_good ho hm)
    · cases hen : s.fb F.PH_PART_BASE_EN p with
      | false => exact (hlimit false hen).trans allotJudged_off
      | true =>
        obtain ⟨ho, hm⟩ := hgood.resolve_left (by simp [hen])
        exact (hlimit true hen).trans (allotJudged_good ho hm)
    · exact (hlimit true hon).trans (allotJudged_order ho)
    · exact (hlimit true hon).trans (allotJudged_overlap ho hm)
  case queues => exact fun hr hp hq limit => exec_phAllotmentWrite hr hp (phAllotWrite_of_queues (s := s.clear) hq)
  case link =>
    intro hr hi hv
    refine ⟨fun hon hge => ?_, fun hon hlt => ?_, fun hoff hge hbad => ?_, fun hoff hgood => ?_⟩ <;> refine exec_phLinkWrite hr hi ?_
    · exact phLinkWrite_enabled_keeps (s := s.clear) hi hon (testBit_top_of_ge hv hge)
    · exact phLinkWrite_disables (s := s.clear) hi hon (testBit_top_of_lt hlt)
    · exact phLinkWrite_refused (s := s.clear) hi hoff (testBit_top_of_ge hv hge) hbad
    · rw [phLinkWrite_stores (s := s.clear) hi hoff (hgood.imp testBit_top_of_lt id), testBit_top_toNat hv]
      rfl
  case noScan => exact fun h => exec_waitCycleScan (waitCycleScan_without_stall (s := s.clear) h)
  case scan =>
    intro hstall hafter
    refine ⟨fun hearly => ?_, fun hdue hcore hhalt hctl => ?_⟩
    · exact exec_waitCycleScan (waitCycleScan_early (s := s.clear) hstall hafter hearly)
    · exact exec_waitCycleScan (waitCycleScan_due (s := s.clear) hstall hafter hdue hcore hhalt hctl)
  case raise => exact fun comp cyc hp => ⟨raiseCycle_len comp cyc, raiseCycle_count hp comp cyc, raiseCycle_keeps_component comp cyc⟩

end Sys2Proof.Machine
end

section
/-! SUPPORT. The records of disable sequences stand while what follows from a state is done, and the scrub of a pigeonhole that O21 is refuted by (spec/05 R142, spec/16 R435). -/

namespace Sys2Proof.Machine

/-! ### What follows from a state leaves the records of disable sequences

A statement that names a command's own effect by `exec c s = .next (s.close e)` says of `e` only what the close keeps of it. The records of disable
sequences are kept: only the commands of a partition write them. One lemma for each function that the close may run, in the order of the model. -/

@[simp] theorem ite_prt (c : Prop) [Decidable c] (a b : State) : (if c then a else b).prt = if c then a.prt else b.prt := apply_ite _ c a b

/-- A fold keeps the records when every step of it does. -/
@[simp] theorem foldl_prt {α : Type} {g : State → α → State} (h : ∀ s a, (g s a).prt = s.prt) (l : List α) (s : State) : (l.foldl g s).prt = s.prt := by
  induction l generalizing s with
  | nil => rfl
  | cons a l ih => exact (ih _).trans (h s a)

/-- A fold that carries a state beside a value keeps the records when every step of it does. -/
theorem foldl_fst_prt {α β : Type} {g : State × β → α → State × β} (h : ∀ x a, (g x a).1.prt = x.1.prt) (l : List α) (x : State × β) :
    (l.foldl g x).1.prt = x.1.prt := by
  induction l generalizing x with
  | nil => rfl
  | cons a l ih => exact (ih _).trans (h x a)

/-! #### Letterbook records, interrupts and free values (spec/17 R455, R456, spec/18 R479) -/

@[simp] theorem State.satF_prt (s x i k) : (State.satF s x i k).prt = s.prt := rfl
@[simp] theorem State.freeW_prt (s) : (State.freeW s).2.prt = s.prt := rfl
@[simp] theorem State.lbAdd_prt (s ws) : (State.lbAdd s ws).prt = s.prt := rfl
@[simp] theorem State.mirror_prt (s r) : (State.mirror s r).prt = s.prt := by simp [State.mirror]
@[simp] theorem State.note_prt (s part full kind q w2 w3) : (State.note s part full kind q w2 w3).prt = s.prt := by
  unfold State.note; dsimp only; (repeat' split) <;> simp
@[simp] theorem State.freeBytes_prt (s n) : (State.freeBytes s n).2.prt = s.prt := rfl
@[simp] theorem State.noteFw_prt (s event) : (State.noteFw s event).prt = s.prt := by simp [State.noteFw]
@[simp] theorem State.irqP_prt (s p) : (State.irqP s p).prt = s.prt := by simp [State.irqP]
@[simp] theorem State.irqG_prt (s n) : (State.irqG s n).prt = s.prt := by simp [State.irqG]
@[simp] theorem State.applied_prt (s r) : (State.applied s r).prt = s.prt := by simp [State.applied]
@[simp] theorem State.diverge_prt (s cause r q sq ord) : (State.diverge s cause r q sq ord).prt = s.prt := by simp [State.diverge]

/-! #### Accesses: the M-ports, the halls, the links and the translation (spec/10, spec/11, spec/18) -/

@[simp] theorem countAcc_prt (s pa) : (countAcc s pa).prt = s.prt := by simp [countAcc]
@[simp] theorem lockWord_prt (s op pa) : (lockWord s op pa).prt = s.prt := by unfold lockWord; split <;> simp

@[simp] theorem sendM_prt (done l s) : (sendM done l s).prt = s.prt := by
  induction l generalizing done s with
  | nil => rfl
  | cons r l ih => unfold sendM; split <;> simp [ih]

@[simp] theorem State.pumpM_prt (s) : (State.pumpM s).prt = s.prt := by simp [State.pumpM]
@[simp] theorem State.mIssue_prt (s op pa len wr data idn sec attr src) : (State.mIssue s op pa len wr data idn sec attr src).prt = s.prt := by
  simp [State.mIssue]
@[simp] theorem noteStarve_prt (s h r) : (noteStarve s h r).prt = s.prt := rfl
@[simp] theorem State.hIssue_prt (s r) : (State.hIssue s r).prt = s.prt := by simp [State.hIssue]
@[simp] theorem State.sendFlit_prt (s l flit) : (State.sendFlit s l flit).prt = s.prt := rfl
@[simp] theorem State.flushLink_prt (s l) : (State.flushLink s l).prt = s.prt := foldl_prt (fun _ _ => sendFlit_prt ..) _ _
@[simp] theorem State.flushLinks_prt (s) : (State.flushLinks s).prt = s.prt := by simp [State.flushLinks]
@[simp] theorem State.sendCtl_prt (s l ws) : (State.sendCtl s l ws).prt = s.prt := by simp [State.sendCtl]
@[simp] theorem State.returnCredits_prt (s l m) : (State.returnCredits s l m).prt = s.prt := by simp [State.returnCredits]
@[simp] theorem State.sendMsg_prt (s m) : (State.sendMsg s m).1.prt = s.prt := by unfold State.sendMsg; (repeat' split) <;> simp

@[simp] theorem State.pumpL_prt (s : State) : s.pumpL.prt = s.prt := by
  simp only [State.pumpL]
  rw [foldl_prt, foldl_prt]
  · refine foldl_fst_prt (fun x e => ?_) _ (s, [])
    (repeat' split) <;> simp
  · intro s r
    (repeat' split) <;> simp
  · intro s e
    split <;> simp

@[simp] theorem stcInstall_prt (s ctx va e) : (stcInstall s ctx va e).prt = s.prt := rfl
@[simp] theorem issuePart_prt (s o off len pa tgt) : (issuePart s o off len pa tgt).prt = s.prt := by unfold issuePart; (repeat' split) <;> simp

@[simp] theorem issueRun_prt (n s o off len pa tgt) : (issueRun n s o off len pa tgt).prt = s.prt := by
  induction n generalizing s off len pa with
  | zero => rfl
  | succ n ih => unfold issueRun; split <;> simp [ih]

@[simp] theorem failXl_prt (s o k level bad pf) : (failXl s o k level bad pf).prt = s.prt := rfl
@[simp] theorem useFound_prt (s o e walked) : (useFound s o e walked).1.prt = s.prt := by unfold useFound; dsimp only; (repeat' split) <;> simp
@[simp] theorem walkRead_prt (s o w) : (walkRead s o w).prt = s.prt := by simp [walkRead]
@[simp] theorem walkMm_prt (s o vlo vhi) : (walkMm s o vlo vhi).1.prt = s.prt := by unfold walkMm; dsimp only; (repeat' split) <;> simp
@[simp] theorem xlOne_prt (s o) : (xlOne s o).1.prt = s.prt := by unfold xlOne; dsimp only; (repeat' split) <;> simp

@[simp] theorem xlGo_prt (n s id) : (xlGo n s id).prt = s.prt := by
  induction n generalizing s with
  | zero => rfl
  | succ n ih => unfold xlGo; dsimp only; (repeat' split) <;> simp [ih]

@[simp] theorem xlResume_prt (s) : (xlResume s).prt = s.prt := by simp [xlResume]
@[simp] theorem State.startOp_prt (s o) : (State.startOp s o).prt = s.prt := by simp [State.startOp]
@[simp] theorem partDone_prt (s id tag st data) : (partDone s id tag st data).prt = s.prt := by unfold partDone; (repeat' split) <;> simp

/-! #### The queue engine: records, programs and the completion of commands (spec/02, spec/03) -/

@[simp] theorem reserve_prt (s q) : (reserve s q).prt = s.prt := rfl

@[simp] theorem writeRecs_prt (n s q) : (writeRecs n s q).prt = s.prt := by
  induction n generalizing s with
  | zero => rfl
  | succ n ih => unfold writeRecs; dsimp only; (repeat' split) <;> simp [ih]

@[simp] theorem pushRec_prt (s q r) : (pushRec s q r).prt = s.prt := by simp [pushRec]
@[simp] theorem setDesc_prt (s q d) : (setDesc s q d).prt = s.prt := rfl

@[simp] theorem pushEnds_prt (n s q) : (pushEnds n s q).prt = s.prt := by
  induction n generalizing s with
  | zero => rfl
  | succ n ih => unfold pushEnds; (repeat' split) <;> simp [ih]

@[simp] theorem queueSettle_prt (s q) : (queueSettle s q).prt = s.prt := by unfold queueSettle; dsimp only; split <;> simp
@[simp] theorem dropScan_prt (s q) : (dropScan s q).prt = s.prt := rfl
@[simp] theorem reclaim_prt (s) : (reclaim s).prt = s.prt := rfl
@[simp] theorem pin_prt (s k up) : (pin s k up).prt = s.prt := rfl
@[simp] theorem unpinAll_prt (s q) : (unpinAll s q).prt = s.prt := foldl_prt (fun _ _ => pin_prt ..) _ _
@[simp] theorem setErr_prt (s q cause word index) : (setErr s q cause word index).prt = s.prt := by unfold setErr; split <;> simp
@[simp] theorem stopQueue_prt (s q) : (stopQueue s q).prt = s.prt := by simp [stopQueue]
@[simp] theorem endProgram_prt (s q) : (endProgram s q).prt = s.prt := by unfold endProgram; split <;> simp
@[simp] theorem malformedCmd_prt (s q) : (malformedCmd s q).prt = s.prt := by unfold malformedCmd; split <;> simp
@[simp] theorem startFetch_prt (s q) : (startFetch s q).prt = s.prt := by simp [startFetch]
@[simp] theorem doReturn_prt (s q) : (doReturn s q).prt = s.prt := by unfold doReturn; dsimp only; (repeat' split) <;> simp
@[simp] theorem endProgramWith_prt (s q st) : (endProgramWith s q st).prt = s.prt := by unfold endProgramWith; split <;> simp
@[simp] theorem abortProgram_prt (s q) : (abortProgram s q).prt = s.prt := by simp [abortProgram]

@[simp] theorem advanceN_prt (n s q) : (advanceN n s q).prt = s.prt := by
  induction n generalizing s with
  | zero => rfl
  | succ n ih => unfold advanceN; dsimp only; (repeat' split) <;> simp [ih]

@[simp] theorem advance_prt (s q) : (advance s q).prt = s.prt := by simp [advance]
@[simp] theorem echoComplete_prt (s c st) : (echoComplete s c st).prt = s.prt := by simp [echoComplete]
@[simp] theorem addBal_prt (s p d) : (addBal s p d).prt = s.prt := rfl
@[simp] theorem wholeSettle_prt (s c) : (wholeSettle s c).prt = s.prt := by simp [wholeSettle]
@[simp] theorem completeOne_prt (s c st) : (completeOne s c st).prt = s.prt := by unfold completeOne; dsimp only; split <;> simp
@[simp] theorem completeNow_prt (s id st) : (completeNow s id st).prt = s.prt := by unfold completeNow; dsimp only; (repeat' split) <;> simp
@[simp] theorem completeCmd_prt (s id st) : (completeCmd s id st).prt = s.prt := by unfold completeCmd; split <;> simp
@[simp] theorem endCmd_prt (s id st) : (endCmd s id st).prt = s.prt := by unfold endCmd; split <;> simp
@[simp] theorem raiseXfail_prt (s c o x) : (raiseXfail s c o x).prt = s.prt := by simp [raiseXfail]
@[simp] theorem cmdXfail_prt (s c o x) : (cmdXfail s c o x).prt = s.prt := by simp [cmdXfail]
@[simp] theorem endByOp_prt (s id o) : (endByOp s id o).prt = s.prt := by unfold endByOp; (repeat' split) <;> simp

/-! #### Pigeonholes, waiters and watches (spec/05) -/

@[simp] theorem dropWaiter_prt (s w) : (dropWaiter s w).prt = s.prt := rfl
@[simp] theorem endWait_prt (s cmd st) : (endWait s cmd st).prt = s.prt := by unfold endWait; (repeat' split) <;> simp
@[simp] theorem wake_prt (s w st) : (wake s w st).prt = s.prt := by unfold wake; split <;> simp
@[simp] theorem wakeAll_prt (s t st) : (wakeAll s t st).prt = s.prt := by simp [wakeAll]
@[simp] theorem wakeMet_prt (s t v) : (wakeMet s t v).prt = s.prt := by simp [wakeMet]
@[simp] theorem phTouch_prt (s n) : (phTouch s n).prt = s.prt := by simp [phTouch]
@[simp] theorem injDone_prt (s) : (injDone s).prt = s.prt := rfl
@[simp] theorem phInj_prt (s n value) : (phInj s n value).prt = s.prt := by simp [phInj]
@[simp] theorem phChanged_prt (s n v changed links) : (phChanged s n v changed links).prt = s.prt := by simp [phChanged]
@[simp] theorem phSignal_prt (s n f v lastq) : (phSignal s n f v lastq).1.prt = s.prt := by unfold phSignal; dsimp only; (repeat' split) <;> simp
@[simp] theorem phReset_prt (s n v) : (phReset s n v).prt = s.prt := by simp [phReset]
@[simp] theorem setWatch_prt (s w) : (setWatch s w).prt = s.prt := rfl
@[simp] theorem freeWatches_prt (s) : (freeWatches s).prt = s.prt := rfl
@[simp] theorem watchValue_prt (s w v) : (watchValue s w v).prt = s.prt := by simp [watchValue]
@[simp] theorem watchRead_prt (s w) : (watchRead s w).prt = s.prt := by unfold watchRead; dsimp only; (repeat' split) <;> simp
@[simp] theorem addWaiter_prt (s x) : (addWaiter s x).prt = s.prt := rfl
@[simp] theorem joinWatch_prt (s x part pa tgt read at_) : (joinWatch s x part pa tgt read at_).prt = s.prt := by unfold joinWatch; split <;> simp
@[simp] theorem fenceValue_prt (s w again at_ pa tgt v) : (fenceValue s w again at_ pa tgt v).prt = s.prt := by simp [fenceValue]
@[simp] theorem fenceRead_prt (s cmd w pa tgt) : (fenceRead s cmd w pa tgt).prt = s.prt := by unfold fenceRead; split <;> simp
@[simp] theorem fenceReadDone_prt (s cmd o) : (fenceReadDone s cmd o).prt = s.prt := by unfold fenceReadDone; (repeat' split) <;> simp
@[simp] theorem fenceAgain_prt (s hit) : (fenceAgain s hit).prt = s.prt := rfl
@[simp] theorem watchDone_prt (s id o) : (watchDone s id o).prt = s.prt := by unfold watchDone; dsimp only; (repeat' split) <;> simp
@[simp] theorem watchesHit_prt (s pa n) : (watchesHit s pa n).prt = s.prt := by simp [watchesHit]
@[simp] theorem fenceDoorbell_prt (s p) : (fenceDoorbell s p).prt = s.prt := by simp [fenceDoorbell]
@[simp] theorem waitPh_prt (s c n thr) : (waitPh s c n thr).prt = s.prt := by unfold waitPh; dsimp only; split <;> simp
@[simp] theorem waitCounter_prt (s c n thr) : (waitCounter s c n thr).prt = s.prt := by simp [waitCounter]
@[simp] theorem setFrank_prt (s n v) : (setFrank s n v).prt = s.prt := by simp [setFrank]
@[simp] theorem waitFence_prt (s c va thr) : (waitFence s c va thr).prt = s.prt := by simp [waitFence]
@[simp] theorem watchXlDone_prt (s id o) : (watchXlDone s id o).prt = s.prt := by unfold watchXlDone; (repeat' split) <;> simp
@[simp] theorem abandonWait_prt (s id) : (abandonWait s id).prt = s.prt := rfl

/-! #### The gallery (spec/07) -/

@[simp] theorem State.galStore_prt (s w) : (State.galStore s w).prt = s.prt := rfl
@[simp] theorem markDirty_prt (s line) : (markDirty s line).prt = s.prt := by simp [markDirty]
@[simp] theorem State.setChamber_prt (s h c v) : (State.setChamber s h c v).prt = s.prt := rfl
@[simp] theorem hallAnswer_prt (s r st data) : (hallAnswer s r st data).prt = s.prt := by simp [hallAnswer]
@[simp] theorem hallDrop_prt (s h r) : (hallDrop s h r).prt = s.prt := rfl
@[simp] theorem sealFail_prt (s h r) : (sealFail s h r).prt = s.prt := by simp [sealFail]
@[simp] theorem failWaiting_prt (s rg) : (failWaiting s rg).prt = s.prt := by simp [failWaiting]
@[simp] theorem mirrorSeal_prt (s rg) : (mirrorSeal s rg).prt = s.prt := by simp [mirrorSeal]
@[simp] theorem sealRegion_prt (s rg perm peek full base size) : (sealRegion s rg perm peek full base size).prt = s.prt := by simp [sealRegion]
@[simp] theorem unsealRegion_prt (s rg) : (unsealRegion s rg).prt = s.prt := by simp [unsealRegion]
@[simp] theorem dropCtl_prt (s p v) : (dropCtl s p v).prt = s.prt := by simp [dropCtl]

/-! #### The scheduler (spec/06) -/

@[simp] theorem ttRun_prt (s) : (ttRun s).prt = s.prt := rfl
@[simp] theorem account_prt (s p w n) : (account s p w n).prt = s.prt := rfl
@[simp] theorem settleUnit_prt (s u) : (settleUnit s u).prt = s.prt := by
  cases hp : u.place <;> simp only [settleUnit, hp] <;> split <;> simp -implicitDefEqProofs
@[simp] theorem dispatchDone_prt (s id) : (dispatchDone s id).prt = s.prt := by unfold dispatchDone; split <;> simp

@[simp] theorem shareSettle_prt (s) : (shareSettle s).prt = s.prt := by
  unfold shareSettle
  dsimp only
  split
  · refine foldl_prt (fun s e => ?_) _ _
    split <;> rfl
  · refine (foldl_prt (fun _ _ => addBal_prt ..) _ _).trans (foldl_prt (fun s e => ?_) _ _)
    split <;> rfl

@[simp] theorem addStretch_prt (s) : (addStretch s).prt = s.prt := rfl
@[simp] theorem drainSettle_prt (s) : (drainSettle s).prt = s.prt := by simp [drainSettle]

/-! #### Movements, ENQUEUE, parcels and tiles (spec/03, spec/04) -/

@[simp] theorem endPlaced_prt (s id st) : (endPlaced s id st).prt = s.prt := by unfold endPlaced; split <;> simp
@[simp] theorem divergeCmd_prt (s cause r c) : (divergeCmd s cause r c).prt = s.prt := by simp [divergeCmd]
@[simp] theorem settleUnits_prt (s id) : (settleUnits s id).prt = s.prt := by simp [settleUnits]
@[simp] theorem moveOp_prt (s c u gal sealed trn wr addr n data) : (moveOp s c u gal sealed trn wr addr n data).prt = s.prt := by simp [moveOp]
@[simp] theorem moveFail_prt (s c u o) : (moveFail s c u o).prt = s.prt := by simp [moveFail]
@[simp] theorem moveNext_prt (s id) : (moveNext s id).prt = s.prt := by unfold moveNext; (repeat' split) <;> simp
@[simp] theorem moveDone_prt (s id o) : (moveDone s id o).prt = s.prt := by unfold moveDone; split <;> simp
@[simp] theorem memsigWrite_prt (s c addr v) : (memsigWrite s c addr v).prt = s.prt := by simp [memsigWrite]
@[simp] theorem startMemsig_prt (s id max v addr) : (startMemsig s id max v addr).prt = s.prt := by unfold startMemsig; split <;> simp
@[simp] theorem unlockWord_prt (s id) : (unlockWord s id).prt = s.prt := by simp [unlockWord]
@[simp] theorem memsigReadDone_prt (s id o) : (memsigReadDone s id o).prt = s.prt := by unfold memsigReadDone; split <;> simp
@[simp] theorem enqWait_prt (s c img) : (enqWait s c img).prt = s.prt := by simp [enqWait]
@[simp] theorem enqPut_prt (s c t img) : (enqPut s c t img).prt = s.prt := by simp [enqPut]
@[simp] theorem enqGo_prt (s id img) : (enqGo s id img).prt = s.prt := by unfold enqGo; (repeat' split) <;> simp
@[simp] theorem ring_prt (s t src) : (ring s t src).prt = s.prt := by simp [ring]
@[simp] theorem enqWritten_prt (s id t o) : (enqWritten s id t o).prt = s.prt := by simp [enqWritten]
@[simp] theorem setParcel_prt (s x) : (setParcel s x).prt = s.prt := by simp [setParcel]
@[simp] theorem releaseClaim_prt (s id) : (releaseClaim s id).prt = s.prt := rfl
@[simp] theorem parcelFail_prt (s id st) : (parcelFail s id st).prt = s.prt := by simp [parcelFail]
theorem startEdition_prt {s t c dram len} (h : startEdition s c dram len = some t) : t.prt = s.prt := by
  unfold startEdition at h; dsimp only at h; (repeat' split at h) <;> cases h <;> rfl
@[simp] theorem readWords_prt (s c src n) : (readWords s c src n).prt = s.prt := by simp [readWords]

@[simp] theorem parcelGo_prt (s id) : (parcelGo s id).prt = s.prt := by
  simp only [parcelGo]
  (repeat' split) <;> simp
  all_goals exact startEdition_prt ‹_›

@[simp] theorem parcelClaimCmd_prt (s id n) : (parcelClaimCmd s id n).prt = s.prt := by unfold parcelClaimCmd; split <;> simp
@[simp] theorem writeEdition_prt (s c data) : (writeEdition s c data).prt = s.prt := by unfold writeEdition; split <;> simp
@[simp] theorem parcelReadDone_prt (s id o) : (parcelReadDone s id o).prt = s.prt := by unfold parcelReadDone; (repeat' split) <;> simp
@[simp] theorem parcelWriteDone_prt (s id o) : (parcelWriteDone s id o).prt = s.prt := by unfold parcelWriteDone; split <;> simp
@[simp] theorem tileDone_prt (s id) : (tileDone s id).prt = s.prt := by unfold tileDone; dsimp only; (repeat' split) <;> simp
@[simp] theorem tileNext_prt (s id) : (tileNext s id).prt = s.prt := by unfold tileNext; split <;> simp
@[simp] theorem tileHdrDone_prt (s id o) : (tileHdrDone s id o).prt = s.prt := by unfold tileHdrDone; split <;> simp
@[simp] theorem tileXfail_prt (s c k o) : (tileXfail s c k o).prt = s.prt := by unfold tileXfail; split <;> simp
@[simp] theorem tileEntryDone_prt (s id o) : (tileEntryDone s id o).prt = s.prt := by unfold tileEntryDone; split <;> simp
@[simp] theorem resolveRow_prt (s c t u) : (resolveRow s c t u).prt = s.prt := by unfold resolveRow; dsimp only; (repeat' split) <;> simp
@[simp] theorem resolveDone_prt (s id k row wr o) : (resolveDone s id k row wr o).prt = s.prt := by
  unfold resolveDone; dsimp only; (repeat' split) <;> simp

/-! #### Stations (spec/09) -/

@[simp] theorem setXreg_prt (s n i v) : (setXreg s n i v).prt = s.prt := by simp [setXreg]
@[simp] theorem setAFlags_prt (s n fl) : (setAFlags s n fl).prt = s.prt := by simp [setAFlags]
@[simp] theorem passRead_prt (s c pur off n) : (passRead s c pur off n).prt = s.prt := by simp [passRead]
@[simp] theorem passMalformed_prt (s id cause pos instr) : (passMalformed s id cause pos instr).prt = s.prt := by unfold passMalformed; split <;> simp
@[simp] theorem loadStations_prt (s c) : (loadStations s c).prt = s.prt := by simp [loadStations]

@[simp] theorem passNext_prt (n s id e what) : (passNext n s id e what).prt = s.prt := by
  induction n generalizing s e what with
  | zero => rfl
  | succ n ih => unfold passNext; dsimp only; (repeat' split) <;> simp [ih]

@[simp] theorem passTableDone_prt (s id o) : (passTableDone s id o).prt = s.prt := by
  simp only [passTableDone]
  (repeat' split) <;> simp only [endByOp_prt, settleUnits_prt, passMalformed_prt, passNext_prt, State.setCmd_prt]
  exact foldl_prt (fun _ _ => State.setStn_prt ..) _ _

@[simp] theorem passLoadDone_prt (s id e what o) : (passLoadDone s id e what o).prt = s.prt := by unfold passLoadDone; split <;> simp
@[simp] theorem haltStn_prt (s n) : (haltStn s n).prt = s.prt := by simp [haltStn]
@[simp] theorem stopPassage_prt (s id st) : (stopPassage s id st).prt = s.prt := by unfold stopPassage; dsimp only; split <;> simp

@[simp] theorem startCol_prt (s pur idn req a trn) : (startCol s pur idn req a trn).prt = s.prt := by
  unfold startCol
  extract_lets
  split
  · exact partDone_prt ..
  · exact State.hIssue_prt ..

@[simp] theorem pumpFeeder_prt (s n u) : (pumpFeeder s n u).prt = s.prt := by unfold pumpFeeder; dsimp only; (repeat' split) <;> simp
@[simp] theorem sendBeats_prt (s n x dst fwd) : (sendBeats s n x dst fwd).prt = s.prt := by unfold sendBeats; split <;> simp
@[simp] theorem movePush_prt (s n) : (movePush s n).prt = s.prt := by simp [movePush]
@[simp] theorem pumpEmitter_prt (s n) : (pumpEmitter s n).prt = s.prt := by unfold pumpEmitter; dsimp only; (repeat' split) <;> simp
@[simp] theorem stnBytes_prt (s n k) : (stnBytes s n k).prt = s.prt := by unfold stnBytes; split <;> simp
@[simp] theorem feederDone_prt (s n u m o) : (feederDone s n u m o).prt = s.prt := by unfold feederDone; dsimp only; (repeat' split) <;> simp
@[simp] theorem emitterDone_prt (s n m o) : (emitterDone s n m o).prt = s.prt := by unfold emitterDone; dsimp only; (repeat' split) <;> simp

@[simp] theorem pumpStations_prt (n s) : (pumpStations n s).prt = s.prt := by
  induction n generalizing s with
  | zero => rfl
  | succ n ih => unfold pumpStations; dsimp only; split <;> simp [ih]

/-! #### Collectives (spec/11) -/

@[simp] theorem setColl_prt (s v) : (setColl s v).prt = s.prt := rfl
@[simp] theorem sendOut_prt (s m) : (sendOut s m).prt = s.prt := by simp [sendOut]
@[simp] theorem fileRx_prt (s r) : (fileRx s r).prt = s.prt := by simp [fileRx]
@[simp] theorem collSend_prt (s v c j step d) : (collSend s v c j step d).prt = s.prt := by simp [collSend]
@[simp] theorem collBreak_prt (s v c st j) : (collBreak s v c st j).prt = s.prt := by simp [collBreak]
@[simp] theorem collSpoil_prt (s v c) : (collSpoil s v c).prt = s.prt := by unfold collSpoil; split <;> simp
@[simp] theorem collEndPart_prt (s cmd st tell) : (collEndPart s cmd st tell).prt = s.prt := by unfold collEndPart; split <;> simp
@[simp] theorem collRead_prt (s c f len) : (collRead s c f len).prt = s.prt := by simp [collRead]
@[simp] theorem stepSend_prt (s v c f n x) : (stepSend s v c f n x).prt = s.prt := by unfold stepSend; (repeat' split) <;> simp
@[simp] theorem endUnsupported_prt (s v digest) : (endUnsupported s v digest).prt = s.prt := by simp [endUnsupported]
@[simp] theorem stepFields_prt (s v c f n) : (stepFields s v c f n).prt = s.prt := by simp [stepFields]
@[simp] theorem collGo_prt (s cmd) : (collGo s cmd).prt = s.prt := by unfold collGo; dsimp only; (repeat' split) <;> simp

@[simp] theorem collPump_prt (n s) : (collPump n s).prt = s.prt := by
  induction n generalizing s with
  | zero => rfl
  | succ n ih => unfold collPump; dsimp only; (repeat' split) <;> simp [ih]

@[simp] theorem collAside_prt (s c o x) : (collAside s c o x).prt = s.prt := by simp [collAside]
@[simp] theorem collOpDone_prt (s cmd step o) : (collOpDone s cmd step o).prt = s.prt := by unfold collOpDone; (repeat' split) <;> simp

/-! #### Admission (spec/06) -/

@[simp] theorem resetEngine_prt (s k) : (resetEngine s k).prt = s.prt := rfl
@[simp] theorem doPstop_prt (s id first) : (doPstop s id first).prt = s.prt := by unfold doPstop; (repeat' split) <;> simp

@[simp] theorem pstopSettle_prt (s) : (pstopSettle s).prt = s.prt := by
  refine foldl_prt (fun s c => ?_) _ _
  (repeat' split) <;> simp

/-! #### The fault collector (spec/13) -/

@[simp] theorem setRec_prt (s x) : (setRec s x).prt = s.prt := rfl
@[simp] theorem dropRec_prt (s id) : (dropRec s id).prt = s.prt := rfl
@[simp] theorem reserveRec_prt (s x) : (reserveRec s x).prt = s.prt := by simp [reserveRec]
@[simp] theorem overflowCmd_prt (s id st) : (overflowCmd s id st).prt = s.prt := by unfold overflowCmd; (repeat' split) <;> simp
@[simp] theorem overflowFetch_prt (s q) : (overflowFetch s q).prt = s.prt := by unfold overflowFetch; split <;> simp

@[simp] theorem deadRec_prt (s x) : (deadRec s x).prt = s.prt := by
  simp only [deadRec]
  (repeat' split) <;> simp -implicitDefEqProofs

@[simp] theorem pumpRing_prt (n s r) : (pumpRing n s r).prt = s.prt := by
  induction n generalizing s with
  | zero => rfl
  | succ n ih => unfold pumpRing; (repeat' split) <;> simp [ih]

@[simp] theorem ringError_prt (s r id) : (ringError s r id).prt = s.prt := by simp [ringError]
@[simp] theorem ringPageDone_prt (s r id o) : (ringPageDone s r id o).prt = s.prt := by unfold ringPageDone; split <;> simp
@[simp] theorem faultRecDone_prt (s r id o) : (faultRecDone s r id o).prt = s.prt := by simp [faultRecDone]

@[simp] theorem finishSettle_prt (s) : (finishSettle s).prt = s.prt := by
  unfold finishSettle
  split
  · rfl
  · refine foldl_prt (fun s c => ?_) _ _
    (repeat' split) <;> simp

/-! #### Doorbells, disable requests of a queue, batches and scans (spec/02) -/

@[simp] theorem hostWr_prt (s q off v) : (hostWr s q off v).prt = s.prt := by simp [hostWr]
@[simp] theorem stray_prt (s) : (stray s).prt = s.prt := rfl
@[simp] theorem ringQueue_prt (s q src) : (ringQueue s q src).prt = s.prt := by unfold ringQueue; split <;> simp
@[simp] theorem deliverDoorbell_prt (s p off src) : (deliverDoorbell s p off src).prt = s.prt := by unfold deliverDoorbell; (repeat' split) <;> simp
@[simp] theorem deliverLatched_prt (s) : (deliverLatched s).prt = s.prt := by simp [deliverLatched]
@[simp] theorem ringXl_prt (s q cq why) : (ringXl s q cq why).prt = s.prt := by simp [ringXl]
@[simp] theorem ringsXl_prt (s q why) : (ringsXl s q why).prt = s.prt := by simp [ringsXl]
@[simp] theorem abortDescs_prt (s q) : (abortDescs s q).prt = s.prt := rfl
@[simp] theorem abandon_prt (s id) : (abandon s id).prt = s.prt := rfl
@[simp] theorem abortCmd_prt (s c) : (abortCmd s c).prt = s.prt := by unfold abortCmd; (repeat' split) <;> simp

@[simp] theorem abortQueue_prt (s q) : (abortQueue s q).prt = s.prt := by
  unfold abortQueue
  extract_lets _ _ _ ended _ stopped _ after
  have hended : ended.prt = s.prt := by
    refine (foldl_prt (fun s c => ?_) _ _).trans rfl
    split <;> simp
  have hstopped : stopped.prt = ended.prt := by
    simp only [stopped]
    split <;> simp
  simp [after, hstopped, hended]

@[simp] theorem startDisable_prt (s q abort) : (startDisable s q abort).prt = s.prt := by simp [startDisable]
@[simp] theorem requestGo_prt (s q why) : (requestGo s q why).prt = s.prt := by unfold requestGo; dsimp only; split <;> simp
@[simp] theorem request_prt (s q why) : (request s q why).prt = s.prt := by simp [request]
@[simp] theorem ringLost_prt (s q) : (ringLost s q).prt = s.prt := rfl
@[simp] theorem ringsDone_prt (s q why good) : (ringsDone s q why good).prt = s.prt := by simp [ringsDone]
@[simp] theorem ringXlDone_prt (s q cq why o) : (ringXlDone s q cq why o).prt = s.prt := by simp [ringXlDone]
@[simp] theorem batchEnd_prt (s q scanOver) : (batchEnd s q scanOver).prt = s.prt := by simp [batchEnd]
@[simp] theorem takeDesc_prt (s q d) : (takeDesc s q d).prt = s.prt := rfl
@[simp] theorem takeMalformed_prt (s q w cause x) : (takeMalformed s q w cause x).prt = s.prt := by unfold takeMalformed; dsimp only; split <;> simp
@[simp] theorem scanXlStart_prt (s q w arg) : (scanXlStart s q w arg).prt = s.prt := by simp [scanXlStart]

@[simp] theorem scanGo_prt (n s q) : (scanGo n s q).prt = s.prt := by
  induction n generalizing s with
  | zero => rfl
  | succ n ih => unfold scanGo; dsimp only; (repeat' split) <;> simp [ih]

@[simp] theorem batchDone_prt (s q o) : (batchDone s q o).prt = s.prt := by simp [batchDone]
@[simp] theorem scanXlDone_prt (s q arg o) : (scanXlDone s q arg o).prt = s.prt := by unfold scanXlDone; dsimp only; (repeat' split) <;> simp
@[simp] theorem beginProgram.beginFresh_prt (s q d args) : (beginProgram.beginFresh s q d args).prt = s.prt := by
  unfold beginProgram.beginFresh; split <;> simp
@[simp] theorem beginProgram_prt (s q d args) : (beginProgram s q d args).prt = s.prt := by unfold beginProgram; split <;> simp
@[simp] theorem startGo_prt (s q d) : (startGo s q d).prt = s.prt := by simp [startGo]
@[simp] theorem startXl_prt (s q d arg) : (startXl s q d arg).prt = s.prt := by simp [startXl]
@[simp] theorem endUnstarted_prt (s q st) : (endUnstarted s q st).prt = s.prt := by unfold endUnstarted; split <;> simp
@[simp] theorem fetchStop_prt (s q d st det) : (fetchStop s q d st det).prt = s.prt := by simp [fetchStop]
@[simp] theorem fetchAside_prt (s q det) : (fetchAside s q det).prt = s.prt := rfl
@[simp] theorem fetchFail_prt (s q d o) : (fetchFail s q d o).prt = s.prt := by unfold fetchFail; split <;> simp
@[simp] theorem startXlDone_prt (s q arg o) : (startXlDone s q arg o).prt = s.prt := by unfold startXlDone; split <;> simp
@[simp] theorem argBlockDone_prt (s q o) : (argBlockDone s q o).prt = s.prt := by unfold argBlockDone; split <;> simp
@[simp] theorem fetchDone_prt (s q o) : (fetchDone s q o).prt = s.prt := by unfold fetchDone; split <;> simp
@[simp] theorem recordDone_prt (s q irq isEnd sq) : (recordDone s q irq isEnd sq).prt = s.prt := by simp [recordDone]
@[simp] theorem cqHeadWrite_prt (s q head) : (cqHeadWrite s q head).prt = s.prt := by simp [cqHeadWrite]

/-! #### The commands of a program (spec/03) -/

@[simp] theorem sumReg_prt (s id g v) : (sumReg s id g v).prt = s.prt := by unfold sumReg; split <;> simp
@[simp] theorem doneReg_prt (s id q g v) : (doneReg s id q g v).prt = s.prt := by simp [doneReg]
@[simp] theorem setPcQ_prt (s q t) : (setPcQ s q t).prt = s.prt := by unfold setPcQ; split <;> simp
@[simp] theorem doLoop_prt (s c gc off) : (doLoop s c gc off).prt = s.prt := by simp [doLoop]
@[simp] theorem doCmp_prt (s c cond pd ga b comb) : (doCmp s c cond pd ga b comb).prt = s.prt := by simp [doCmp]
@[simp] theorem doSignal_prt (s c f v ph) : (doSignal s c f v ph).prt = s.prt := by unfold doSignal; dsimp only; split <;> simp
@[simp] theorem doSnap_prt (s c set addr) : (doSnap s c set addr).prt = s.prt := by simp [doSnap]
@[simp] theorem addInval_prt (s ctx scope seg start len cmd pw) : (addInval s ctx scope seg start len cmd pw).prt = s.prt := rfl
@[simp] theorem doWaitge_prt (s c kind target thr) : (doWaitge s c kind target thr).prt = s.prt := by unfold doWaitge; split <;> simp
@[simp] theorem runCmd_prt (s id) : (runCmd s id).prt = s.prt := by unfold runCmd; dsimp only; (repeat' split) <;> simp
@[simp] theorem ldDone_prt (s id o) : (ldDone s id o).prt = s.prt := by unfold ldDone; (repeat' split) <;> simp
@[simp] theorem enqReadDone_prt (s id o) : (enqReadDone s id o).prt = s.prt := by simp [enqReadDone]

/-! #### Engine translations, invalidations and page faults (spec/10) -/

@[simp] theorem engXlDone_prt (s k utag rtag o) : (engXlDone s k utag rtag o).prt = s.prt := by unfold engXlDone; dsimp only; (repeat' split) <;> simp
@[simp] theorem setInv_prt (s v) : (setInv s v).prt = s.prt := rfl
@[simp] theorem invStep2_prt (s v rng) : (invStep2 s v rng).prt = s.prt := by simp -implicitDefEqProofs [invStep2]
@[simp] theorem invSegDone_prt (s id o) : (invSegDone s id o).prt = s.prt := by unfold invSegDone; split <;> simp
@[simp] theorem watchRetransDone_prt (s cmd o) : (watchRetransDone s cmd o).prt = s.prt := by unfold watchRetransDone; (repeat' split) <;> simp
@[simp] theorem retryCmd_prt (s c) : (retryCmd s c).prt = s.prt := by unfold retryCmd; dsimp only; split <;> simp
@[simp] theorem retryFetch_prt (s q) : (retryFetch s q).prt = s.prt := by unfold retryFetch; dsimp only; (repeat' split) <;> simp
@[simp] theorem failCmd_prt (s c) : (failCmd s c).prt = s.prt := by simp [failCmd]
@[simp] theorem failFetch_prt (s q) : (failFetch s q).prt = s.prt := by unfold failFetch; split <;> simp

@[simp] theorem resumeWrite_prt (s p v) : (resumeWrite s p v).prt = s.prt := by
  simp only [resumeWrite]
  split
  · rfl
  · split
    · split <;> simp
    · split
      · rw [ite_prt, failFetch_prt, ite_self]
        refine (foldl_prt (fun s c => ?_) _ _).trans (hostWr_prt ..)
        split <;> simp
      · simp

/-! #### Fabric links (spec/11) -/

@[simp] theorem setFloor_prt (s) : (setFloor s).prt = s.prt := rfl
@[simp] theorem parkPin_prt (s s' l) : (parkPin s s' l).prt = s'.prt := by
  unfold parkPin; split <;> simp
@[simp] theorem linkWrote_prt (s r) : (linkWrote s r).prt = s.prt := by simp [linkWrote]
@[simp] theorem loseSent_prt (s l) : (loseSent s l).prt = s.prt := by simp [loseSent]
@[simp] theorem leaveUp_prt (s l st cause) : (leaveUp s l st cause).prt = s.prt := by simp [leaveUp]
@[simp] theorem parkLink_prt (s l cause) : (parkLink s l cause).prt = s.prt := by simp [parkLink]
@[simp] theorem enableLink_prt (s l) : (enableLink s l).prt = s.prt := by simp [enableLink]
@[simp] theorem respond_prt (s m st data) : (respond s m st data).prt = s.prt := by unfold respond; dsimp only; (repeat' split) <;> simp
@[simp] theorem linkSignal_prt (s src addr v) : (linkSignal s src addr v).prt = s.prt := by simp [linkSignal]
@[simp] theorem lsigSettle_prt (s) : (lsigSettle s).prt = s.prt := by simp [lsigSettle]
@[simp] theorem remoteDone_prt (s src tag wr o) : (remoteDone s src tag wr o).prt = s.prt := by simp [remoteDone]

/-! #### Echo pairs (spec/12) -/

@[simp] theorem echErr_prt (s c) : (echErr s c).prt = s.prt := rfl
@[simp] theorem setPair_prt (s v) : (setPair s v).prt = s.prt := by simp [setPair]
@[simp] theorem packRecs_prt (s) : (packRecs s).prt = s.prt := rfl

@[simp] theorem echoPump_prt (n s) : (echoPump n s).prt = s.prt := by
  induction n generalizing s with
  | zero => rfl
  | succ n ih => unfold echoPump; dsimp only; (repeat' split) <;> simp [ih]

@[simp] theorem echoAck_prt (s) : (echoAck s).prt = s.prt := by simp [echoAck]
@[simp] theorem flushDirty_prt (s) : (flushDirty s).prt = s.prt := by simp [flushDirty]
@[simp] theorem lineRead_prt (s i o) : (lineRead s i o).prt = s.prt := by simp [lineRead]
@[simp] theorem parkEcho_prt (s) : (parkEcho s).prt = s.prt := rfl
@[simp] theorem releaseRecs_prt (s q) : (releaseRecs s q).prt = s.prt := by simp [releaseRecs]

@[simp] theorem retireN_prt (n s q) : (retireN n s q).prt = s.prt := by
  induction n generalizing s with
  | zero => rfl
  | succ n ih => unfold retireN; dsimp only; (repeat' split) <;> simp [ih]

@[simp] theorem retireQueue_prt (s q) : (retireQueue s q).prt = s.prt := by simp [retireQueue]
@[simp] theorem syncSettle_prt (s) : (syncSettle s).prt = s.prt := by unfold syncSettle; dsimp only; split <;> simp
@[simp] theorem compareOne_prt (s m) : (compareOne s m).prt = s.prt := by unfold compareOne; split <;> simp
@[simp] theorem compareSettle_prt (s) : (compareSettle s).prt = s.prt := by simp [compareSettle]
@[simp] theorem echoSettle_prt (s) : (echoSettle s).prt = s.prt := by simp [echoSettle]

/-! #### Observation and replay (spec/17) -/

@[simp] theorem traceItem_prt (s kind payload) : (traceItem s kind payload).prt = s.prt := by simp [traceItem]

@[simp] theorem lbPump_prt (n s) : (lbPump n s).prt = s.prt := by
  induction n generalizing s with
  | zero => rfl
  | succ n ih => unfold lbPump; dsimp only; (repeat' split) <;> simp [ih]

@[simp] theorem lbDrop_prt (s) : (lbDrop s).prt = s.prt := rfl
@[simp] theorem letterbookRecord_prt (s) : (letterbookRecord s).prt = s.prt := by unfold letterbookRecord; dsimp only; (repeat' split) <;> simp
@[simp] theorem lbWritten_prt (s o) : (lbWritten s o).prt = s.prt := by simp [lbWritten]
@[simp] theorem lbFlush_prt (s) : (lbFlush s).prt = s.prt := by simp [lbFlush]
@[simp] theorem rpRead_prt (s) : (rpRead s).prt = s.prt := by simp [rpRead]
@[simp] theorem rpPump_prt (s) : (rpPump s).prt = s.prt := by simp [rpPump]
@[simp] theorem rpDone_prt (s) : (rpDone s).prt = s.prt := by simp [rpDone]
@[simp] theorem rpRefuse_prt (s c) : (rpRefuse s c).prt = s.prt := rfl
@[simp] theorem rpFirst_prt (s r) : (rpFirst s r).prt = s.prt := by simp [rpFirst]
@[simp] theorem rpReadDone_prt (s o) : (rpReadDone s o).prt = s.prt := by simp [rpReadDone]
@[simp] theorem rpInput_prt (s q) : (rpInput s q).prt = s.prt := by unfold rpInput; split <;> simp
@[simp] theorem rpWindow_prt (s) : (rpWindow s).prt = s.prt := by unfold rpWindow; split <;> simp
@[simp] theorem rpSinceSettle_prt (s) : (rpSinceSettle s).prt = s.prt := by simp [rpSinceSettle]
@[simp] theorem divergeAt_prt (s q cause) : (divergeAt s q cause).prt = s.prt := by unfold divergeAt; split <;> simp
@[simp] theorem replaySettle_prt (s) : (replaySettle s).prt = s.prt := by unfold replaySettle; dsimp only; (repeat' split) <;> simp

/-! #### Power (spec/14) -/

@[simp] theorem sendDom_prt (s d code) : (sendDom s d code).prt = s.prt := rfl
@[simp] theorem reqDom_prt (s d code) : (reqDom s d code).prt = s.prt := by simp [reqDom]
@[simp] theorem openChamber_prt (s h c) : (openChamber s h c).prt = s.prt := by simp [openChamber]
@[simp] theorem chamberGo_prt (s h c) : (chamberGo s h c).prt = s.prt := by unfold chamberGo; split <;> simp
@[simp] theorem chambersGo_prt (s h) : (chambersGo s h).prt = s.prt := by simp [chambersGo]
@[simp] theorem heldSettle_prt (s) : (heldSettle s).prt = s.prt := by simp [heldSettle]
@[simp] theorem busySettle_prt (s) : (busySettle s).prt = s.prt := by simp -implicitDefEqProofs [busySettle]
@[simp] theorem reqAll_prt (s lo n code) : (reqAll s lo n code).prt = s.prt := by simp [reqAll]
@[simp] theorem linesLow_prt (s) : (linesLow s).prt = s.prt := by simp [linesLow]
@[simp] theorem linesBack_prt (s) : (linesBack s).prt = s.prt := by simp [linesBack]
@[simp] theorem entryStep_prt (s) : (entryStep s).prt = s.prt := by unfold entryStep; split <;> simp
@[simp] theorem startWake_prt (s) : (startWake s).prt = s.prt := by simp [startWake]
@[simp] theorem linkOn_prt (s l) : (linkOn s l).prt = s.prt := by simp [linkOn]

/-! #### Firmware cores (spec/15) -/

@[simp] theorem vaultWord_prt (s w) : (vaultWord s w).1.prt = s.prt := by unfold vaultWord; dsimp only; (repeat' split) <;> simp
@[simp] theorem vaultScan_prt (s off n) : (vaultScan s off n).1.prt = s.prt :=
  foldl_fst_prt (by simp) _ (s, true)
@[simp] theorem markWrite_prt (s ws) : (markWrite s ws).prt = s.prt := by simp [markWrite]
@[simp] theorem mkMark_prt (s core level point a0 a1) : (mkMark s core level point a0 a1).prt = s.prt := by
  unfold mkMark; dsimp only; (repeat' split) <;> simp
@[simp] theorem markWritten_prt (s) : (markWritten s).prt = s.prt := by simp [markWritten]
@[simp] theorem updateSettle_prt (s) : (updateSettle s).prt = s.prt := by simp [updateSettle]

/-! #### The wake sequence and the start-up (spec/14, spec/18) -/

@[simp] theorem imageIntact_prt (s) : (imageIntact s).1.prt = s.prt := by simp [imageIntact]
@[simp] theorem dormantLost_prt (s) : (dormantLost s).prt = s.prt := by simp [dormantLost]

@[simp] theorem dormantCheck_prt (s) : (dormantCheck s).prt = s.prt := by
  simp only [dormantCheck]
  (repeat' split) <;> simp -implicitDefEqProofs

@[simp] theorem wakeStep_prt (s) : (wakeStep s).prt = s.prt := by unfold wakeStep; split <;> simp

@[simp] theorem pwrSettle_prt (n s) : (pwrSettle n s).prt = s.prt := by
  induction n generalizing s with
  | zero => rfl
  | succ n ih => unfold pwrSettle; dsimp only; (repeat' split) <;> simp [ih]

@[simp] theorem controlStarts_prt (s) : (controlStarts s).prt = s.prt := by simp -implicitDefEqProofs [controlStarts]
@[simp] theorem startSettle_prt (s) : (startSettle s).prt = s.prt := by simp [startSettle]

/-! #### Stalled partitions (spec/05) -/

@[simp] theorem stallSettle_prt (s) : (stallSettle s).prt = s.prt := rfl

/-! #### Accesses of the host (spec/19) -/

@[simp] theorem hostDataDone_prt (s p wr o) : (hostDataDone s p wr o).prt = s.prt := by unfold hostDataDone; split <;> simp

/-! #### The end of an access, and what follows from a state (spec/01) -/

@[simp] theorem finishOp_prt (s o) : (finishOp s o).prt = s.prt := by unfold finishOp; split <;> simp
@[simp] theorem endOp_prt (s o) : (endOp s o).prt = s.prt := by simp [endOp]

@[simp] theorem finishAll_prt (n s) : (finishAll n s).prt = s.prt := by
  induction n generalizing s with
  | zero => rfl
  | succ n ih => unfold finishAll; split <;> simp [ih]

@[simp] theorem disableAsides_prt (s q) : (disableAsides s q).prt = s.prt := by simp [disableAsides]
@[simp] theorem settleQueues_prt (s) : (settleQueues s).prt = s.prt := by simp [settleQueues]
@[simp] theorem settleRings_prt (s) : (settleRings s).prt = s.prt := by simp [settleRings]
@[simp] theorem settleUnitsAll_prt (s) : (settleUnitsAll s).prt = s.prt := by simp [settleUnitsAll]
@[simp] theorem settleSides_prt (s) : (settleSides s).prt = s.prt := by simp [settleSides]
@[simp] theorem settlePower_prt (s) : (settlePower s).prt = s.prt := by simp [settlePower]
@[simp] theorem settle_prt (s) : (settle s).prt = s.prt := by simp [settle]

/-- The close of an effect keeps the records of disable sequences. -/
@[simp] theorem State.close_prt (s e : State) : (s.close e).prt = e.prt := settle_prt e

/-- Two effects with one outcome have the same record for every partition. -/
theorem dis_eq_of_close_eq {s e e' : State} (h : s.close e = s.close e') (p : Nat) : e.dis p = e'.dis p := by
  have hprt : e.prt = e'.prt := by simpa using congrArg State.prt h
  rw [State.dis, State.dis, hprt]

/-! ### A scrub whose row takes an armed injection

O21 says of the second scrub step of a row that it goes on to the next row when the limit of the partition, as the step finds it, lies above the row. The
statement is of every state and every index `p` of a disable record, without `p < 64`. At `farPart` the key of PH_PART_LIMIT.LAST is the key of FLT_INJ.ARM,
so the write of the row, which stores an armed injection and disarms it (spec/13 R369), changes the limit that the step reads after it. -/

/-- An index past the 64 partitions, at which PH_PART_LIMIT.LAST is FLT_INJ.ARM. -/
def farPart : Nat := 261 * 65536

theorem limit_farPart (s : State) : s.f F.PH_PART_LIMIT_LAST farPart = s.f F.FLT_INJ_ARM := rfl

/-- The disable record stands at row 0. -/
def farRecord : PrtDis := { rows := some 0 }

/-- Step 5 of the sequence; row 0 is SCRUBBING, and an injection is armed for its VALUE. -/
def farScrub : State :=
  { State.init Build.uz4r false with
    rst := 0
    prt := [(farPart, farRecord)]
    ph := [(0, ⟨0, .scrubbing, none, []⟩)]
    flds := [(F.INT_STARTUP_STEP.key 0, 7), (F.FLT_INJ_ARM.key 0, 1), (F.FLT_INJ_TARGET.key 0, 1), (F.PRT_STAT_STEP.key farPart, 5)] }

/-- The step finds a limit above row 0. -/
theorem farScrub_limit : farScrub.f F.PH_PART_LIMIT_LAST farPart = 1 := (limit_farPart farScrub).trans (by decide)

/-- The step takes row 0 for the last one. -/
theorem farScrub_rows : ((disableRow farScrub.clear 0).dis farPart).rows = none := by decide

/-- A unit, a waiter and a command, for the clauses that the refutation does not use. -/
def idleUnit : Wunit := { id := 0, cmd := 0, q := 0, part := 0, place := .port 0, ix := 0, epoch := 0, share := false, est := 0, win := 0, deadline := none, start := 0 }
def idleWaiter : Waiter := ⟨0, .ph 0, .relay 0, 0, 0, 0, 0, none, 0, none⟩
def idleCmd : Cmd :=
  { id := 0, q := 0, sq := 0, ord := 0, word := 0, ed := none, parcel := 0, rpt := 0, rst := false, r3 := false, body := .barrier, start := 0, placed := false, st := .running }

/-- Refutes O21: where the record of a disable sequence stands at an index past the 64 partitions, the second scrub step of row 0 disarms an injection and
with it lowers the limit it reads, and so does not go on to row 1 as the limit before it would have it. -/
theorem not_signalsReachPigeonholesAndWaiters : ¬ Obligations.SignalsReachPigeonholesAndWaiters := by
  intro h
  obtain ⟨-, -, -, -, -, hscrub⟩ := h farScrub 0 0 0 farPart 0 0 idleUnit idleWaiter idleCmd
  obtain ⟨-, hsecond⟩ := hscrub farRecord rfl rfl (by decide) (by decide) (by decide)
  obtain ⟨e, hexec, -, -, hrows, -, -⟩ := hsecond (by decide)
  have heffect : exec (.pigeonholeScrubStep 0) farScrub = .next (farScrub.close (disableRow farScrub.clear 0)) := rfl
  have hclose : farScrub.close (disableRow farScrub.clear 0) = farScrub.close e := Host.Outcome.next.inj (heffect.symm.trans hexec)
  have hnone : (e.dis farPart).rows = none := by rw [← dis_eq_of_close_eq hclose, farScrub_rows]
  have hsome : (e.dis farPart).rows = some 1 := by rw [hrows, farScrub_limit]; rfl
  exact absurd (hnone.symm.trans hsome) (by simp)

end Sys2Proof.Machine
end

section
/-! SUPPORT. The unit of work that O25 is refuted by: its account lies at a register of the echo pair (spec/06 R177, spec/12 R331, spec/18 R484). -/

namespace Sys2Proof.Machine

/-! ### Effects that end at rest -/

/-- The close of an effect that ends at rest hands no further fault to the collector. -/
theorem close_flt_at_rest {s e : State} (h : AtRest e) : (s.close e).flt = e.flt := by
  rw [State.close, settle_at_rest h]

/-- Two effects that end at rest with one outcome have handed the same faults to the collector. -/
theorem flt_eq_of_close_eq {s e e' : State} (he : AtRest e) (he' : AtRest e') (h : s.close e = s.close e') : e.flt = e'.flt := by
  rw [← close_flt_at_rest (s := s) he, h, close_flt_at_rest he']

/-! ### A unit whose account is the role of the twin

O25 says of the signal of a completion item that it is applied unless its queue is mirrored and the twin FENCED, as the item finds them. The model charges
the unit to its partition's account first (spec/06 R177) and looks at the role after it. The statement is of every unit, without a partition below 64: at
`farAccount` the first word of the account is ECH_STAT.ROLE, so the charge of the unit's time makes another role of FENCED. -/

/-- A partition past the 64, whose first account word is ECH_STAT.ROLE. -/
def farAccount : Nat := 177 * 16384

theorem account_farAccount (s : State) : s.f F.SCH_ACC_COUNT (4 * farAccount) = s.f F.ECH_STAT_ROLE := rfl

/-- A unit on engine port 0 that started at fabric time 0; no command is left for it. -/
def farUnit : Wunit := { idleUnit with part := farAccount }

/-- A collective, for the clause that the refutation does not use. -/
def idleColl : Collv := { cmd := 0, g := 0, rank := 0, n := 0, phase := 0, since := 0, st := .done }

/-- A FENCED twin at fabric time 1, with queue 0 mirrored and the unit on its port. -/
def fencedTwin : State :=
  { State.init ⟨16, 32, 4, 0, false⟩ false with
    rst := 0
    time := 1
    units := [farUnit]
    flds := [(F.INT_STARTUP_STEP.key 0, 6), (F.QE_QCFG_MIRRORED.key 0, 1), (F.ECH_STAT_ROLE.key 0, 5)] }

/-- The item of the unit: DONE, with a signal to pigeonhole 0 in bit 39. -/
def signalItem : W64 := 2 ^ 39

/-- The charge of the unit takes the twin out of FENCED. -/
theorem settleUnit_fencedTwin_role : (settleUnit fencedTwin.clear farUnit).f F.ECH_STAT_ROLE = 6 := by decide

/-- So the model judges the signal, and raises the fault of a signal outside the allotment (spec/04 R129). -/
theorem completionItem_fencedTwin_raises : (completionItem fencedTwin.clear 0 signalItem 0 0 0).flt.pend.length = 1 := by decide

theorem completionItem_fencedTwin_rests : AtRest (completionItem fencedTwin.clear 0 signalItem 0 0 0) := by decide

/-- The unit ends without a fault where its signal is not applied. -/
theorem unitEnd_fencedTwin_rests : AtRest (unitEnd (settleUnit fencedTwin.clear farUnit) farUnit .done) := by decide

/-- Refutes O25: the FENCED twin finds a mirrored queue's signal, which by the statement it drops, but the charge of the unit's account, at a partition past
the 64, is a write of ECH_STAT.ROLE, so the signal is judged and, outside the allotment, raises a fault. -/
theorem not_engineUnitsCompleteOrAreCutOff : ¬ Obligations.EngineUnitsCompleteOrAreCutOff := by
  intro h
  obtain ⟨hitem, -⟩ := h fencedTwin 0 0 0 signalItem 0 0 0 farUnit idleColl (by decide) (by decide)
  obtain ⟨-, -, hends⟩ := hitem (by decide)
  obtain ⟨hdropped, -⟩ := hends (by decide) (by decide)
  have hstated : exec (.completionItem 0 signalItem 0 0 0) fencedTwin
      = .next (fencedTwin.close (unitEnd (settleUnit fencedTwin.clear farUnit) farUnit .done)) := hdropped (by decide)
  have heffect : exec (.completionItem 0 signalItem 0 0 0) fencedTwin
      = .next (fencedTwin.close (completionItem fencedTwin.clear 0 signalItem 0 0 0)) := rfl
  have hclose := Host.Outcome.next.inj (heffect.symm.trans hstated)
  have hflt := flt_eq_of_close_eq completionItem_fencedTwin_rests unitEnd_fencedTwin_rests hclose
  have hpend : (unitEnd (settleUnit fencedTwin.clear farUnit) farUnit .done).flt.pend.length = 1 := by
    rw [← hflt, completionItem_fencedTwin_raises]
  exact absurd hpend (by decide)

end Sys2Proof.Machine
end

section
/-! SUPPORT. The beginning of a window, its phases, the turn of the major cycle and the swap of the timetable (spec/06 R164 to R167, R175). -/

namespace Sys2Proof.Machine

/-! ### Records of the letterbook, in a row -/

/-- Steps that each only make records of the letterbook make no more together. -/
theorem noted_foldl {α : Type} {g : State → α → State} (h : ∀ s a, Noted s (g s a)) (l : List α) (s : State) : Noted s (l.foldl g s) := by
  induction l generalizing s with
  | nil => exact Noted.rfl' s
  | cons a l ih => exact (h s a).trans (ih _)

theorem noted_noteHolds (s : State) : Noted s (noteHolds s) :=
  noted_foldl (fun _ _ => noted_foldl (fun _ _ => noted_note ..) _ _) _ _

theorem fb_of_f {s t : State} {x : Fld} {i : Nat} (h : t.f x i = s.f x i) : t.fb x i = s.fb x i := by
  rw [State.fb, State.fb, h]

/-! ### The position and the phases (spec/06 R165, R175) -/

section
variable {s t : State}

/-- The position depends on its base, on whether it stands still, and on the time alone. -/
theorem ttPos_congr (hpos : t.sch.pos = s.sch.pos) (hat : t.sch.posAt = s.sch.posAt) (hstill : t.sch.still = s.sch.still)
    (hstarted : t.sch.started = s.sch.started) (htime : t.time = s.time) : ttPos t = ttPos s := by
  simp only [ttPos, hpos, hat, hstill, hstarted, htime]

@[simp] theorem ttPos_ttStop (s : State) : ttPos (ttStop s) = ttPos s := by
  simp [ttPos, ttStop]

/-- The position goes on from where it is. -/
@[simp] theorem ttPos_ttRun (s : State) : ttPos (ttRun s) = ttPos s := by
  conv => lhs; rw [ttPos]
  simp [ttRun]

/-- Phase `ph` begins, DRAIN or TAIL, in which the position stands still (spec/06 R175). -/
def stillPhase (s : State) (ph : Nat) : State :=
  State.setF { ttStop s with sch := { (ttStop s).sch with stretchAt := s.time } } F.SCH_TTSTAT_PHASE 0 ph

/-- Phase RUN begins. -/
def runPhase (s : State) : State := ttRun (s.setF F.SCH_TTSTAT_PHASE 0 0)

theorem stillPhase_phase (s : State) (ph : Nat) : (stillPhase s ph).f F.SCH_TTSTAT_PHASE = ph % 4 := State.f_setF_same ..

theorem runPhase_phase (s : State) : (runPhase s).f F.SCH_TTSTAT_PHASE = 0 := State.f_setF_same (s := s) ..

theorem ttPos_stillPhase (s : State) (ph : Nat) : ttPos (stillPhase s ph) = ttPos s := ttPos_ttStop s

theorem ttPos_runPhase (s : State) : ttPos (runPhase s) = ttPos s := ttPos_ttRun _

theorem stillPhase_f (s : State) (ph : Nat) {y : Fld} {j : Nat} (h : y.key j ≠ F.SCH_TTSTAT_PHASE.key 0) : (stillPhase s ph).f y j = s.f y j :=
  State.f_setF_ne (s := { ttStop s with sch := { (ttStop s).sch with stretchAt := s.time } }) _ _ _ _ _ h

theorem runPhase_f (s : State) {y : Fld} {j : Nat} (h : y.key j ≠ F.SCH_TTSTAT_PHASE.key 0) : (runPhase s).f y j = s.f y j :=
  State.f_setF_ne (s := s) _ _ _ _ _ h

/-- A phase that begins adds nothing to STRETCH yet. -/
theorem stretched_stillPhase (s : State) (ph : Nat) : stretched (stillPhase s ph) = s.sch.stretchNs := by
  have hat : (stillPhase s ph).time - (stillPhase s ph).sch.stretchAt = 0 := Nat.sub_self s.time
  rw [stretched, hat, ite_self]
  rfl

theorem stretched_runPhase (s : State) : stretched (runPhase s) = s.sch.stretchNs := by
  rw [stretched, runPhase_phase]
  rfl

end

/-! ### A window begins (spec/06 R165, R171, R172) -/

/-- What the beginning of window `w` leaves of a state, before the phase that it begins in. -/
structure WindowOpened (s t : State) (w : Nat) : Prop where
  b : t.b = s.b
  time : t.time = s.time
  cmds : t.cmds = s.cmds
  qs : t.qs = s.qs
  gal : t.gal = s.gal
  sch : t.sch = { s.sch with win := w }
  win : t.f F.SCH_TTSTAT_WIN = w % 2 ^ F.SCH_TTSTAT_WIN.w
  f : ∀ (y : Fld) (j : Nat), y.key j ≠ F.OBS_LB_SEQ_SEQ.key 0 → y.key j ≠ F.SCH_TTSTAT_WIN.key 0 → y.key j ≠ F.SCH_STAT_LATE.key 0 → t.f y j = s.f y j

/-- Window `w` is the current one, and its units that cross and its late start are noted. -/
def openWindow (s : State) (w : Nat) : State :=
  let s := noteHolds s
  let s := { s with units := s.units.map fun (u : Wunit) => if u.share then { u with crossed := true } else u, sch := { s.sch with win := w } }
  let s := s.setF F.SCH_TTSTAT_WIN 0 w
  match lateAt s with
  | some pl => (s.incF F.SCH_STAT_LATE 0).note none false 0xD none (pl.code.1 * 256 + pl.code.2) (w * 64)
  | none => s

theorem windowOpened_openWindow (s : State) (w : Nat) : WindowOpened s (openWindow s w) w := by
  have hn := noted_noteHolds s
  let t : State := { noteHolds s with
    units := (noteHolds s).units.map fun (u : Wunit) => if u.share then { u with crossed := true } else u, sch := { (noteHolds s).sch with win := w } }
  have hset : WindowOpened s (t.setF F.SCH_TTSTAT_WIN 0 w) w :=
    { b := hn.b, time := hn.time, cmds := hn.cmds, qs := hn.qs, gal := hn.gal
      sch := congrArg (fun x : Sched => { x with win := w }) hn.sch
      win := State.f_setF_same ..
      f := fun y j hseq hwin _ => (State.f_setF_ne _ _ _ _ _ _ hwin).trans (hn.f y j hseq) }
  change WindowOpened s (match lateAt (t.setF F.SCH_TTSTAT_WIN 0 w) with
    | some pl => ((t.setF F.SCH_TTSTAT_WIN 0 w).incF F.SCH_STAT_LATE 0).note none false 0xD none (pl.code.1 * 256 + pl.code.2) (w * 64)
    | none => t.setF F.SCH_TTSTAT_WIN 0 w) w
  cases lateAt (t.setF F.SCH_TTSTAT_WIN 0 w) with
  | none => exact hset
  | some pl =>
    have hl := noted_note ((t.setF F.SCH_TTSTAT_WIN 0 w).incF F.SCH_STAT_LATE 0) none false 0xD none (pl.code.1 * 256 + pl.code.2) (w * 64)
    exact
      { b := hl.b.trans hset.b, time := hl.time.trans hset.time, cmds := hl.cmds.trans hset.cmds, qs := hl.qs.trans hset.qs, gal := hl.gal.trans hset.gal
        sch := hl.sch.trans hset.sch
        win := (hl.f _ _ (by decide)).trans ((State.f_setF_ne _ _ _ _ _ _ (by decide)).trans hset.win)
        f := fun y j hseq hwin hlate => (hl.f y j hseq).trans ((State.f_setF_ne _ _ _ _ _ _ hlate).trans (hset.f y j hseq hwin hlate)) }

section
variable {s t : State} {w : Nat}

theorem WindowOpened.curWin (h : WindowOpened s t w) : curWin t = s.sch.active.getD w (0, 65535) := by
  rw [Machine.curWin, h.sch]

theorem WindowOpened.ttPos (h : WindowOpened s t w) : ttPos t = ttPos s := by
  refine ttPos_congr ?_ ?_ ?_ ?_ h.time <;> rw [h.sch]

theorem WindowOpened.stretchNs (h : WindowOpened s t w) : t.sch.stretchNs = s.sch.stretchNs := by
  rw [h.sch]

/-- An EXCLUSIVE window begins in DRAIN, unless the one before it was of the same partition. -/
theorem beginWindow_exclusive (h : winExcl (s.sch.active.getD w (0, 65535)) = true) : beginWindow s w false = stillPhase (openWindow s w) 1 := by
  have hcur : winExcl (curWin (openWindow s w)) = true := by rwa [(windowOpened_openWindow s w).curWin]
  change (if winExcl (curWin (openWindow s w)) = true ∧ false = false then stillPhase (openWindow s w) 1 else runPhase (openWindow s w)) = _
  rw [if_pos ⟨hcur, rfl⟩]

/-- Another window begins in RUN. -/
theorem beginWindow_running {same : Bool} (h : ¬ (winExcl (s.sch.active.getD w (0, 65535)) = true ∧ same = false)) :
    beginWindow s w same = runPhase (openWindow s w) := by
  rw [← (windowOpened_openWindow s w).curWin] at h
  exact if_neg h

/-- A window begins in DRAIN or in RUN. -/
theorem beginWindow_cases (s : State) (w : Nat) (same : Bool) :
    (winExcl (s.sch.active.getD w (0, 65535)) = true ∧ same = false ∧ beginWindow s w same = stillPhase (openWindow s w) 1) ∨
      (¬ (winExcl (s.sch.active.getD w (0, 65535)) = true ∧ same = false) ∧ beginWindow s w same = runPhase (openWindow s w)) := by
  by_cases h : winExcl (s.sch.active.getD w (0, 65535)) = true ∧ same = false
  · obtain ⟨hexcl, rfl⟩ := h
    exact .inl ⟨hexcl, rfl, beginWindow_exclusive hexcl⟩
  · exact .inr ⟨h, beginWindow_running h⟩

end

/-! #### What its beginning leaves, in either phase -/

section
variable (s : State) (w : Nat) (same : Bool)

theorem beginWindow_phase :
    (beginWindow s w same).f F.SCH_TTSTAT_PHASE = if winExcl (s.sch.active.getD w (0, 65535)) = true ∧ same = false then 1 else 0 := by
  obtain ⟨hexcl, hsame, heq⟩ | ⟨hrun, heq⟩ := beginWindow_cases s w same
  · rw [heq, stillPhase_phase, if_pos ⟨hexcl, hsame⟩]
  · rw [heq, runPhase_phase, if_neg hrun]

theorem beginWindow_frame : (beginWindow s w same).cmds = s.cmds ∧ (beginWindow s w same).qs = s.qs ∧ (beginWindow s w same).gal = s.gal := by
  have h := windowOpened_openWindow s w
  obtain ⟨-, -, heq⟩ | ⟨-, heq⟩ := beginWindow_cases s w same <;> rw [heq] <;> exact ⟨h.cmds, h.qs, h.gal⟩

theorem beginWindow_current : (beginWindow s w same).sch.win = w ∧ (beginWindow s w same).sch.active = s.sch.active := by
  have h := windowOpened_openWindow s w
  obtain ⟨-, -, heq⟩ | ⟨-, heq⟩ := beginWindow_cases s w same <;> rw [heq] <;>
    exact ⟨(congrArg Sched.win h.sch :), (congrArg Sched.active h.sch :)⟩

theorem ttPos_beginWindow : ttPos (beginWindow s w same) = ttPos s := by
  have h := windowOpened_openWindow s w
  obtain ⟨-, -, heq⟩ | ⟨-, heq⟩ := beginWindow_cases s w same
  · rw [heq, ttPos_stillPhase, h.ttPos]
  · rw [heq, ttPos_runPhase, h.ttPos]

/-- No phase has lasted when a window begins. -/
theorem stretched_beginWindow : stretched (beginWindow s w same) = s.sch.stretchNs := by
  have h := windowOpened_openWindow s w
  obtain ⟨-, -, heq⟩ | ⟨-, heq⟩ := beginWindow_cases s w same
  · rw [heq, stretched_stillPhase, h.stretchNs]
  · rw [heq, stretched_runPhase, h.stretchNs]

theorem beginWindow_f_of_open {y : Fld} {j : Nat} (h : y.key j ≠ F.SCH_TTSTAT_PHASE.key 0) : (beginWindow s w same).f y j = (openWindow s w).f y j := by
  obtain ⟨-, -, heq⟩ | ⟨-, heq⟩ := beginWindow_cases s w same
  · rw [heq, stillPhase_f _ _ h]
  · rw [heq, runPhase_f _ h]

theorem beginWindow_win : (beginWindow s w same).f F.SCH_TTSTAT_WIN = w % 2 ^ F.SCH_TTSTAT_WIN.w :=
  (beginWindow_f_of_open s w same (by decide)).trans (windowOpened_openWindow s w).win

/-- The registers that the beginning of a window writes. -/
def windowKeys : List Nat := [F.OBS_LB_SEQ_SEQ.key 0, F.SCH_TTSTAT_WIN.key 0, F.SCH_STAT_LATE.key 0, F.SCH_TTSTAT_PHASE.key 0]

theorem beginWindow_f {y : Fld} {j : Nat} (h : y.key j ∉ windowKeys) : (beginWindow s w same).f y j = s.f y j := by
  simp only [windowKeys, List.mem_cons, List.not_mem_nil, or_false, not_or] at h
  obtain ⟨hseq, hwin, hlate, hphase⟩ := h
  exact (beginWindow_f_of_open s w same hphase).trans ((windowOpened_openWindow s w).f y j hseq hwin hlate)

end

/-! ### The masks and the timetable change places (spec/06 R166) -/

/-- The masks of group `g` change places with their shadows. -/
def swapMasks (s : State) (g : Nat) : State :=
  (((s.setF F.SCH_EGRP_PORTS g (s.f F.SCH_EGRP_ACT_PORTS g)).setF F.SCH_EGRP_ACT_PORTS g (s.f F.SCH_EGRP_PORTS g)).setF
    F.SCH_SGRP_STATIONS g (s.f F.SCH_SGRP_ACT_STATIONS g)).setF F.SCH_SGRP_ACT_STATIONS g (s.f F.SCH_SGRP_STATIONS g)

/-- The masks of group `g`, active and shadow. -/
def maskKeys (g : Nat) : List Nat := [F.SCH_EGRP_PORTS.key g, F.SCH_EGRP_ACT_PORTS.key g, F.SCH_SGRP_STATIONS.key g, F.SCH_SGRP_ACT_STATIONS.key g]

/-- `t` is `s` with the masks of the groups below `n` changed. -/
structure MasksSwapped (s t : State) (n : Nat) : Prop where
  time : t.time = s.time
  cmds : t.cmds = s.cmds
  qs : t.qs = s.qs
  gal : t.gal = s.gal
  sch : t.sch = s.sch
  ports : ∀ g < n, t.f F.SCH_EGRP_ACT_PORTS g = s.f F.SCH_EGRP_PORTS g % 2 ^ F.SCH_EGRP_ACT_PORTS.w
  stations : ∀ g < n, t.f F.SCH_SGRP_ACT_STATIONS g = s.f F.SCH_SGRP_STATIONS g % 2 ^ F.SCH_SGRP_ACT_STATIONS.w
  f : ∀ (y : Fld) (j : Nat), (∀ g < n, y.key j ∉ maskKeys g) → t.f y j = s.f y j

section
variable {s t : State} {n g : Nat}

theorem swapMasks_f {y : Fld} {j : Nat} (h : y.key j ∉ maskKeys g) : (swapMasks s g).f y j = s.f y j := by
  simp only [maskKeys, List.mem_cons, List.not_mem_nil, or_false, not_or] at h
  obtain ⟨hports, hact, hstations, hsact⟩ := h
  simp only [swapMasks]
  rw [State.f_setF_ne _ _ _ _ _ _ hsact, State.f_setF_ne _ _ _ _ _ _ hstations, State.f_setF_ne _ _ _ _ _ _ hact, State.f_setF_ne _ _ _ _ _ _ hports]

theorem swapMasks_ports (hg : g < 16) : (swapMasks s g).f F.SCH_EGRP_ACT_PORTS g = s.f F.SCH_EGRP_PORTS g % 2 ^ F.SCH_EGRP_ACT_PORTS.w := by
  have hne (y : Fld) (hy : F.SCH_EGRP_ACT_PORTS.n ≠ y.n) : F.SCH_EGRP_ACT_PORTS.key g ≠ y.key g := Fld.key_ne _ _ _ _ (by omega) (by omega) (.inl hy)
  simp only [swapMasks]
  rw [State.f_setF_ne _ _ _ _ _ _ (hne _ (by decide)), State.f_setF_ne _ _ _ _ _ _ (hne _ (by decide)), State.f_setF_same]

theorem swapMasks_stations : (swapMasks s g).f F.SCH_SGRP_ACT_STATIONS g = s.f F.SCH_SGRP_STATIONS g % 2 ^ F.SCH_SGRP_ACT_STATIONS.w :=
  State.f_setF_same ..

/-- No mask of one group is a mask of another. -/
theorem key_notMem_maskKeys {y : Fld} (hn : n < 16) (hg : g < 16) (h : g ≠ n) : y.key g ∉ maskKeys n := by
  simp only [maskKeys, List.mem_cons, List.not_mem_nil, or_false, not_or]
  refine ⟨?_, ?_, ?_, ?_⟩ <;> exact Fld.key_ne _ _ _ _ (by omega) (by omega) (.inr h)

theorem MasksSwapped.succ (h : MasksSwapped s t n) (hn : n < 16) : MasksSwapped s (swapMasks t n) (n + 1) where
  time := h.time
  cmds := h.cmds
  qs := h.qs
  gal := h.gal
  sch := h.sch
  ports g hg := by
    by_cases hgn : g = n
    · subst hgn
      rw [swapMasks_ports hn, h.f _ _ fun k hk => key_notMem_maskKeys (by omega) hn (by omega)]
    · rw [swapMasks_f (key_notMem_maskKeys hn (by omega) hgn), h.ports g (by omega)]
  stations g hg := by
    by_cases hgn : g = n
    · subst hgn
      rw [swapMasks_stations, h.f _ _ fun k hk => key_notMem_maskKeys (by omega) hn (by omega)]
    · rw [swapMasks_f (key_notMem_maskKeys hn (by omega) hgn), h.stations g (by omega)]
  f y j hy := by
    rw [swapMasks_f (hy n (by omega)), h.f y j fun k hk => hy k (by omega)]

theorem masksSwapped_foldl (s : State) : ∀ n ≤ 16, MasksSwapped s ((List.range n).foldl swapMasks s) n
  | 0, _ => ⟨rfl, rfl, rfl, rfl, rfl, fun _ h => absurd h (by omega), fun _ h => absurd h (by omega), fun _ _ _ => rfl⟩
  | n + 1, hn => by
    rw [List.range_succ, List.foldl_append]
    exact (masksSwapped_foldl s n (by omega)).succ (by omega)

end

/-- What a swap of the timetable leaves of a state. -/
structure Swapped (s t : State) : Prop where
  time : t.time = s.time
  cmds : t.cmds = s.cmds
  qs : t.qs = s.qs
  gal : t.gal = s.gal
  active : t.sch.active = shadowWins s
  pend : t.fb F.SCH_TTCTL_PEND = false
  ports : ∀ g < 16, t.f F.SCH_EGRP_ACT_PORTS g = s.f F.SCH_EGRP_PORTS g % 2 ^ F.SCH_EGRP_ACT_PORTS.w
  stations : ∀ g < 16, t.f F.SCH_SGRP_ACT_STATIONS g = s.f F.SCH_SGRP_STATIONS g % 2 ^ F.SCH_SGRP_ACT_STATIONS.w
  cycles : t.f F.SCH_TTSTAT_CYCLES = s.f F.SCH_TTSTAT_CYCLES

/-- The shadow timetable is the active one, and its numbers of windows with it; the masks have not changed yet. -/
def swapWindows (s : State) : State :=
  (State.setF { s with sch := { s.sch with active := shadowWins s, shadow := (List.range s.sch.active.length).zip s.sch.active } }
    F.SCH_TTCTL_ACTNWIN 0 (shadowWins s).length).setF F.SCH_TTCTL_SHDNWIN 0 (s.f F.SCH_TTCTL_ACTNWIN)

theorem swapWindows_f (s : State) {y : Fld} {j : Nat} (hact : y.key j ≠ F.SCH_TTCTL_ACTNWIN.key 0) (hshd : y.key j ≠ F.SCH_TTCTL_SHDNWIN.key 0) :
    (swapWindows s).f y j = s.f y j :=
  (State.f_setF_ne _ _ _ _ _ _ hshd).trans
    (State.f_setF_ne (s := { s with sch := { s.sch with active := shadowWins s, shadow := (List.range s.sch.active.length).zip s.sch.active } }) _ _ _ _ _ hact)

theorem applySwap_eq (s : State) : applySwap s = ((List.range 16).foldl swapMasks (swapWindows s)).setF F.SCH_TTCTL_PEND 0 0 := rfl

theorem key_zero_notMem_maskKeys {y : Fld} (hy : y.n ∉ [F.SCH_EGRP_PORTS.n, F.SCH_EGRP_ACT_PORTS.n, F.SCH_SGRP_STATIONS.n, F.SCH_SGRP_ACT_STATIONS.n]) {g : Nat}
    (hg : g < 16) : y.key 0 ∉ maskKeys g := by
  simp only [List.mem_cons, List.not_mem_nil, or_false, not_or] at hy
  obtain ⟨hports, hact, hstations, hsact⟩ := hy
  simp only [maskKeys, List.mem_cons, List.not_mem_nil, or_false, not_or]
  refine ⟨?_, ?_, ?_, ?_⟩ <;> refine Fld.key_ne _ _ _ _ (by omega) (by omega) (.inl ‹_›)

theorem swapped_applySwap (s : State) : Swapped s (applySwap s) := by
  rw [applySwap_eq]
  have h := masksSwapped_foldl (swapWindows s) 16 (Nat.le_refl _)
  generalize (List.range 16).foldl swapMasks (swapWindows s) = t at h ⊢
  have hmask (y : Fld) (g : Nat) (hg : g < 16) (hact : y.n ≠ F.SCH_TTCTL_ACTNWIN.n) (hshd : y.n ≠ F.SCH_TTCTL_SHDNWIN.n) : (swapWindows s).f y g = s.f y g :=
    swapWindows_f s (Fld.key_ne _ _ _ _ (by omega) (by omega) (.inl hact)) (Fld.key_ne _ _ _ _ (by omega) (by omega) (.inl hshd))
  have hpend (y : Fld) (g : Nat) (hg : g < 16) (hy : y.n ≠ F.SCH_TTCTL_PEND.n) : (t.setF F.SCH_TTCTL_PEND 0 0).f y g = t.f y g :=
    State.f_setF_ne _ _ _ _ _ _ (Fld.key_ne _ _ _ _ (by omega) (by omega) (.inl hy))
  exact
    { time := h.time, cmds := h.cmds, qs := h.qs, gal := h.gal
      active := congrArg Sched.active h.sch
      pend := by rw [State.fb, State.f_setF_same]; rfl
      ports := fun g hg => by rw [hpend _ g hg (by decide), h.ports g hg, hmask _ g hg (by decide) (by decide)]
      stations := fun g hg => by rw [hpend _ g hg (by decide), h.stations g hg, hmask _ g hg (by decide) (by decide)]
      cycles := by
        rw [hpend _ 0 (by omega) (by decide), h.f _ _ fun g hg => key_zero_notMem_maskKeys (by decide) hg, hmask _ 0 (by omega) (by decide) (by decide)] }

/-! ### The major cycle turns (spec/06 R165, R166) -/

/-- The last window has been left and the cycle counted. -/
def cycleCounted (s : State) : State := (leaveTail s).incF F.SCH_TTSTAT_CYCLES 0

/-- A pending swap takes effect, with its record. -/
def swapPending (s : State) : State :=
  if s.fb F.SCH_TTCTL_PEND then (applySwap s).note none false 0xE none 0 (s.f F.SCH_TTSTAT_CYCLES) else s

/-- Position and STRETCH begin at 0, at the time that CYCLE_T shows. -/
def restartCycle (s : State) : State :=
  State.setF { s with sch := { s.sch with pos := 0, posAt := s.time, stretchNs := 0, stretchAt := s.time } } F.SCH_CYCLE_T_T0 0 s.time

section
variable (s : State)

theorem leaveTail_cases : leaveTail s = s ∨ leaveTail s = ttRun (addStretch s) := by
  unfold leaveTail
  split
  · exact .inr rfl
  · exact .inl rfl

/-- Where TAIL is left, only the timetable's clock changes. -/
theorem leaveTail_frame : (leaveTail s).flds = s.flds ∧ (leaveTail s).time = s.time ∧ (leaveTail s).cmds = s.cmds ∧ (leaveTail s).qs = s.qs ∧
    (leaveTail s).gal = s.gal ∧ (leaveTail s).sch.active = s.sch.active ∧ (leaveTail s).sch.shadow = s.sch.shadow := by
  obtain heq | heq := leaveTail_cases s <;> rw [heq] <;> exact ⟨rfl, rfl, rfl, rfl, rfl, rfl, rfl⟩

/-- What stays of the state when the cycle is counted. -/
theorem cycleCounted_frame : (cycleCounted s).time = s.time ∧ (cycleCounted s).cmds = s.cmds ∧ (cycleCounted s).qs = s.qs ∧ (cycleCounted s).gal = s.gal ∧
    (cycleCounted s).sch.active = s.sch.active ∧ (cycleCounted s).sch.shadow = s.sch.shadow := by
  obtain ⟨-, htail⟩ := leaveTail_frame s
  exact htail

theorem cycleCounted_cycles : (cycleCounted s).f F.SCH_TTSTAT_CYCLES = (s.f F.SCH_TTSTAT_CYCLES + 1) % 2 ^ F.SCH_TTSTAT_CYCLES.w := by
  obtain ⟨hflds, -⟩ := leaveTail_frame s
  rw [cycleCounted, State.incF, State.f_setF_same, State.f, State.f, hflds]

theorem cycleCounted_f {y : Fld} {j : Nat} (h : y.key j ≠ F.SCH_TTSTAT_CYCLES.key 0) : (cycleCounted s).f y j = s.f y j := by
  obtain ⟨hflds, -⟩ := leaveTail_frame s
  rw [cycleCounted, State.incF, State.f_setF_ne _ _ _ _ _ _ h, State.f, State.f, hflds]

theorem shadowWins_cycleCounted : shadowWins (cycleCounted s) = shadowWins s := by
  obtain ⟨-, -, -, -, -, hshadow⟩ := cycleCounted_frame s
  rw [shadowWins, cycleCounted_f s (by decide), hshadow]
  rfl

/-- A record of the letterbook leaves a swap as it is. -/
theorem Swapped.noted {s t u : State} (h : Swapped s t) (hn : Noted t u) : Swapped s u where
  time := hn.time.trans h.time
  cmds := hn.cmds.trans h.cmds
  qs := hn.qs.trans h.qs
  gal := hn.gal.trans h.gal
  active := (congrArg Sched.active hn.sch).trans h.active
  pend := (fb_of_f (hn.f _ _ (by decide))).trans h.pend
  ports g hg := (hn.f _ _ (Fld.key_ne _ _ _ _ (by omega) (by omega) (.inl (by decide)))).trans (h.ports g hg)
  stations g hg := (hn.f _ _ (Fld.key_ne _ _ _ _ (by omega) (by omega) (.inl (by decide)))).trans (h.stations g hg)
  cycles := (hn.f _ _ (by decide)).trans h.cycles

theorem swapped_swapPending (h : s.fb F.SCH_TTCTL_PEND = true) : Swapped s (swapPending s) := by
  rw [swapPending, if_pos h]
  exact (swapped_applySwap s).noted (noted_note ..)

theorem swapPending_of_none (h : s.fb F.SCH_TTCTL_PEND = false) : swapPending s = s := by
  simp [swapPending, h]

/-- With or without a pending swap, none is pending after it and these stay. -/
theorem swapPending_frame : (swapPending s).time = s.time ∧ (swapPending s).cmds = s.cmds ∧ (swapPending s).qs = s.qs ∧ (swapPending s).gal = s.gal ∧
    (swapPending s).fb F.SCH_TTCTL_PEND = false ∧ (swapPending s).f F.SCH_TTSTAT_CYCLES = s.f F.SCH_TTSTAT_CYCLES := by
  cases hp : s.fb F.SCH_TTCTL_PEND with
  | true =>
    have h := swapped_swapPending s hp
    exact ⟨h.time, h.cmds, h.qs, h.gal, h.pend, h.cycles⟩
  | false =>
    rw [swapPending_of_none s hp]
    exact ⟨rfl, rfl, rfl, rfl, hp, rfl⟩

theorem majorBoundary_of_last (hover : windowOver s = true) (hlast : s.sch.active.length ≤ s.sch.win + 1) :
    majorBoundary s = beginWindow (restartCycle (swapPending (cycleCounted s))) 0 (nextSame s) := by
  rw [majorBoundary, if_pos ⟨hover, hlast⟩]
  rfl

theorem ttPos_restartCycle : ttPos (restartCycle s) = 0 := by
  simp [ttPos, restartCycle]

theorem restartCycle_f {y : Fld} {j : Nat} (h : y.key j ≠ F.SCH_CYCLE_T_T0.key 0) : (restartCycle s).f y j = s.f y j :=
  State.f_setF_ne (s := { s with sch := { s.sch with pos := 0, posAt := s.time, stretchNs := 0, stretchAt := s.time } }) _ _ _ _ _ h

end

/-! ### The checks of a swap do not read the letterbook (spec/06 R166) -/

/-- A mask field read at the 16 groups is the same after a record of the letterbook. -/
theorem Noted.masks {s t : State} (h : Noted s t) {x : Fld} (hx : x.n ≠ F.OBS_LB_SEQ_SEQ.n) (k : Nat) :
    ((List.range 16).filter fun g => (t.f x g).testBit k) = (List.range 16).filter fun g => (s.f x g).testBit k :=
  List.filter_congr fun g hg => by
    rw [h.f x g (Fld.key_ne _ _ _ _ (by have := List.mem_range.mp hg; omega) (by omega) (.inl hx))]

theorem Noted.swapError {s t : State} (h : Noted s t) : swapError t = swapError s := by
  have hn : t.f F.SCH_TTCTL_SHDNWIN = s.f F.SCH_TTCTL_SHDNWIN := h.f _ _ (by decide)
  have hshadow : shadowWins t = shadowWins s := by rw [shadowWins, shadowWins, hn, h.sch]
  simp only [Machine.swapError, hn, hshadow, h.b, h.masks (x := F.SCH_EGRP_PORTS) (by decide), h.masks (x := F.SCH_SGRP_STATIONS) (by decide)]

/-! ### The rows -/

section
variable {s t : State}

theorem exec_windowBoundary (h : windowBoundary s.clear = t) : exec .windowBoundary s = .next (s.close t) := by
  rw [← h]; rfl

theorem exec_majorCycleBoundary (h : majorBoundary s.clear = t) : exec .majorCycleBoundary s = .next (s.close t) := by
  rw [← h]; rfl

theorem exec_exclusiveRunEnd (h : exclusiveRunEnd s.clear = t) : exec .exclusiveRunEnd s = .next (s.close t) := by
  rw [← h]; rfl

/-- The register path hands SWAP on (spec/06 R166). -/
theorem exec_swap (hw : WorkReady s) (h : swapCmd (hostWr s.clear none 0x30008 1) = t) : exec .swap s = .next (s.close t.ok) := by
  obtain ⟨hready, hok⟩ := hw
  have hok : hostOk s.clear = true := hok
  have hrun : exec .swap s = .next (s.close (hostCmd s.clear 0x30008 fun s => if hostOk s then swapCmd (hostWr s none 0x30008 1) else s)) := rfl
  rw [hrun, hostCmd_ready hready, if_pos hok, h]

theorem exec_cancel (hr : HostReady s) : exec .cancel s = .next (s.close (cancelCmd (hostWr s.clear none 0x30008 2)).ok) := by
  have hrun : exec .cancel s = .next (s.close (hostCmd s.clear 0x30008 fun s => cancelCmd (hostWr s none 0x30008 2))) := rfl
  rw [hrun, hostCmd_ready hr]

theorem windowBoundary_of_not_over (h : windowOver s = false) : windowBoundary s = s := by
  simp [windowBoundary, h]

theorem majorBoundary_of_not_over (h : windowOver s = false) : majorBoundary s = s := by
  simp [majorBoundary, h]

end

/-- What the turn of the major cycle leaves: `t` is the state with the pending swap, if any, in effect. -/
theorem majorBoundary_turn {s t : State} (same : Bool) (htime : t.time = s.time) (hcmds : t.cmds = s.cmds) (hqs : t.qs = s.qs) (hgal : t.gal = s.gal)
    (hpend : t.fb F.SCH_TTCTL_PEND = false) (hcycles : t.f F.SCH_TTSTAT_CYCLES = (s.f F.SCH_TTSTAT_CYCLES + 1) % 2 ^ F.SCH_TTSTAT_CYCLES.w) :
    let e := beginWindow (restartCycle t) 0 same
    e.f F.SCH_TTSTAT_CYCLES = (s.f F.SCH_TTSTAT_CYCLES + 1) % 2 ^ F.SCH_TTSTAT_CYCLES.w ∧ e.f F.SCH_CYCLE_T_T0 = s.time % 2 ^ F.SCH_CYCLE_T_T0.w ∧
      stretched e = 0 ∧ ttPos e = 0 ∧ e.sch.win = 0 ∧ e.f F.SCH_TTSTAT_WIN = 0 ∧ e.fb F.SCH_TTCTL_PEND = false ∧
      e.sch.active = t.sch.active ∧ e.gal = s.gal ∧ e.cmds = s.cmds ∧ e.qs = s.qs := by
  intro e
  obtain ⟨ecmds, eqs, egal⟩ := beginWindow_frame (restartCycle t) 0 same
  obtain ⟨ewin, eactive⟩ := beginWindow_current (restartCycle t) 0 same
  refine ⟨?_, ?_, stretched_beginWindow .., (ttPos_beginWindow ..).trans (ttPos_restartCycle t), ewin, beginWindow_win .., ?_, eactive,
    egal.trans hgal, ecmds.trans hcmds, eqs.trans hqs⟩
  · exact (beginWindow_f _ _ _ (by decide)).trans ((restartCycle_f t (by decide)).trans hcycles)
  · rw [beginWindow_f _ _ _ (by decide), ← htime]
    exact State.f_setF_same ..
  · rw [← hpend]
    exact fb_of_f ((beginWindow_f _ _ _ (by decide)).trans (restartCycle_f t (by decide)))

/-- The masks of the 16 groups are not among the registers that the turn of the cycle writes. -/
theorem turn_keeps_masks (t : State) (same : Bool) {x : Fld} (hx : x ∈ [F.SCH_EGRP_ACT_PORTS, F.SCH_SGRP_ACT_STATIONS]) {g : Nat} (hg : g < 16) :
    (beginWindow (restartCycle t) 0 same).f x g = t.f x g := by
  have hn : x.n = 126 ∨ x.n = 128 := by
    simp only [List.mem_cons, List.not_mem_nil, or_false] at hx
    obtain rfl | rfl := hx
    · exact .inl rfl
    · exact .inr rfl
  rw [beginWindow_f, restartCycle_f]
  · simp only [Fld.key, F.SCH_CYCLE_T_T0]
    omega
  · simp only [windowKeys, Fld.key, F.OBS_LB_SEQ_SEQ, F.SCH_TTSTAT_WIN, F.SCH_STAT_LATE, F.SCH_TTSTAT_PHASE, List.mem_cons, List.not_mem_nil, or_false, not_or]
    omega

/-! ### The clauses -/

/-- Settles O26: each row runs its operation, and each clause names the branch that the operation takes. -/
theorem timetablesTurnAndSwap : Obligations.TimetablesTurnAndSwap := by
  intro s _
  refine ⟨?next, ?begins, ?notOver, ?turns, ⟨?runEnds, ?runGoesOn⟩, ?swap, ?cancel⟩
  case next => exact fun hover hmore => exec_windowBoundary (if_pos ⟨hover, hmore⟩)
  case begins =>
    intro w same
    obtain ⟨hcmds, hqs, hgal⟩ := beginWindow_frame s w same
    exact ⟨(beginWindow_current s w same).1, beginWindow_win s w same, ttPos_beginWindow s w same, hcmds, hqs, hgal, beginWindow_phase s w same⟩
  case notOver =>
    exact fun h => ⟨exec_windowBoundary (windowBoundary_of_not_over (s := s.clear) h), exec_majorCycleBoundary (majorBoundary_of_not_over (s := s.clear) h)⟩
  case turns =>
    intro hover hlast
    obtain ⟨htime, hcmds, hqs, hgal, hactive, -⟩ := cycleCounted_frame s.clear
    obtain ⟨stime, scmds, sqs, sgal, spend, scycles⟩ := swapPending_frame (cycleCounted s.clear)
    obtain ⟨ecycles, et0, estretch, epos, ewin, efwin, epend, eactive, egal, ecmds, eqs⟩ := majorBoundary_turn (s := s.clear) (nextSame s.clear)
      (stime.trans htime) (scmds.trans hcmds) (sqs.trans hqs) (sgal.trans hgal) spend (scycles.trans (cycleCounted_cycles s.clear))
    have hpend : (cycleCounted s.clear).fb F.SCH_TTCTL_PEND = s.fb F.SCH_TTCTL_PEND := fb_of_f (cycleCounted_f s.clear (by decide))
    have hmask (x : Fld) (hx : x.n ≠ F.SCH_TTSTAT_CYCLES.n) (g : Nat) (hg : g < 16) : (cycleCounted s.clear).f x g = s.f x g :=
      cycleCounted_f s.clear (Fld.key_ne _ _ _ _ (by omega) (by omega) (.inl hx))
    refine ⟨_, exec_majorCycleBoundary (majorBoundary_of_last s.clear hover hlast), ecycles, et0, estretch, epos, ewin, efwin, epend,
      fun hp => ?_, fun hp => ?_, egal, ecmds, eqs⟩
    · have hs := swapped_swapPending _ (hpend.trans hp)
      refine ⟨eactive.trans (hs.active.trans (shadowWins_cycleCounted s.clear)), fun g hg => ⟨?_, ?_⟩⟩
      · rw [turn_keeps_masks _ _ (by simp) hg, hs.ports g hg, hmask _ (by decide) g hg]
      · rw [turn_keeps_masks _ _ (by simp) hg, hs.stations g hg, hmask _ (by decide) g hg]
    · have hs := swapPending_of_none _ (hpend.trans hp)
      refine ⟨eactive.trans ((congrArg (·.sch.active) hs).trans hactive), fun g hg => ⟨?_, ?_⟩⟩
      · rw [turn_keeps_masks _ _ (by simp) hg, hs, hmask _ (by decide) g hg]
      · rw [turn_keeps_masks _ _ (by simp) hg, hs, hmask _ (by decide) g hg]
  case runEnds => exact fun h => ⟨stillPhase s.clear 2, exec_exclusiveRunEnd (if_pos h), stillPhase_phase .., rfl, ttPos_stillPhase .., rfl, rfl, rfl, rfl, rfl⟩
  case runGoesOn => exact fun h => exec_exclusiveRunEnd (if_neg h)
  case swap =>
    intro hw
    have herr := (noted_hostWr s.clear none 0x30008 1).swapError
    refine ⟨fun hnone => exec_swap hw ?_, fun c w hsome => exec_swap hw ?_⟩
    · rw [swapCmd, herr.trans hnone]
    · rw [swapCmd, herr.trans hsome]
  case cancel => exact exec_cancel

end Sys2Proof.Machine
end

section
/-! SUPPORT. The admission of units, the starts and resolve writes of tiles, and migration (spec/06 R163 to R178, spec/04 R127 to R135). -/

namespace Sys2Proof.Machine

/-! ### Commands and units by their identifiers -/

section
variable {s : State} {c d : Cmd} {u : Wunit} {id : Nat}

/-- A command that is written again is found as written. -/
theorem cmd?_setCmd (h : s.cmd? id = some c) (hid : d.id = id) : (s.setCmd d).cmd? id = some d := by
  subst hid
  have hkey : (fun x : Cmd => x.id == d.id) ∘ (fun x => if x.id = d.id then d else x) = fun x => x.id == d.id := by
    funext x
    by_cases hx : x.id = d.id <;> simp [hx]
  have hfound : s.cmds.find? (fun x => x.id == d.id) = some c := h
  have hc : c.id = d.id := by simpa using List.find?_some hfound
  rw [State.cmd?, State.setCmd_cmds, List.find?_map, hkey, hfound]
  simp [hc]

theorem cmd?_of_cmds {s t : State} (h : t.cmds = s.cmds) (id : Nat) : t.cmd? id = s.cmd? id := by
  rw [State.cmd?, State.cmd?, h]

theorem cmd?_id (h : s.cmd? id = some c) : c.id = id := by simpa using List.find?_some h

/-- The unit that comes behind those of other identifiers is found. -/
theorem unit?_of_append {s t : State} (h : s.unit? u.id = none) (ht : t.units = s.units ++ [u]) : t.unit? u.id = some u := by
  have hnone : s.units.find? (fun x => x.id == u.id) = none := h
  simp [State.unit?, ht, List.find?_append, hnone]

theorem unit_id_ne (h : s.unit? id = none) : ∀ x ∈ s.units, x.id ≠ id := by
  simpa [State.unit?] using h

end

/-! ### A unit is added (spec/06 R171, R173, R176) -/

/-- The command with a placement among those that its units ran on. -/
def Cmd.ranOn (c : Cmd) (pl : Place) : Cmd := { c with ran := if c.ran.contains pl then c.ran else c.ran ++ [pl] }

/-- The watchdog of a unit is armed: its duration is declared, and it is no movement (spec/06 R176). -/
def armsWatchdog (s : State) (c : Cmd) : Bool :=
  declared s (s.qPart c.q) c != 0 && !(match c.body with
    | .copy .. | .fill .. | .dma .. => true
    | _ => false)

/-- The unit that an admission of a command to a placement makes. -/
def newUnit (s : State) (c : Cmd) (pl : Place) (ix : Nat) (share : Bool) (est : Nat) : Wunit :=
  { id := s.nid, cmd := c.id, q := c.q, part := s.qPart c.q, place := pl, ix, epoch := (s.q c.q).pepoch.toNat, share, est, win := s.sch.win,
    deadline := if armsWatchdog s c then some (s.time + declared s (s.qPart c.q) c * 1000) else none, start := s.time }

/-- `t` is `s` with a unit of command `c` added on a placement, apart from what the scheduler and the letterbook note. -/
structure UnitAdded (s t : State) (c : Cmd) (pl : Place) (u : Wunit) : Prop where
  units : t.units = s.units ++ [u]
  cmds : t.cmds = (s.setCmd (c.ranOn pl)).cmds
  qs : t.qs = s.qs
  gal : t.gal = s.gal
  ops : t.ops = s.ops
  out : t.out = s.out

section
variable {s t : State} {c : Cmd} {pl : Place} {ix est : Nat} {share : Bool} {u : Wunit}

theorem addUnit_id (s : State) (c : Cmd) (pl : Place) (ix : Nat) (share : Bool) (est : Nat) : (addUnit s c pl ix share est).2 = s.nid := rfl

theorem unitAdded_addUnit (hc : s.cmd? c.id = some c) (pl : Place) (ix : Nat) (share : Bool) (est : Nat) :
    UnitAdded s (addUnit s c pl ix share est).1 c pl (newUnit s c pl ix share est) := by
  simp only [addUnit]
  generalize hn : s.note _ _ _ _ _ _ = n
  have h : Noted s n := hn ▸ noted_note ..
  generalize hm : (if share = true then addBal n (s.qPart c.q) (-(est : Int)) else n) = m
  have hcharged : m.units = n.units ∧ m.cmds = n.cmds ∧ m.qs = n.qs ∧ m.gal = n.gal ∧ m.ops = n.ops ∧ m.out = n.out := by
    rw [← hm]
    cases share <;> exact ⟨rfl, rfl, rfl, rfl, rfl, rfl⟩
  obtain ⟨hunits, hcmds, hqs, hgal, hops, hout⟩ := hcharged
  have hcmd : (m.cmd? c.id).getD c = c := by rw [cmd?_of_cmds (hcmds.trans h.cmds), hc]; rfl
  refine ⟨?_, ?_, hqs.trans h.qs, hgal.trans h.gal, hops.trans h.ops, hout.trans h.out⟩
  · rw [State.setCmd_units, hunits, h.units, q_of_qs h.qs, h.sch, h.time]
    rfl
  · rw [hcmd, State.setCmd_cmds, hcmds, h.cmds]
    rfl

/-- The command goes on with the placement noted. -/
theorem UnitAdded.cmd (h : UnitAdded s t c pl u) (hc : s.cmd? c.id = some c) : t.cmd? c.id = some (c.ranOn pl) := by
  rw [cmd?_of_cmds h.cmds]
  exact cmd?_setCmd hc rfl

/-- What the scheduler alone holds says nothing of the unit. -/
theorem UnitAdded.of_sch (h : UnitAdded s t c pl u) (x : Sched) : UnitAdded s { t with sch := x } c pl u :=
  ⟨h.units, h.cmds, h.qs, h.gal, h.ops, h.out⟩

end

/-! ### Admission (spec/06 R165, R169 to R171) -/

section
variable {s t : State} {k : Nat} {c : Cmd} {x : Plan}

theorem exec_unitAdmission (h : unitAdmission s.clear k = t) : exec (.unitAdmission k) s = .next (s.close t) := by
  rw [← h]; rfl

theorem unitAdmission_of_stopped (h : schRuns s = false) : unitAdmission s k = s := by
  simp [unitAdmission, h]

section
variable (hruns : schRuns s = true)
include hruns

theorem unitAdmission_of_gone (hgone : goneUnit s = some c) (hrelay : relayGone s c = false) : unitAdmission s k = failUnit s c := by
  simp [unitAdmission, hruns, hgone, hrelay]

theorem unitAdmission_of_relay_gone (hgone : goneUnit s = some c) (hrelay : relayGone s c = true) :
    unitAdmission s k = endPlaced s c.id .collectiveRestarted := by
  simp [unitAdmission, hruns, hgone, hrelay]

variable (hnone : goneUnit s = none)
include hnone

theorem unitAdmission_of_plan (hplan : ((laterPlan s).orElse fun _ => if windowOver s then none else nextPlan s k) = some (c, x)) :
    unitAdmission s k = doAdmit s c x := by
  simp only [unitAdmission, hruns, hnone, hplan, Bool.true_eq_false, if_false]

theorem unitAdmission_of_no_plan (hplan : ((laterPlan s).orElse fun _ => if windowOver s then none else nextPlan s k) = none) : unitAdmission s k = s := by
  simp only [unitAdmission, hruns, hnone, hplan, Bool.true_eq_false, if_false]

end

/-- The partition and the time of a SHARE admission are noted (spec/06 R173). -/
def noteShare (s : State) (c : Cmd) (x : Plan) : State :=
  if x.share ∧ c.whole = false then { s with sch := { s.sch with lastShare := s.qPart c.q, shareAt := s.time } } else s

theorem UnitAdded.noteShare {pl : Place} {u : Wunit} (h : UnitAdded s t c pl u) (x : Plan) : UnitAdded s (noteShare t c x) c pl u := by
  unfold Machine.noteShare
  split
  · exact h.of_sch _
  · exact h

/-- A command after the admission of a unit of it by a plan (spec/06 R169, R173). -/
def Cmd.admitted (c : Cmd) (x : Plan) : Cmd :=
  let c := { c with st := .admitted, live := c.live + 1 }
  let c := if x.mask = 0 then c else { c with whole := true, ports := x.mask, wshare := x.share, west := x.est, wcharge := 0 }
  match c.body with
  | .dispatch .. => { c with nxt := c.nxt + 1 }
  | .tilepass .. => { c with tiles := c.tiles.map fun t => if t.k = x.ix then { t with st := 2 } else t }
  | _ => c

/-- The estimate of a command admitted as a whole is charged (spec/06 R173). -/
def chargeWhole (s : State) (c : Cmd) (x : Plan) : State :=
  if x.mask ≠ 0 ∧ x.share then addBal s (s.qPart c.q) (-x.est) else s

/-- The state in which unit `id` has been added for command `c`, with the command noted as admitted and the unit sent. -/
def admitAdded (s : State) (c : Cmd) (x : Plan) (id : Nat) : State :=
  let d := ((s.cmd? c.id).getD c).admitted x
  match (s.setCmd d).unit? id with
  | some u => sendUnit (s.setCmd d) d u x.num
  | none => s.setCmd d

/-- The key of the record that may govern an admission (spec/17 R462). -/
def admitKey (c : Cmd) (x : Plan) : LbKey :=
  match c.body with
  | .collect _ _ _ g .. => .group g
  | _ => .place x.pl.code.1 x.pl.code.2

/-- An admission that no record governs. -/
theorem doAdmit_of_free (h : s.verdict (s.qPart c.q) (some c.q) (admitKey c x) = .free) :
    doAdmit s c x = admitAdded (chargeWhole (noteShare (addUnit s c x.pl x.ix x.share (if x.mask = 0 then x.est else 0)).1 c x) c x) c x s.nid := by
  have hstages : doAdmit s c x =
      let s := match s.verdict (s.qPart c.q) (some c.q) (admitKey c x) with
        | .must r => s.applied r
        | _ => s
      let r := addUnit s c x.pl x.ix x.share (if x.mask = 0 then x.est else 0)
      admitAdded (chargeWhole (noteShare r.1 c x) c x) c x r.2 := rfl
  rw [hstages, h]
  rfl

/-- The state in which the unit of a plan for one unit has been added and its command noted as admitted. -/
def admittedState (s : State) (c : Cmd) (x : Plan) : State :=
  (noteShare (addUnit s c x.pl x.ix x.share x.est).1 c x).setCmd ((c.ranOn x.pl).admitted x)

section
variable (hmask : x.mask = 0) (hc : s.cmd? c.id = some c)
include hmask hc

/-- A plan for one unit adds it and sends it. -/
theorem doAdmit_one (hnid : s.unit? s.nid = none) (hfree : s.verdict (s.qPart c.q) (some c.q) (admitKey c x) = .free) :
    doAdmit s c x = sendUnit (admittedState s c x) ((c.ranOn x.pl).admitted x) (newUnit s c x.pl x.ix x.share x.est) x.num := by
  have hadd := (unitAdded_addUnit hc x.pl x.ix x.share x.est).noteShare x
  have hunit : (admittedState s c x).unit? s.nid = some (newUnit s c x.pl x.ix x.share x.est) :=
    unit?_of_append (u := newUnit s c x.pl x.ix x.share x.est) hnid hadd.units
  rw [doAdmit_of_free hfree, chargeWhole, if_neg (by simp [hmask]), if_pos hmask, admitAdded, hadd.cmd hc]
  change (match (admittedState s c x).unit? s.nid with
    | some u => sendUnit (admittedState s c x) ((c.ranOn x.pl).admitted x) u x.num
    | none => admittedState s c x) = _
  rw [hunit]

theorem cmd?_admittedState : (admittedState s c x).cmd? c.id = some ((c.ranOn x.pl).admitted x) := by
  have hadd := (unitAdded_addUnit hc x.pl x.ix x.share x.est).noteShare x
  refine cmd?_setCmd (hadd.cmd hc) ?_
  simp only [Cmd.admitted, hmask, if_true]
  split <;> rfl

end

theorem Cmd.admitted_launch {np pin port eg md pl sub : _} (hbody : c.body = .launch np pin port eg md pl sub) (hmask : x.mask = 0) :
    c.admitted x = { c with st := .admitted, live := c.live + 1 } := by
  simp [Cmd.admitted, hmask, hbody]

/-- The command of a LAUNCH goes to the engine of its unit's port (spec/18 R483). -/
theorem sendUnit_launch {u : Wunit} {e np pin port eg md pl sub : _} (num : Option Nat) (hbody : c.body = .launch np pin port eg md pl sub)
    (hplace : u.place = .port e) : sendUnit s c u num = s.emit (.eCmd e (engHeader s u 0 0 0 0) pl) := by
  simp only [sendUnit, hbody, hplace, payloadOf]

end

/-! ### Tiles start (spec/04 R134) -/

/-- The tile launches when its slot is free: it is one of the first, or the tile before it in the slot has been resolved. -/
def SlotFree (c : Cmd) (t : TileSt) : Prop :=
  t.k < (tileHdr c.buf).nslot ∨ ∀ y ∈ c.tiles, y.k = t.k - (tileHdr c.buf).nslot → y.st = 4

section
variable {s t : State} {q : Nat} {c : Cmd} {tile : TileSt}

theorem exec_tileLaunchStart (h : tileStart s.clear q = t) : exec (.tileLaunchStart q) s = .next (s.close t) := by
  rw [← h]; rfl

theorem slotFree_iff : SlotFree c tile ↔
    tile.k < (tileHdr c.buf).nslot ∨ (c.tiles.any fun x => x.k == tile.k - (tileHdr c.buf).nslot && x.st != 4) = false := by
  simp [SlotFree]

theorem tileStart_of_none (h : s.cmds.find? (tileWaits q) = none) : tileStart s q = s := by
  simp [tileStart, h]

section
variable (hc : s.cmds.find? (tileWaits q) = some c) (ht : c.tiles.find? (·.st == 0) = some tile)
include hc ht

theorem tileStart_of_slot (h : SlotFree c tile) : tileStart s q = tileNext (s.setCmd (setTile c { tile with st := 1 })) c.id := by
  simp only [tileStart, hc, ht]
  exact if_pos (slotFree_iff.mp h)

theorem tileStart_without_slot (h : ¬ SlotFree c tile) : tileStart s q = s := by
  simp only [tileStart, hc, ht]
  exact if_neg (mt slotFree_iff.mpr h)

end

end

/-! ### Resolve writes begin (spec/04 R135, spec/06 R163) -/

/-- The queue that courier `k` serves next. -/
def courierTurn (s : State) (k : Nat) : Option Nat :=
  (courierOrder s).find? fun x => (resolveReady s k x).isSome || (ungroupedPlan s k x).any fun e => e.2.pl == .courier k

/-- The unit of a resolve write, which no watchdog limits (log 87). -/
def resolveUnit (s : State) (c : Cmd) (k : Nat) (tile : TileSt) : Wunit :=
  { newUnit s c (.courier k) tile.k false 0 with deadline := none }

/-- The state in which the unit of a resolve write has been added. -/
def resolveState (s : State) (c : Cmd) (k : Nat) (tile : TileSt) : State :=
  let t := (addUnit s c (.courier k) tile.k false 0).1
  { t with units := t.units.map fun (u : Wunit) => if u.id = s.nid then { u with deadline := none } else u }

/-- The tile whose resolve write begins, at its first row. -/
def TileSt.resolving (t : TileSt) : TileSt := { t with st := 5, row := 0 }

/-- The command of a tile whose resolve write begins. -/
def Cmd.resolving (c : Cmd) (k : Nat) (tile : TileSt) : Cmd := { setTile (c.ranOn (.courier k)) tile.resolving with live := c.live + 1 }

section
variable {s t : State} {q k : Nat} {c : Cmd} {tile : TileSt}

theorem exec_tileResolveWrite (h : resolveStart s.clear q k = t) : exec (.tileResolveWrite q k) s = .next (s.close t) := by
  rw [← h]; rfl

theorem resolveStart_of_no_turn (h : schRuns s = false ∨ windowOver s = true ∨ courierTurn s k ≠ some q) : resolveStart s q k = s :=
  if_pos h

section
variable (hc : s.cmd? c.id = some c) (hnid : s.unit? s.nid = none)
include hc hnid

theorem unitAdded_resolveState (k : Nat) (tile : TileSt) : UnitAdded s (resolveState s c k tile) c (.courier k) (resolveUnit s c k tile) := by
  have h := unitAdded_addUnit hc (.courier k) tile.k false 0
  refine ⟨?_, h.cmds, h.qs, h.gal, h.ops, h.out⟩
  have hkeep : s.units.map (fun (u : Wunit) => if u.id = s.nid then { u with deadline := none } else u) = s.units :=
    (List.map_congr_left fun u hu => if_neg (unit_id_ne hnid u hu)).trans (List.map_id' _)
  simp only [resolveState]
  rw [h.units, List.map_append, hkeep]
  simp [newUnit, resolveUnit]

/-- When its queue is next and no record governs it, the resolve write of a tile that has completed begins. -/
theorem resolveStart_of_turn (hruns : schRuns s = true) (hwin : windowOver s = false) (hturn : courierTurn s k = some q)
    (hready : resolveReady s k q = some (c, tile)) (hfree : s.verdict (s.qPart q) (some q) (.place 2 k) = .free) :
    resolveStart s q k = resolveRow ((resolveState s c k tile).setCmd (c.resolving k tile)) (c.resolving k tile) tile.resolving (resolveUnit s c k tile) := by
  have hadd := unitAdded_resolveState hc hnid k tile
  have hunit : (resolveState s c k tile).unit? s.nid = some (resolveUnit s c k tile) := unit?_of_append (u := resolveUnit s c k tile) hnid hadd.units
  have hgo : ¬ (schRuns s = false ∨ windowOver s = true ∨ courierTurn s k ≠ some q) := by simp [hruns, hwin, hturn]
  have hstart : resolveStart s q k = match (resolveState s c k tile).unit? s.nid, (resolveState s c k tile).cmd? c.id with
      | some u, some d => resolveRow ((resolveState s c k tile).setCmd { setTile d tile.resolving with live := d.live + 1 })
          { setTile d tile.resolving with live := d.live + 1 } tile.resolving u
      | _, _ => resolveState s c k tile := by
    refine (if_neg hgo).trans ?_
    rw [hready]
    dsimp -zeta only
    rw [hfree]
    rfl
  rw [hstart, hunit, hadd.cmd hc]
  rfl

end

end

/-! ### Migration (spec/04 R127, R128, R130) -/

/-- The placements that a migration of kind `kind` closes. -/
def closedBy (kind old : Nat) : Place → Bool
  | .stations .. => kind == 2
  | pl => kind != 2 && onPort old pl

/-- A queue after a migration. -/
def Queue.migrated (Q : Queue) (kind old new : Nat) : Queue :=
  { Q with
    pepoch := Q.pepoch + 1
    portMap := if kind = 0 then mset (Q.portMap.map fun e => if e.2 = old then (e.1, new) else e) old new else Q.portMap
    removed := if kind ≤ 1 then Q.removed.filter (fun k => k != old && (kind == 1 || k != new)) ++ [old] else Q.removed
    stOff := if kind = 2 then new else Q.stOff }

/-- The commands of a queue that ran on a closed placement carry MIGRATED. -/
def markMigrated (q kind old : Nat) (l : List Cmd) : List Cmd :=
  l.map fun c => if c.q = q ∧ c.ran.any (closedBy kind old) then { c with migrated := true } else c

/-- A migration that the block cannot make: of a port that nothing can stand for, of no kind, of a port or to a station that is not there. -/
def MigrateRefused (s : State) (kind old new : Nat) : Prop :=
  (kind = 0 ∧ replacement s old new = false) ∨ 2 < kind ∨ (kind = 1 ∧ s.b.eports ≤ old) ∨ (kind = 2 ∧ s.b.stations ≤ new)

/-- What a migration leaves: the queue and its commands are changed, no other queue. -/
structure Migrated (s t : State) (q kind old new : Nat) : Prop where
  same : t.q q = (s.q q).migrated kind old new
  other : ∀ x, x ≠ q → t.q x = s.q x
  cmds : t.cmds = markMigrated q kind old s.cmds
  units : t.units = s.units
  gal : t.gal = s.gal
  ph : t.ph = s.ph

section
variable {s t : State} {q kind old new : Nat}

theorem exec_migration (h : migrate s.clear q kind old new = t) : exec (.migration q kind old new) s = .next (s.close t) := by
  rw [← h]; rfl

theorem migrate_of_refused (h : MigrateRefused s kind old new) : migrate s q kind old new = s :=
  if_pos (.inr (.inr (.inr (.inr h))))

/-- A migration of an enabled queue that no record governs, by a postmaster core that runs. -/
theorem migrated_migrate (hst : (s.q q).st ≠ .disabled) (hctl : s.ctlOn = true) (hcore : s.coreUp 4 = true ∨ s.coreUp 5 = true)
    (hfree : s.verdict (s.qPart q) (some q) (.queue q) = .free) (h : ¬ MigrateRefused s kind old new) :
    Migrated s (migrate s q kind old new) q kind old new := by
  let m : State := { s with cmds := markMigrated q kind old s.cmds }
  let Q := (s.q q).migrated kind old new
  let x := Q.pepoch.toNat * 2 ^ 32 + old % 256 * 256 + new % 256
  have heq : migrate s q kind old new = (m.setQ q Q).note (some (s.qPart q)) false 7 (some q) 0 x := by
    have hcore' : (s.coreUp 4 || s.coreUp 5) = true := by simpa using hcore
    unfold MigrateRefused at h
    rw [migrate, hfree]
    refine (if_neg ?_).trans rfl
    simp [hst, hctl, hcore', h]
  have hn := noted_note (m.setQ q Q) (some (s.qPart q)) false 7 (some q) 0 x
  rw [heq]
  exact ⟨(q_of_qs hn.qs q).trans (State.q_setQ_same ..), fun x hx => (q_of_qs hn.qs x).trans (State.q_setQ_ne m q x _ hx), hn.cmds, hn.units, hn.gal, hn.ph⟩

end

/-! #### What each kind changes of the queue -/

section
variable (Q : Queue) (old new : Nat)

/-- Kind 0: the pinned port is the new one. -/
theorem Queue.migrated_replaces (h : new ≠ old) : mget old (Q.migrated 0 old new).portMap old = new ∧ (Q.migrated 0 old new).removed.contains old = true ∧
    (Q.migrated 0 old new).removed.contains new = false ∧ (Q.migrated 0 old new).stOff = Q.stOff := by
  refine ⟨mget_mset_same .., ?_, ?_, rfl⟩ <;> simp [Queue.migrated, h]

/-- Kind 1: the port is no longer one of the queue's groups'. -/
theorem Queue.migrated_removes : (Q.migrated 1 old new).removed.contains old = true ∧ (Q.migrated 1 old new).portMap = Q.portMap := by
  simp [Queue.migrated]

end

theorem ne_of_replacement {s : State} {old new : Nat} (h : replacement s old new = true) : new ≠ old := by
  simp only [replacement, Bool.and_eq_true, bne_iff_ne] at h
  obtain ⟨⟨⟨⟨-, hne⟩, -⟩, -⟩, -⟩ := h
  exact hne

/-! ### The clauses -/

/-- Settles O24: each row runs its operation, and each clause names the branch that the operation takes. -/
theorem unitsAreAdmittedInOrder : Obligations.UnitsAreAdmittedInOrder := by
  intro s k q kind old new e c x t
  refine ⟨?stopped, ?runs, ?launch, ?noTile, ?tile, ?resolve, ?migration⟩
  case stopped => exact fun h => exec_unitAdmission (unitAdmission_of_stopped (s := s.clear) h)
  case runs =>
    intro hruns
    refine ⟨fun hgone hrelay => ?_, fun hgone hrelay => ?_, fun hnone hplan => ?_, fun hnone hplan => ?_⟩ <;> refine exec_unitAdmission ?_
    · exact unitAdmission_of_gone (s := s.clear) hruns hgone hrelay
    · exact unitAdmission_of_relay_gone (s := s.clear) hruns hgone hrelay
    · exact unitAdmission_of_plan (s := s.clear) hruns hnone hplan
    · exact unitAdmission_of_no_plan (s := s.clear) hruns hnone hplan
  case launch =>
    intro np pin port eg md pl sub hbody hport hmask hc hnid hfree
    have hkey : admitKey c x = .place 0 e := by simp [admitKey, hbody, hport, Place.code]
    have hlaunched := Cmd.admitted_launch (c := c.ranOn x.pl) hbody hmask
    have hadd := (unitAdded_addUnit hc x.pl x.ix x.share x.est).noteShare x
    refine ⟨admittedState s c x, newUnit s c x.pl x.ix x.share x.est, ?_, hadd.units, rfl, hport, rfl, rfl, ?_, hadd.qs, hadd.gal, hadd.out⟩
    · rw [doAdmit_one hmask hc hnid (hkey ▸ hfree), hlaunched]
      exact sendUnit_launch x.num hbody hport
    · rw [cmd?_admittedState hmask hc, hlaunched]
      rfl
  case noTile => exact fun h => exec_tileLaunchStart (tileStart_of_none (s := s.clear) h)
  case tile =>
    exact fun hc ht => ⟨fun h => exec_tileLaunchStart (tileStart_of_slot (s := s.clear) hc ht h),
      fun h => exec_tileLaunchStart (tileStart_without_slot (s := s.clear) hc ht h)⟩
  case resolve =>
    refine ⟨fun h => exec_tileResolveWrite (resolveStart_of_no_turn (s := s.clear) h), fun hruns hwin hturn hready hfree hc hnid => ?_⟩
    have hadd := unitAdded_resolveState (s := s.clear) hc hnid k t
    exact ⟨resolveState s.clear c k t, c.resolving k t, resolveUnit s.clear c k t, hadd.units, rfl, rfl, rfl, rfl, rfl, rfl, rfl, rfl, rfl, hadd.qs, hadd.gal, hadd.ops,
      exec_tileResolveWrite (resolveStart_of_turn (s := s.clear) hc hnid hruns hwin hturn hready hfree)⟩
  case migration =>
    intro hst hctl hcore hfree
    have hmoves (kind : Nat) (h : ¬ MigrateRefused s kind old new) := migrated_migrate (s := s.clear) (kind := kind) hst hctl hcore hfree h
    refine ⟨fun hrep => ?_, fun hno => exec_migration (migrate_of_refused (s := s.clear) (.inl ⟨rfl, hno⟩)), fun hold => ?_, fun hnew => ?_,
      fun hkind => exec_migration (migrate_of_refused (s := s.clear) (.inr (.inl hkind)))⟩
    · have h := hmoves 0 (by simp [MigrateRefused, hrep])
      obtain ⟨hmap, hremoved, hkept, hoff⟩ := (s.q q).migrated_replaces old new (ne_of_replacement hrep)
      refine ⟨_, exec_migration rfl, ?_⟩
      rw [h.same]
      refine ⟨hmap, rfl, hremoved, hkept, hoff, h.cmds.trans ?_, h.units, h.gal, h.ph, h.other⟩
      have hclosed : closedBy 0 old = fun pl => match pl with | .stations .. => false | pl => onPort old pl := by
        funext pl
        cases pl <;> rfl
      rw [markMigrated, hclosed]
      rfl
    · have h := hmoves 1 (by simp [MigrateRefused, hold])
      obtain ⟨hremoved, hmap⟩ := (s.q q).migrated_removes old new
      refine ⟨_, exec_migration rfl, ?_⟩
      rw [h.same]
      exact ⟨hremoved, rfl, hmap, h.gal, h.units, h.other⟩
    · have h := hmoves 2 (by simp [MigrateRefused, hnew])
      refine ⟨_, exec_migration rfl, ?_⟩
      rw [h.same]
      exact ⟨rfl, rfl, rfl, rfl, h.gal, h.units, h.other⟩

end Sys2Proof.Machine
end

section
/-! SUPPORT. The timetable and the group masks after reset, and what the delivery of latched doorbells leaves of the timetable's clock (spec/06 R161, R165, R167, spec/02 R46). -/

namespace Sys2Proof.Machine

/-! ### The clock of the timetable stands while doorbells are delivered

When the sorter cores start, the major cycle begins and the latched doorbells are delivered (spec/18 R494, spec/02 R46). A doorbell may read fences, and what
a replayed read returns may complete commands (spec/17 R462); of the scheduler that writes balances alone. One lemma for each function that a delivery may
run, in the order of the model: most leave the scheduler as it is, those that may complete a command its clock. -/

/-- Where the timetable stands: whether it has begun, its position and since when, whether it stands still, and its window. -/
structure Clock where
  started : Bool
  pos : Nat
  posAt : Nat
  still : Bool
  win : Nat

def Sched.clock (x : Sched) : Clock := ⟨x.started, x.pos, x.posAt, x.still, x.win⟩

@[simp] theorem ite_sch (c : Prop) [Decidable c] (a b : State) : (if c then a else b).sch = if c then a.sch else b.sch := apply_ite _ c a b

@[simp] theorem ite_clock (c : Prop) [Decidable c] (a b : Sched) : (if c then a else b).clock = if c then a.clock else b.clock := apply_ite _ c a b

/-- A fold keeps the scheduler, or its clock, when every step of it does. -/
@[simp] theorem foldl_sch {α : Type} {g : State → α → State} (h : ∀ s a, (g s a).sch = s.sch) (l : List α) (s : State) : (l.foldl g s).sch = s.sch := by
  induction l generalizing s with
  | nil => rfl
  | cons a l ih => exact (ih _).trans (h s a)

@[simp] theorem foldl_clock {α : Type} {g : State → α → State} (h : ∀ s a, (g s a).sch.clock = s.sch.clock) (l : List α) (s : State) : (l.foldl g s).sch.clock = s.sch.clock := by
  induction l generalizing s with
  | nil => rfl
  | cons a l ih => exact (ih _).trans (h s a)

/-- A fold that carries a state beside a value keeps the scheduler when every step of it does. -/
theorem foldl_fst_sch {α β : Type} {g : State × β → α → State × β} (h : ∀ x a, (g x a).1.sch = x.1.sch) (l : List α) (x : State × β) :
    (l.foldl g x).1.sch = x.1.sch := by
  induction l generalizing x with
  | nil => rfl
  | cons a l ih => exact (ih _).trans (h x a)

/-! #### Letterbook records, interrupts and free values (spec/17 R455, R456, spec/18 R479) -/

@[simp] theorem State.satF_sch (s x i k) : (State.satF s x i k).sch = s.sch := rfl
@[simp] theorem State.freeW_sch (s) : (State.freeW s).2.sch = s.sch := rfl
@[simp] theorem State.mirror_sch (s r) : (State.mirror s r).sch = s.sch := (noted_mirror s r).sch
@[simp] theorem State.note_sch (s part full kind q w2 w3) : (State.note s part full kind q w2 w3).sch = s.sch := (noted_note ..).sch
@[simp] theorem State.noteFw_sch (s event) : (State.noteFw s event).sch = s.sch := by simp [State.noteFw]
@[simp] theorem State.irqG_sch (s n) : (State.irqG s n).sch = s.sch := by simp [State.irqG]
@[simp] theorem State.applied_sch (s r) : (State.applied s r).sch = s.sch := by simp [State.applied]

/-! #### Accesses (spec/10, spec/11, spec/18) -/

@[simp] theorem countAcc_sch (s pa) : (countAcc s pa).sch = s.sch := by simp [countAcc]
@[simp] theorem lockWord_sch (s op pa) : (lockWord s op pa).sch = s.sch := by unfold lockWord; split <;> simp

@[simp] theorem sendM_sch (done l s) : (sendM done l s).sch = s.sch := by
  induction l generalizing done s with
  | nil => rfl
  | cons r l ih => unfold sendM; split <;> simp [ih]

@[simp] theorem State.pumpM_sch (s) : (State.pumpM s).sch = s.sch := by simp [State.pumpM]
@[simp] theorem State.mIssue_sch (s op pa len wr data idn sec attr src) : (State.mIssue s op pa len wr data idn sec attr src).sch = s.sch := by
  simp [State.mIssue]
@[simp] theorem noteStarve_sch (s h r) : (noteStarve s h r).sch = s.sch := rfl
@[simp] theorem State.hIssue_sch (s r) : (State.hIssue s r).sch = s.sch := by simp [State.hIssue]
@[simp] theorem State.returnCredits_sch (s l m) : (State.returnCredits s l m).sch = s.sch := by simp [State.returnCredits]
@[simp] theorem State.sendMsg_sch (s m) : (State.sendMsg s m).1.sch = s.sch := by unfold State.sendMsg; (repeat' split) <;> simp

@[simp] theorem State.pumpL_sch (s : State) : s.pumpL.sch = s.sch := by
  simp only [State.pumpL]
  rw [foldl_sch, foldl_sch]
  · refine foldl_fst_sch (fun x e => ?_) _ (s, [])
    (repeat' split) <;> simp
  · intro s r
    (repeat' split) <;> simp
  · intro s e
    split <;> simp

@[simp] theorem stcInstall_sch (s ctx va e) : (stcInstall s ctx va e).sch = s.sch := rfl
@[simp] theorem issuePart_sch (s o off len pa tgt) : (issuePart s o off len pa tgt).sch = s.sch := by unfold issuePart; (repeat' split) <;> simp

@[simp] theorem issueRun_sch (n s o off len pa tgt) : (issueRun n s o off len pa tgt).sch = s.sch := by
  induction n generalizing s off len pa with
  | zero => rfl
  | succ n ih => unfold issueRun; split <;> simp [ih]

@[simp] theorem failXl_sch (s o k level bad pf) : (failXl s o k level bad pf).sch = s.sch := rfl
@[simp] theorem useFound_sch (s o e walked) : (useFound s o e walked).1.sch = s.sch := by unfold useFound; dsimp only; (repeat' split) <;> simp
@[simp] theorem walkRead_sch (s o w) : (walkRead s o w).sch = s.sch := by simp [walkRead]
@[simp] theorem walkMm_sch (s o vlo vhi) : (walkMm s o vlo vhi).1.sch = s.sch := by unfold walkMm; dsimp only; (repeat' split) <;> simp
@[simp] theorem xlOne_sch (s o) : (xlOne s o).1.sch = s.sch := by unfold xlOne; dsimp only; (repeat' split) <;> simp

@[simp] theorem xlGo_sch (n s id) : (xlGo n s id).sch = s.sch := by
  induction n generalizing s with
  | zero => rfl
  | succ n ih => unfold xlGo; dsimp only; (repeat' split) <;> simp [ih]

@[simp] theorem State.startOp_sch (s o) : (State.startOp s o).sch = s.sch := by simp [State.startOp]

/-! #### The queue engine and the completion of commands (spec/02, spec/03, spec/04) -/

@[simp] theorem writeRecs_sch (n s q) : (writeRecs n s q).sch = s.sch := by
  induction n generalizing s with
  | zero => rfl
  | succ n ih => unfold writeRecs; dsimp only; (repeat' split) <;> simp [ih]

@[simp] theorem pushRec_sch (s q r) : (pushRec s q r).sch = s.sch := by simp [pushRec]
@[simp] theorem setDesc_sch (s q d) : (setDesc s q d).sch = s.sch := rfl

@[simp] theorem pushEnds_sch (n s q) : (pushEnds n s q).sch = s.sch := by
  induction n generalizing s with
  | zero => rfl
  | succ n ih => unfold pushEnds; (repeat' split) <;> simp [ih]

@[simp] theorem queueSettle_sch (s q) : (queueSettle s q).sch = s.sch := by unfold queueSettle; dsimp only; split <;> simp
@[simp] theorem dropScan_sch (s q) : (dropScan s q).sch = s.sch := rfl
@[simp] theorem reclaim_sch (s) : (reclaim s).sch = s.sch := rfl
@[simp] theorem pin_sch (s k up) : (pin s k up).sch = s.sch := rfl
@[simp] theorem unpinAll_sch (s q) : (unpinAll s q).sch = s.sch := foldl_sch (fun _ _ => pin_sch ..) _ _
@[simp] theorem setErr_sch (s q cause word index) : (setErr s q cause word index).sch = s.sch := by unfold setErr; split <;> simp
@[simp] theorem stopQueue_sch (s q) : (stopQueue s q).sch = s.sch := by simp [stopQueue]
@[simp] theorem endProgram_sch (s q) : (endProgram s q).sch = s.sch := by unfold endProgram; split <;> simp
@[simp] theorem malformedCmd_sch (s q) : (malformedCmd s q).sch = s.sch := by unfold malformedCmd; split <;> simp
@[simp] theorem startFetch_sch (s q) : (startFetch s q).sch = s.sch := by simp [startFetch]
@[simp] theorem doReturn_sch (s q) : (doReturn s q).sch = s.sch := by unfold doReturn; dsimp only; (repeat' split) <;> simp
@[simp] theorem endProgramWith_sch (s q st) : (endProgramWith s q st).sch = s.sch := by unfold endProgramWith; split <;> simp
@[simp] theorem abortProgram_sch (s q) : (abortProgram s q).sch = s.sch := by simp [abortProgram]

@[simp] theorem advanceN_sch (n s q) : (advanceN n s q).sch = s.sch := by
  induction n generalizing s with
  | zero => rfl
  | succ n ih => unfold advanceN; dsimp only; (repeat' split) <;> simp [ih]

@[simp] theorem advance_sch (s q) : (advance s q).sch = s.sch := by simp [advance]
@[simp] theorem echoComplete_sch (s c st) : (echoComplete s c st).sch = s.sch := by simp [echoComplete]

/-- The one write of the scheduler: a command admitted as a whole settles its estimate with the balance (spec/06 R173). -/
@[simp] theorem addBal_clock (s p d) : (addBal s p d).sch.clock = s.sch.clock := rfl
@[simp] theorem wholeSettle_clock (s c) : (wholeSettle s c).sch.clock = s.sch.clock := by simp [wholeSettle]
@[simp] theorem completeOne_clock (s c st) : (completeOne s c st).sch.clock = s.sch.clock := by unfold completeOne; dsimp only; split <;> simp
@[simp] theorem completeNow_clock (s id st) : (completeNow s id st).sch.clock = s.sch.clock := by unfold completeNow; dsimp only; (repeat' split) <;> simp
@[simp] theorem completeCmd_clock (s id st) : (completeCmd s id st).sch.clock = s.sch.clock := by unfold completeCmd; split <;> simp
@[simp] theorem endCmd_clock (s id st) : (endCmd s id st).sch.clock = s.sch.clock := by unfold endCmd; split <;> simp

/-! #### Fences and doorbells (spec/05 R148, R150, spec/02 R46) -/

@[simp] theorem dropWaiter_sch (s w) : (dropWaiter s w).sch = s.sch := rfl
@[simp] theorem endWait_clock (s cmd st) : (endWait s cmd st).sch.clock = s.sch.clock := by unfold endWait; (repeat' split) <;> simp
@[simp] theorem wake_clock (s w st) : (wake s w st).sch.clock = s.sch.clock := by unfold wake; split <;> simp
@[simp] theorem wakeMet_clock (s t v) : (wakeMet s t v).sch.clock = s.sch.clock := by simp [wakeMet]
@[simp] theorem setWatch_sch (s w) : (setWatch s w).sch = s.sch := rfl
@[simp] theorem freeWatches_sch (s) : (freeWatches s).sch = s.sch := rfl
@[simp] theorem watchValue_clock (s w v) : (watchValue s w v).sch.clock = s.sch.clock := by simp [watchValue]
@[simp] theorem watchRead_clock (s w) : (watchRead s w).sch.clock = s.sch.clock := by unfold watchRead; dsimp only; (repeat' split) <;> simp
@[simp] theorem fenceAgain_sch (s hit) : (fenceAgain s hit).sch = s.sch := rfl
@[simp] theorem fenceDoorbell_clock (s p) : (fenceDoorbell s p).sch.clock = s.sch.clock := by simp [fenceDoorbell]
@[simp] theorem ring_sch (s t src) : (ring s t src).sch = s.sch := by simp [ring]
@[simp] theorem stray_sch (s) : (stray s).sch = s.sch := rfl
@[simp] theorem ringQueue_clock (s q src) : (ringQueue s q src).sch.clock = s.sch.clock := by unfold ringQueue; split <;> simp
@[simp] theorem deliverDoorbell_clock (s p off src) : (deliverDoorbell s p off src).sch.clock = s.sch.clock := by unfold deliverDoorbell; (repeat' split) <;> simp
@[simp] theorem deliverLatched_clock (s) : (deliverLatched s).sch.clock = s.sch.clock := by simp [deliverLatched]

/-! ### A table that is made of fields (spec/18 R471) -/

/-- The entries of a table that belong to a field. -/
def Fld.entries (x : Fld) (m : SMap Nat) : SMap Nat := m.filter fun e => e.1 / 65536 == x.n

section
variable {x y : Fld} {i k : Nat}

/-- A field is read from its own entries. -/
theorem mget_entries (d : Nat) (m : SMap Nat) (hi : i < 65536) : mget d (x.entries m) (x.key i) = mget d m (x.key i) := by
  have hkey : x.key i / 65536 = x.n := by simp only [Fld.key]; omega
  induction m with
  | nil => rfl
  | cons e r ih =>
    obtain ⟨a, v⟩ := e
    by_cases ha : a / 65536 = x.n
    · simp only [Fld.entries, List.filter_cons, ha, beq_self_eq_true, if_true, mget] at ih ⊢
      rw [ih]
    · have hne : a ≠ x.key i := fun h => ha (h ▸ hkey)
      simp only [Fld.entries, List.filter_cons, ha, beq_iff_eq, if_false, mget, hne] at ih ⊢
      exact ih

theorem Fld.entries_append (m m' : SMap Nat) : x.entries (m ++ m') = x.entries m ++ x.entries m' := List.filter_append ..

theorem Fld.entries_at0_ne (v : Nat) (h : y.n ≠ x.n) : x.entries (y.at0 v) = [] := by
  simp [Fld.entries, Fld.at0, h]

theorem div_of_mem_arr {v : Nat → Nat} (hk : k ≤ 65536) {e : Nat × Nat} (he : e ∈ y.arr k v) : e.1 / 65536 = y.n := by
  simp only [Fld.arr, List.mem_map, List.mem_range] at he
  obtain ⟨j, hj, rfl⟩ := he
  simp only
  omega

theorem Fld.entries_arr_ne (hk : k ≤ 65536) (v : Nat → Nat) (h : y.n ≠ x.n) : x.entries (y.arr k v) = [] :=
  List.filter_eq_nil_iff.mpr fun e he => by simp [div_of_mem_arr hk he, h]

theorem Fld.entries_arr_same (hk : k ≤ 65536) (v : Nat → Nat) : x.entries (x.arr k v) = x.arr k v :=
  List.filter_eq_self.mpr fun e he => by simp [div_of_mem_arr hk he]

theorem mget_arr (d : Nat) (v : Nat → Nat) (hi : i < k) : mget d (x.arr k v) (x.key i) = v i := by
  have hmem : i ∈ List.range k := List.mem_range.mpr hi
  rw [Fld.arr]
  generalize List.range k = l at hmem ⊢
  induction l with
  | nil => simp at hmem
  | cons j l ih =>
    simp only [List.map_cons, mget, Fld.key, Nat.add_left_cancel_iff]
    split
    next hj => rw [hj]
    next hj => exact ih ((List.mem_cons.mp hmem).resolve_left (Ne.symm hj))

end

/-! ### The group masks after reset (spec/06 R161, R167) -/

section
variable {b : Build} (hb : b.Permitted)
include hb

/-- Every array of the reset table has room in its field. -/
theorem reset_arrays_fit : b.stations ≤ 65536 ∧ b.domains ≤ 65536 ∧ 2 + b.halls / 8 + b.stations / 8 ≤ 65536 := by
  obtain ⟨hhalls, hstations, -, -, -, hlinks⟩ := hb
  have hecho : b.echo.toNat ≤ 1 := Bool.toNat_le b.echo
  simp only [Build.domains]
  omega

/-- A field that the reset table does not name has no entry in it; the masks of the station groups have theirs. -/
theorem entries_resetFlds (go : Bool) :
    F.SCH_EGRP_ACT_PORTS.entries (resetFlds b go) = [] ∧ F.SCH_EGRP_PORTS.entries (resetFlds b go) = [] ∧
      F.SCH_SGRP_ACT_STATIONS.entries (resetFlds b go) = F.SCH_SGRP_ACT_STATIONS.arr 16 (resetGroup b) ∧
      F.SCH_SGRP_STATIONS.entries (resetFlds b go) = F.SCH_SGRP_STATIONS.arr 16 (resetGroup b) := by
  obtain ⟨hstations, hdomains, hzones⟩ := reset_arrays_fit hb
  unfold resetFlds
  generalize 2 + b.halls / 8 + b.stations / 8 = zones at *
  generalize b.domains = domains at *
  refine ⟨?_, ?_, ?_, ?_⟩ <;>
    simp (disch := decide) only [Fld.entries_append, Fld.entries_at0_ne, Fld.entries_arr_ne hstations, Fld.entries_arr_ne hdomains,
      Fld.entries_arr_ne hzones, Fld.entries_arr_ne (k := 2) (by decide), Fld.entries_arr_ne (k := 8) (by decide), Fld.entries_arr_ne (k := 16) (by decide),
      Fld.entries_arr_ne (k := 64) (by decide), Fld.entries_arr_same (k := 16) (by decide), List.nil_append, List.append_nil]

/-- Station group `g` is the four stations from `4 g` on, where they are present. -/
theorem testBit_resetGroup (g n : Nat) : (resetGroup b g).testBit n = true ↔ n / 4 = g ∧ n < b.stations := by
  obtain ⟨-, hstations, -⟩ := hb
  have hbits : (15 * 2 ^ (4 * g)).testBit n = true ↔ n / 4 = g := by
    rw [Nat.testBit_mul_two_pow, show 15 = 2 ^ 4 - 1 from rfl, Nat.testBit_two_pow_sub_one]
    simp only [Bool.and_eq_true, decide_eq_true_eq]
    omega
  unfold resetGroup
  split
  · rw [hbits]
    omega
  · simp only [Nat.zero_testBit, Bool.false_eq_true, false_iff]
    omega

/-- The engine groups name no port, the station groups their stations. -/
theorem masks_after_reset (go : Bool) {g : Nat} (hg : g < 16) :
    (State.init b go).f F.SCH_EGRP_ACT_PORTS g = 0 ∧ (State.init b go).f F.SCH_EGRP_PORTS g = 0 ∧
      (State.init b go).f F.SCH_SGRP_ACT_STATIONS g = resetGroup b g ∧ (State.init b go).f F.SCH_SGRP_STATIONS g = resetGroup b g := by
  obtain ⟨hact, hports, hsact, hstations⟩ := entries_resetFlds hb go
  have hread (x : Fld) : (State.init b go).f x g = mget x.r (x.entries (resetFlds b go)) (x.key g) := (mget_entries _ _ (by omega)).symm
  rw [hread, hread, hread, hread, hact, hports, hsact, hstations, mget_arr _ _ hg, mget_arr _ _ hg]
  exact ⟨rfl, rfl, rfl, rfl⟩

end

/-! ### The first major cycle (spec/06 R165, R167) -/

/-- The timetable begins at position 0, at the time that CYCLE_T shows. -/
def timetableStarted (s : State) : State :=
  State.setF { s with sch := { s.sch with started := true, pos := 0, posAt := s.time } } F.SCH_CYCLE_T_T0 0 s.time

section
variable {s : State}

theorem ttPos_timetableStarted : ttPos (timetableStarted s) = 0 := by
  simp [ttPos, timetableStarted]

/-- The clock after the start of the sorter cores is that of the first window. -/
theorem readyState_clock (s : State) : (readyState s).sch.clock = (beginWindow (timetableStarted s) 0 false).sch.clock := by
  rw [readyState, deliverLatched_clock]
  rfl

/-- The one window after reset is not EXCLUSIVE, so it begins in RUN. -/
theorem readyState_clock_after_reset (h : s.sch.active = [(0, 65535)]) : (readyState s).sch.clock = ⟨true, 0, s.time, false, 0⟩ := by
  have hexcl : winExcl ((timetableStarted s).sch.active.getD 0 (0, 65535)) = false := by
    change winExcl (s.sch.active.getD 0 (0, 65535)) = false
    rw [h]
    decide
  have hopen := windowOpened_openWindow (timetableStarted s) 0
  have hrun : (runPhase (openWindow (timetableStarted s) 0)).sch.clock
      = ⟨(openWindow (timetableStarted s) 0).sch.started, ttPos (openWindow (timetableStarted s) 0), (openWindow (timetableStarted s) 0).time, false,
        (openWindow (timetableStarted s) 0).sch.win⟩ := rfl
  rw [readyState_clock, beginWindow_running fun ⟨hyes, _⟩ => absurd (hexcl.symm.trans hyes) (by decide), hrun, hopen.ttPos, ttPos_timetableStarted, hopen.time, hopen.sch]
  rfl

end

/-- In the one window after reset every group is SHARE. -/
theorem winOwner_after_reset (eng : Bool) (g : Nat) : winOwner (0, 65535) eng (some g) = .share := by
  have hexcl : winExcl (0, 65535) = false := by decide
  rw [winOwner, hexcl]
  simp

/-- Settles O13: the reset table names the masks of the station groups and none of the engine groups, and the clock begins with the one window. -/
theorem timetableAfterReset : Obligations.TimetableAfterReset := by
  refine ⟨fun b go hb => ⟨⟨(0, 65535), rfl, by decide, by decide, fun eng g _ => winOwner_after_reset eng g⟩, rfl, fun g hg => ?_, fun g n hg => ?_⟩,
    fun s hs => ?_⟩
  · obtain ⟨hact, hports, -⟩ := masks_after_reset hb go hg
    exact ⟨hact, hports⟩
  · obtain ⟨-, -, hact, hstations⟩ := masks_after_reset hb go hg
    rw [hact, hstations]
    exact ⟨testBit_resetGroup hb g n, testBit_resetGroup hb g n⟩
  · have h := readyState_clock_after_reset hs
    exact ⟨congrArg Clock.started h, congrArg Clock.pos h, congrArg Clock.posAt h, congrArg Clock.win h, congrArg Clock.still h⟩

end Sys2Proof.Machine
end

section
/-! SUPPORT. Translation requests of engines, writes of a context, notices of migration and the decay of the access counters (spec/10 R265, R266, R280, R290). -/

namespace Sys2Proof.Machine

/-! ### A translation request of an engine (spec/10 R280) -/

section
variable {s t : State} {k ut rt ctx va acc : Nat} {u : Wunit}

theorem exec_translationRequest (h : engRequest s.clear k ut rt ctx va acc = t) : exec (.translationRequest k ut rt ctx va acc) s = .next (s.close t) := by
  rw [← h]; rfl

/-- The translation that a request begins: alone, with the identity of the unit. -/
def engineOp (u : Wunit) (k ut rt ctx va acc : Nat) : Op :=
  { mkOp (.engXl k ut rt acc) ⟨u.part, some ctx, false⟩ k .va va 1 (acc == 1) [] with xlOnly := true, acc }

/-- The answer and the fault of a request that names no unit of the engine and its context. -/
def engineRefused (s : State) (k ut rt ctx va : Nat) : State :=
  (s.emit (.eXl k rt .protection 0 .gallery 0 (s.f F.XLT_CTX_EPOCH ctx))).raise { hwFault 5 2 k false ((unitByTag s k ut).map (·.part)) va with prog := true }

section
variable (hctl : s.ctlOn = true) (hhalt : s.flt.halt < 6) (hk : k < s.b.eports)
include hctl hhalt hk

theorem engRequest_of_unit (hu : unitByTag s k ut = some u) (hctx : s.qCtx u.q = ctx) :
    engRequest s k ut rt ctx va acc = if s.cmdHeld u.cmd then s else s.startOp (engineOp u k ut rt ctx va acc) := by
  have hown : (unitByTag s k ut).filter (fun u => s.qCtx u.q == ctx) = some u := by
    rw [hu, Option.filter_some, hctx, beq_self_eq_true, if_pos rfl]
  simp only [engRequest, engineOp, hctl, Nat.not_le.mpr hhalt, Nat.not_le.mpr hk, hown, or_self, if_false, Bool.true_eq_false]

theorem engRequest_of_stranger (h : ∀ u, unitByTag s k ut = some u → s.qCtx u.q ≠ ctx) : engRequest s k ut rt ctx va acc = engineRefused s k ut rt ctx va := by
  have hnone : (unitByTag s k ut).filter (fun u => s.qCtx u.q == ctx) = none := by
    simpa [Option.filter_eq_none_iff] using h
  simp only [engRequest, engineRefused, hctl, Nat.not_le.mpr hhalt, Nat.not_le.mpr hk, hnone, or_self, if_false, Bool.true_eq_false]

end

end

/-! ### A write of a context (spec/10 R265, R266) -/

section
variable {s t : State} {ctx word v : Nat}

/-- The write takes EN from a context that an enabled queue uses. -/
def CtxBusy (s : State) (ctx v : Nat) : Prop :=
  v / 2 ^ 63 % 2 = 0 ∧ s.fb F.XLT_CTX_EN ctx = true ∧ ∃ e ∈ s.qs, e.2.st ≠ .disabled ∧ s.qCtx e.1 = ctx

theorem exec_xltCtxWrite (hr : HostReady s) (hctx : ctx < 1024) (h : ctxWrite s.clear ctx word v = t) :
    exec (.xltCtxWrite ctx word v) s = .next (s.close t.ok) := by
  have hrun : exec (.xltCtxWrite ctx word v) s
      = .next (s.close (hostCmd s.clear (0xC8000 + 32 * ctx + 8 * word) fun s => if ctx < 1024 then ctxWrite s ctx word v else s)) := rfl
  rw [hrun, hostCmd_ready hr, if_pos hctx, h]

theorem ctxBusy_iff :
    (v / 2 ^ 63 % 2 = 0 ∧ s.fb F.XLT_CTX_EN ctx ∧ (s.qs.any fun e => e.2.st != .disabled && s.qCtx e.1 == ctx)) ↔ CtxBusy s ctx v := by
  simp only [CtxBusy, List.any_eq_true, Bool.and_eq_true, bne_iff_ne, beq_iff_eq]

theorem ctxWrite_of_busy (h : CtxBusy s ctx v) : ctxWrite s ctx 0 v = (s.setF F.XLT_ERR_CAUSE 0 1).setF F.XLT_ERR_WHERE 0 ctx := by
  simp only [ctxWrite, ctxBusy_iff, h, if_true]

/-- PART is stored only where EN was 0. -/
theorem ctxWrite_of_not_busy (h : ¬ CtxBusy s ctx v) :
    let y : State := if s.fb F.XLT_CTX_EN ctx then s else s.setF F.XLT_CTX_PART ctx (v / 2 ^ 48)
    ctxWrite s ctx 0 v
      = (((y.setF F.XLT_CTX_EN ctx (v / 2 ^ 63 % 2)).setF F.XLT_CTX_SEC ctx (v / 2 ^ 62)).setF F.XLT_CTX_MMEN ctx (v / 2 ^ 47)).setF F.XLT_CTX_SEGCNT ctx (v / 2 ^ 40) := by
  simp only [ctxWrite, ctxBusy_iff, h, if_false]

end

/-! ### Notices of migration and the access counters (spec/10 R290) -/

section
variable {s t : State}

theorem exec_xltMigrPop (hr : HostReady s) (h : migrPop s.clear = t) : exec .xltMigrPop s = .next (s.close t.ok) := by
  have hrun : exec .xltMigrPop s = .next (s.close (hostCmd s.clear 0xC0050 migrPop)) := rfl
  rw [hrun, hostCmd_ready hr, h]

theorem migrPop_eq (s : State) : migrPop s = State.setF { (if s.xlt.notes.length = 1 then s.emit (.gintLevel false) else s) with
    xlt := { s.xlt with notes := s.xlt.notes.tail } } F.XLT_MIGR_NOTE_LOST 0 0 := by
  have hxlt : (if s.xlt.notes.length = 1 then s.emit (.gintLevel false) else s).xlt = s.xlt := by split <;> rfl
  simp only [migrPop, hxlt, List.drop_one]

theorem exec_accessCounterDecay (h : acntDecay s.clear = t) : exec .accessCounterDecay s = .next (s.close t) := by
  rw [← h]; rfl

/-- Every counter at half, without those that become 0. -/
def halved (m : SMap Nat) : SMap Nat := m.filterMap fun e => if e.2 / 2 = 0 then none else some (e.1, e.2 / 2)

theorem mem_halved {m : SMap Nat} {i n : Nat} : (i, n) ∈ halved m ↔ n ≠ 0 ∧ ∃ a, (i, a) ∈ m ∧ n = a / 2 := by
  simp only [halved, List.mem_filterMap, Option.ite_none_left_eq_some, Option.some.injEq, Prod.mk.injEq, Prod.exists]
  constructor
  · rintro ⟨j, a, hmem, hne, rfl, rfl⟩
    exact ⟨hne, a, hmem, rfl⟩
  · rintro ⟨hne, a, hmem, rfl⟩
    exact ⟨i, a, hmem, hne, rfl, rfl⟩

theorem acntDecay_of_early (h : s.f F.XLT_ACNT_CFG_DECAY * 1000000 = 0 ∨ s.time < s.xlt.decayAt + s.f F.XLT_ACNT_CFG_DECAY * 1000000) : acntDecay s = s :=
  if_pos (h.imp_right .inl)

theorem acntDecay_due (hctl : s.ctlOn = true) (hd : s.f F.XLT_ACNT_CFG_DECAY * 1000000 ≠ 0)
    (ht : s.xlt.decayAt + s.f F.XLT_ACNT_CFG_DECAY * 1000000 ≤ s.time) :
    acntDecay s = { s with xlt := { s.xlt with acnt := halved s.xlt.acnt, decayAt := s.xlt.decayAt + s.f F.XLT_ACNT_CFG_DECAY * 1000000 } } :=
  if_neg (by simp [hctl, hd, Nat.not_lt.mpr ht])

end

/-! ### The clauses -/

/-- Settles O34: each row runs its operation, and each clause names the branch that the operation takes. -/
theorem engineTranslationsAndContexts : Obligations.EngineTranslationsAndContexts := by
  intro s k ut rt ctx va acc v
  refine ⟨?request, ?context, ?pop, ?decay⟩
  case request =>
    intro hctl hhalt hk
    refine ⟨fun u hu hctx => ?_, fun h => exec_translationRequest (engRequest_of_stranger (s := s.clear) hctl hhalt hk h)⟩
    have hunit := engRequest_of_unit (s := s.clear) (rt := rt) (va := va) (acc := acc) hctl hhalt hk hu hctx
    exact ⟨fun hfree => exec_translationRequest (hunit.trans (if_neg (Bool.eq_false_iff.mp hfree))), fun hheld => exec_translationRequest (hunit.trans (if_pos hheld))⟩
  case context =>
    intro hr hctx
    exact ⟨fun hused => exec_xltCtxWrite hr hctx (ctxWrite_of_busy (s := s.clear) hused),
      fun hfree => exec_xltCtxWrite hr hctx (ctxWrite_of_not_busy (s := s.clear) hfree), exec_xltCtxWrite hr hctx rfl, exec_xltCtxWrite hr hctx rfl⟩
  case pop => exact fun hr => exec_xltMigrPop hr (migrPop_eq s.clear)
  case decay =>
    intro hctl
    refine ⟨fun hd ht => ⟨_, exec_accessCounterDecay (acntDecay_due (s := s.clear) hctl hd ht), rfl, fun i n => mem_halved, rfl, rfl, rfl, rfl⟩,
      fun h => exec_accessCounterDecay (acntDecay_of_early (s := s.clear) h)⟩

end Sys2Proof.Machine
end

section
/-! SUPPORT. Invalidations from the write of GO to their end, and the commands and fetches that page faults set aside (spec/10 R278, R282 to R288). -/

namespace Sys2Proof.Machine

/-! ### A write of XLT_PW_INV_CTL (spec/10 R285) -/

/-- The fields that a write of the window's register stores while it is not BUSY; bit 61 clears ERR. -/
def invFields (s : State) (p v : Nat) : State :=
  let y : State := if v / 2 ^ 61 % 2 = 1 then s.setF F.XLT_PW_INV_CTL_ERR p 0 else s
  ((y.setF F.XLT_PW_INV_CTL_SCOPE p (v / 2 ^ 16)).setF F.XLT_PW_INV_CTL_SEG p (v / 2 ^ 10)).setF F.XLT_PW_INV_CTL_CTX p v

/-- The context is another partition's, the scope is 3, or the range is not of whole pages or is empty. -/
def InvRefused (s : State) (p v : Nat) : Prop :=
  s.f F.XLT_CTX_PART (v % 1024) ≠ p ∨ v / 2 ^ 16 % 4 = 3 ∨ (v / 2 ^ 16 % 4 = 2 ∧
    (s.f F.XLT_PW_INV_START_START p % 4096 ≠ 0 ∨ s.f F.XLT_PW_INV_LEN_LENGTH p % 4096 ≠ 0 ∨ s.f F.XLT_PW_INV_LEN_LENGTH p = 0))

section
variable {s t : State} {p v : Nat}

theorem exec_invalidationGo (hr : HostReady s) (he : Enabled s p) (hok : hostOk s = true) (h : invCtlWrite s.clear p v = t) :
    exec (.invalidationGo p v) s = .next (s.close t.ok) := by
  have hrun : exec (.invalidationGo p v) s = .next (s.close (windowCmd s.clear p 0xF308 false fun s => if hostOk s then invCtlWrite s p v else s)) := rfl
  rw [hrun, windowCmd_enabled hr he, hostOk_clear, if_pos hok, h]

theorem invCtlWrite_of_busy (h : s.fb F.XLT_PW_INV_CTL_BUSY p = true) : invCtlWrite s p v = s := if_pos h

theorem invFields_ctx : (invFields s p v).f F.XLT_PW_INV_CTL_CTX p = v % 1024 := State.f_setF_same ..

section
variable (hp : p < 64)
include hp

theorem invFields_f {y : Fld} {j : Nat} (hj : j < 65536)
    (hy : y.n ∉ [F.XLT_PW_INV_CTL_ERR.n, F.XLT_PW_INV_CTL_SCOPE.n, F.XLT_PW_INV_CTL_SEG.n, F.XLT_PW_INV_CTL_CTX.n]) : (invFields s p v).f y j = s.f y j := by
  simp only [List.mem_cons, List.not_mem_nil, or_false, not_or] at hy
  obtain ⟨herr, hscope, hseg, hctx⟩ := hy
  have hkey {x : Fld} (hx : y.n ≠ x.n) : y.key j ≠ x.key p := Fld.key_ne y x j p hj (by omega) (.inl hx)
  have hcleared : (if v / 2 ^ 61 % 2 = 1 then s.setF F.XLT_PW_INV_CTL_ERR p 0 else s).f y j = s.f y j := by
    split
    · exact State.f_setF_ne _ _ _ _ _ _ (hkey herr)
    · rfl
  rw [invFields, State.f_setF_ne _ _ _ _ _ _ (hkey hctx), State.f_setF_ne _ _ _ _ _ _ (hkey hseg), State.f_setF_ne _ _ _ _ _ _ (hkey hscope), hcleared]

theorem invFields_seg : (invFields s p v).f F.XLT_PW_INV_CTL_SEG p = v / 2 ^ 10 % 64 := by
  rw [invFields, State.f_setF_ne _ _ _ _ _ _ (Fld.key_ne _ _ p p (by omega) (by omega) (.inl (by decide)))]
  exact State.f_setF_same ..

theorem invFields_scope : (invFields s p v).f F.XLT_PW_INV_CTL_SCOPE p = v / 2 ^ 16 % 4 := by
  rw [invFields, State.f_setF_ne _ _ _ _ _ _ (Fld.key_ne _ _ p p (by omega) (by omega) (.inl (by decide))),
    State.f_setF_ne _ _ _ _ _ _ (Fld.key_ne _ _ p p (by omega) (by omega) (.inl (by decide)))]
  exact State.f_setF_same ..

theorem invFields_start : (invFields s p v).f F.XLT_PW_INV_START_START p = s.f F.XLT_PW_INV_START_START p := invFields_f hp (by omega) (by decide)

theorem invFields_length : (invFields s p v).f F.XLT_PW_INV_LEN_LENGTH p = s.f F.XLT_PW_INV_LEN_LENGTH p := invFields_f hp (by omega) (by decide)

theorem invFields_part : (invFields s p v).f F.XLT_CTX_PART (v % 1024) = s.f F.XLT_CTX_PART (v % 1024) := invFields_f hp (by omega) (by decide)

/-- The register judges the fields it has stored, which are those of the word written. -/
theorem invRefused_iff :
    let t := invFields s p v
    (t.f F.XLT_CTX_PART (t.f F.XLT_PW_INV_CTL_CTX p) ≠ p ∨ t.f F.XLT_PW_INV_CTL_SCOPE p = 3 ∨ (t.f F.XLT_PW_INV_CTL_SCOPE p = 2 ∧
      (t.f F.XLT_PW_INV_START_START p % 4096 ≠ 0 ∨ t.f F.XLT_PW_INV_LEN_LENGTH p % 4096 ≠ 0 ∨ t.f F.XLT_PW_INV_LEN_LENGTH p = 0))) ↔ InvRefused s p v := by
  simp only [InvRefused, invFields_ctx, invFields_scope hp, invFields_start hp, invFields_length hp, invFields_part hp]

section
variable (hbusy : s.fb F.XLT_PW_INV_CTL_BUSY p = false) (hgo : v / 2 ^ 63 % 2 = 1)
include hbusy hgo

theorem invCtlWrite_of_refused (h : InvRefused s p v) : invCtlWrite s p v = (invFields s p v).setF F.XLT_PW_INV_CTL_ERR p 1 := by
  have hgo' : ¬ v / 2 ^ 63 % 2 = 0 := by omega
  exact (if_neg (Bool.eq_false_iff.mp hbusy)).trans ((if_neg hgo').trans (if_pos ((invRefused_iff hp).mpr h)))

theorem invCtlWrite_of_taken (h : ¬ InvRefused s p v) : invCtlWrite s p v
    = addInval (((invFields s p v).setF F.XLT_PW_INV_CTL_ERR p 0).setF F.XLT_PW_INV_CTL_BUSY p 1) (v % 1024) (v / 2 ^ 16 % 4) (v / 2 ^ 10 % 64)
        (s.f F.XLT_PW_INV_START_START p) (s.f F.XLT_PW_INV_LEN_LENGTH p) none (some p) := by
  have hgo' : ¬ v / 2 ^ 63 % 2 = 0 := by omega
  refine (if_neg (Bool.eq_false_iff.mp hbusy)).trans ((if_neg hgo').trans ((if_neg (mt (invRefused_iff hp).mp h)).trans ?_))
  change addInval (((invFields s p v).setF F.XLT_PW_INV_CTL_ERR p 0).setF F.XLT_PW_INV_CTL_BUSY p 1) ((invFields s p v).f F.XLT_PW_INV_CTL_CTX p)
    ((invFields s p v).f F.XLT_PW_INV_CTL_SCOPE p) ((invFields s p v).f F.XLT_PW_INV_CTL_SEG p) ((invFields s p v).f F.XLT_PW_INV_START_START p)
    ((invFields s p v).f F.XLT_PW_INV_LEN_LENGTH p) none (some p) = _
  rw [invFields_ctx, invFields_scope hp, invFields_seg hp, invFields_start hp, invFields_length hp]

end

end

end

/-! ### The context moves to its next epoch (spec/10 R278, R282 steps 2 and 3) -/

/-- The epoch after the current one, of 32 bits. -/
def nextEpoch (s : State) (ctx : Nat) : Nat := (s.f F.XLT_CTX_EPOCH ctx + 1) % 4294967296

/-- What becomes of a cached entry: of another context it stays; of this one it goes when it is covered and else takes the new epoch. -/
def keptEntry (i : Inv) (rng : Option (Nat × Nat)) (ep : Nat) (t : Tlb) : Option Tlb :=
  if t.ctx ≠ i.ctx then some t else if invCovers i rng t then none else some { t with epoch := ep }

/-- The invalidation at step 3: it waits for the ports that hold translations of its context, and for the accesses of the old epoch. -/
def Inv.draining (s : State) (i : Inv) : Inv :=
  { i with step := 3, since := s.time, epoch := nextEpoch s i.ctx, ops := outTags s i.ctx,
           ports := (List.range s.b.eports).filter fun k => (mget [] s.xlt.held k).contains i.ctx }

section
variable {s : State} {i : Inv} {rng : Option (Nat × Nat)} {ep : Nat} {l : List Tlb} {x : Tlb}

/-- Covering does not look at the epoch of the entry. -/
theorem invCovers_epoch : invCovers i rng { x with epoch := ep } = invCovers i rng x := rfl

theorem mem_kept_of_ctx (h : x ∈ l.filterMap (keptEntry i rng ep)) (hx : x.ctx = i.ctx) : invCovers i rng x = false ∧ x.epoch = ep := by
  obtain ⟨y, -, hy⟩ := List.mem_filterMap.mp h
  unfold keptEntry at hy
  split at hy
  next hother => exact absurd (Option.some.inj hy ▸ hx) hother
  next =>
    split at hy
    · cases hy
    next hnot =>
      cases hy
      exact ⟨invCovers_epoch.trans (Bool.eq_false_iff.mpr hnot), rfl⟩

theorem mem_kept_of_ctx_ne (hx : x.ctx ≠ i.ctx) : x ∈ l.filterMap (keptEntry i rng ep) ↔ x ∈ l := by
  rw [List.mem_filterMap]
  constructor
  · rintro ⟨y, hy, hkept⟩
    unfold keptEntry at hkept
    split at hkept
    next => exact Option.some.inj hkept ▸ hy
    next hsame =>
      split at hkept
      · cases hkept
      · cases hkept
        exact absurd (Decidable.not_not.mp hsame) hx
  · exact fun h => ⟨x, h, if_pos hx⟩

/-- Messages that leave in a row change the outputs alone. -/
theorem foldl_emit {α : Type} (g : α → Out) (l : List α) (s : State) : l.foldl (fun s a => s.emit (g a)) s = { s with out := s.out ++ l.map g } := by
  induction l generalizing s with
  | nil => simp
  | cons a l ih =>
    rw [List.foldl_cons, ih]
    simp [State.emit]

/-- The descriptors of the context's queues are stale once its epoch wraps to 0; nothing else of the state is touched than the epoch and they. -/
theorem invStep2_eq : ∃ qs out, invStep2 s i rng = { s.setF F.XLT_CTX_EPOCH i.ctx (nextEpoch s i.ctx) with
    qs, out
    xlt := { s.xlt with
      stc := s.xlt.stc.filterMap (keptEntry i rng (nextEpoch s i.ctx))
      etb := s.xlt.etb.map fun e => (e.1, e.2.filter (·.ctx != i.ctx))
      invs := s.xlt.invs.map fun x => if x.id = i.id then i.draining s else x } } := by
  unfold invStep2
  simp only [foldl_emit]
  split <;> exact ⟨_, _, rfl⟩

/-- What steps 2 and 3 of an invalidation leave of a state. -/
structure EpochMoved (s t : State) (i : Inv) (rng : Option (Nat × Nat)) : Prop where
  epoch : t.f F.XLT_CTX_EPOCH i.ctx = nextEpoch s i.ctx
  f : ∀ (y : Fld) (j : Nat), y.key j ≠ F.XLT_CTX_EPOCH.key i.ctx → t.f y j = s.f y j
  cached : ∀ x ∈ t.xlt.stc, x.ctx = i.ctx → invCovers i rng x = false ∧ x.epoch = nextEpoch s i.ctx
  others : ∀ x, x.ctx ≠ i.ctx → (x ∈ t.xlt.stc ↔ x ∈ s.xlt.stc)
  buffers : ∀ b ∈ t.xlt.etb, ∀ x ∈ b.2, x.ctx ≠ i.ctx
  invs : t.xlt.invs = s.xlt.invs.map fun x => if x.id = i.id then i.draining s else x
  gal : t.gal = s.gal
  cmds : t.cmds = s.cmds

theorem epochMoved_invStep2 (s : State) (i : Inv) (rng : Option (Nat × Nat)) : EpochMoved s (invStep2 s i rng) i rng := by
  obtain ⟨qs, out, heq⟩ := invStep2_eq (s := s) (i := i) (rng := rng)
  rw [heq]
  exact
    { epoch := (State.f_setF_same ..).trans (Nat.mod_mod ..)
      f := fun y j hy => State.f_setF_ne s _ _ _ _ _ hy
      cached := fun x => mem_kept_of_ctx
      others := fun x => mem_kept_of_ctx_ne
      buffers := by
        intro b hb x hx
        obtain ⟨e, -, rfl⟩ := List.mem_map.mp hb
        simpa using (List.mem_filter.mp hx).2
      invs := rfl
      gal := rfl
      cmds := rfl }

end

/-! ### An invalidation begins (spec/10 R282, R509) -/

/-- The invalidations in progress. -/
def begunInvs (s : State) : List Inv := s.xlt.invs.filter fun x => x.step != 0

/-- The first waiting invalidation of a context that has none in progress. -/
def nextInv (s : State) : Option Inv := s.xlt.invs.find? fun x => x.step == 0 && !(begunInvs s).any fun w => w.ctx == x.ctx

/-- Step 1: the context drains, and one more invalidation is active. -/
def invActive (s : State) (i : Inv) : State := (s.setF F.XLT_CTX_DRAINING i.ctx 1).incF F.XLT_STAT_INVACTIVE 0

/-- The read of the segment's entry. -/
def segmentRead (s : State) (i : Inv) : Op :=
  mkOp (.invSeg i.id) ⟨s.f F.XLT_CTX_PART i.ctx, some i.ctx, false⟩ 112 (.spans [⟨0, 32, s.f F.XLT_CTX_SEGBASE i.ctx * 4096 + 32 * i.seg, .mem false 0⟩]) 0 32 false []

/-- One of a segment first reads the segment's entry; any other goes on to steps 2 and 3. -/
def beginInv (s : State) (i : Inv) : State :=
  if i.scope = 1 then (setInv (invActive s i) { i with step := 2 }).startOp (segmentRead (invActive s i) i) else invStep2 (invActive s i) i none

section
variable {s t : State} {i : Inv}

theorem exec_invalidationBegin (h : invBegin s.clear = t) : exec .invalidationBegin s = .next (s.close t) := by
  rw [← h]; rfl

theorem invBegin_eq : invBegin s = if s.ctlOn = false ∨ 16 ≤ (begunInvs s).length ∨ s.halted then s else (nextInv s).elim s (beginInv s) := by
  have hnext (o : Option Inv) : (match o with
    | none => s
    | some i => beginInv s i) = o.elim s (beginInv s) := by cases o <;> rfl
  exact congrArg (ite _ s) (hnext (nextInv s))

theorem invBegin_of_none (h : 16 ≤ (begunInvs s).length ∨ nextInv s = none) : invBegin s = s := by
  rw [invBegin_eq]
  obtain hfull | hnone := h
  · exact if_pos (.inr (.inl hfull))
  · rw [hnone]
    exact ite_self s

theorem invBegin_of_next (hctl : s.ctlOn = true) (hhalt : s.halted = false) (hroom : (begunInvs s).length < 16) (hnext : nextInv s = some i) :
    invBegin s = beginInv s i := by
  rw [invBegin_eq, if_neg (by simp [hctl, hhalt, Nat.not_le.mpr hroom]), hnext]
  rfl

/-- The fields of contexts lie above XLT_STAT.INVACTIVE. -/
theorem invActive_f {y : Fld} (hn : F.XLT_STAT_INVACTIVE.n < y.n) (hy : y.n ≠ F.XLT_CTX_DRAINING.n) : (invActive s i).f y i.ctx = s.f y i.ctx := by
  have hactive : y.key i.ctx ≠ F.XLT_STAT_INVACTIVE.key 0 := by simp only [Fld.key]; omega
  have hdrain : y.key i.ctx ≠ F.XLT_CTX_DRAINING.key i.ctx := by simp only [Fld.key]; omega
  rw [invActive, State.incF, State.f_setF_ne _ _ _ _ _ _ hactive, State.f_setF_ne _ _ _ _ _ _ hdrain]

theorem invActive_draining : (invActive s i).f F.XLT_CTX_DRAINING i.ctx = 1 := by
  have hactive : F.XLT_CTX_DRAINING.key i.ctx ≠ F.XLT_STAT_INVACTIVE.key 0 := by simp only [Fld.key, F.XLT_CTX_DRAINING, F.XLT_STAT_INVACTIVE]; omega
  rw [invActive, State.incF, State.f_setF_ne _ _ _ _ _ _ hactive]
  exact State.f_setF_same ..

theorem beginInv_segment (h : i.scope = 1) : beginInv s i = (setInv (invActive s i) { i with step := 2 }).startOp (segmentRead s i) := by
  have hread : segmentRead (invActive s i) i = segmentRead s i := by
    rw [segmentRead, segmentRead, invActive_f (by decide) (by decide), invActive_f (by decide) (by decide)]
  rw [beginInv, if_pos h, hread]

/-- Step 1 leaves what steps 2 and 3 look at. -/
theorem epochMoved_beginInv (h : i.scope ≠ 1) : EpochMoved (invActive s i) (beginInv s i) i none := by
  rw [beginInv, if_neg h]
  exact epochMoved_invStep2 ..

theorem nextEpoch_invActive : nextEpoch (invActive s i) i.ctx = nextEpoch s i.ctx := by
  rw [nextEpoch, nextEpoch, invActive_f (by decide) (by decide)]

theorem draining_invActive : i.draining (invActive s i) = i.draining s := by
  rw [Inv.draining, nextEpoch_invActive]
  rfl

theorem beginInv_draining (h : i.scope ≠ 1) : (beginInv s i).f F.XLT_CTX_DRAINING i.ctx = 1 :=
  ((epochMoved_beginInv h).f _ _ (by simp only [Fld.key, F.XLT_CTX_DRAINING, F.XLT_CTX_EPOCH]; omega)).trans invActive_draining

end

/-! ### An engine reports drained (spec/10 R282 step 4) -/

/-- The invalidation waits for port `k` to drain the context of that epoch. -/
def awaitsPort (k ctx ep : Nat) (x : Inv) : Bool := x.ctx == ctx && x.step == 3 && x.epoch == ep && x.ports.contains k

section
variable {s t : State} {k ctx ep : Nat}

theorem exec_drained (h : drained s.clear k ctx ep = t) : exec (.drained k ctx ep) s = .next (s.close t) := by
  rw [← h]; rfl

theorem drained_of_awaited (hctl : s.ctlOn = true) (hk : k < s.b.eports) (h : s.xlt.invs.any (awaitsPort k ctx ep) = true) :
    drained s k ctx ep = { s with xlt := { s.xlt with
      held := mset s.xlt.held k ((mget [] s.xlt.held k).filter (· != ctx))
      invs := s.xlt.invs.map fun x => if awaitsPort k ctx ep x then { x with ports := x.ports.filter (· != k) } else x } } :=
  (if_neg (by simp [hctl, Nat.not_le.mpr hk])).trans (if_pos h)

theorem drained_of_not_awaited (h : s.xlt.invs.any (awaitsPort k ctx ep) = false) : drained s k ctx ep = s :=
  (congrArg (ite _ s) (if_neg (Bool.eq_false_iff.mp h))).trans (ite_self s)

end

/-! ### The end of an invalidation, and a port that does not drain (spec/10 R282 step 6, R284) -/

/-- The context drains no more, and what rests on its translations makes them again. -/
def invEnded (s : State) (id : Nat) (i : Inv) : State :=
  let y : State := (s.setF F.XLT_CTX_DRAINING i.ctx 0).setF F.XLT_STAT_INVACTIVE 0 (s.f F.XLT_STAT_INVACTIVE - 1)
  retranslateWatches (retranslateRings { y with xlt := { s.xlt with invs := s.xlt.invs.filter (·.id != id) } } i.ctx) i.ctx

/-- The port has not drained within the limit, and its engine is not being reset yet. -/
def PortLate (s : State) (i : Inv) (k : Nat) : Prop :=
  i.step = 3 ∧ i.ports.contains k = true ∧ i.since + max 1 (s.f F.XLT_INVCFG_ELIMIT) * 1000 ≤ s.time ∧ s.sch.resets.any (fun e => e.1 == k) = false

/-- The port is reported, and its engine reset. -/
def portReported (s : State) (k : Nat) : State :=
  resetEngine (((s.raise (hwFault 5 3 k true none 0)).setF F.XLT_ERR_CAUSE 0 2).setF F.XLT_ERR_WHERE 0 k) k

section
variable {s t : State} {i : Inv} {id k p : Nat}

theorem exec_elimitExpiry (h : elimitExpiry s.clear id k = t) : exec (.elimitExpiry id k) s = .next (s.close t) := by
  rw [← h]; rfl

theorem portReported_units : (portReported s k).units = s.units := rfl

section
variable (hfind : s.xlt.invs.find? (·.id == id) = some i)
include hfind

theorem exec_invalidationComplete :
    exec (.invalidationComplete id) s = .next (s.close (if invReady s i then invComplete s.clear id else s.clear)) := by
  change Host.Outcome.next (s.close (match s.xlt.invs.find? (·.id == id) with
    | some v => if invReady s v then invComplete s.clear id else s.clear
    | none => s.clear)) = _
  rw [hfind]

section
variable (hctl : s.ctlOn = true) (hready : invReady s i = true)
include hctl hready

theorem invComplete_of_window (hcmd : i.cmd = none) (hpw : i.pw = some p) :
    invComplete s id = ((invEnded s id i).setF F.XLT_PW_INV_CTL_BUSY p 0).incF F.XLT_PW_INV_DONE_COUNT p := by
  simp only [invComplete, hfind, hctl, hready, hcmd, hpw, Bool.true_eq_false, or_self, if_false]
  rfl

theorem invComplete_of_command (hcmd : i.cmd = some p) (hpw : i.pw = none) : invComplete s id = endCmd (invEnded s id i) p .done := by
  simp only [invComplete, hfind, hctl, hready, hcmd, hpw, Bool.true_eq_false, or_self, if_false]
  rfl

end

theorem elimitExpiry_of_late (hctl : s.ctlOn = true) (h : PortLate s i k) :
    elimitExpiry s id k = (s.units.find? fun u => onPort k u.place).elim (portReported s k) fun u => unitEnd (settleUnit (portReported s k) u) u .engineError := by
  obtain ⟨hstep, hport, htime, hreset⟩ := h
  have hgo : ¬ (i.step ≠ 3 ∨ i.ports.contains k = false ∨ s.time < i.since + max 1 (s.f F.XLT_INVCFG_ELIMIT) * 1000 ∨ s.ctlOn = false
      ∨ s.sch.resets.any (fun e => e.1 == k)) := by
    rw [hport, hctl, hreset]
    simp [hstep, Nat.not_lt.mpr htime]
  simp only [elimitExpiry, hfind, if_neg hgo]
  change (match (portReported s k).units.find? fun u => onPort k u.place with
    | some u => unitEnd (settleUnit (portReported s k) u) u .engineError
    | none => portReported s k) = _
  rw [portReported_units]
  cases s.units.find? fun u => onPort k u.place <;> rfl

theorem elimitExpiry_of_not_late (h : ¬ PortLate s i k) : elimitExpiry s id k = s := by
  have hstay : i.step ≠ 3 ∨ i.ports.contains k = false ∨ s.time < i.since + max 1 (s.f F.XLT_INVCFG_ELIMIT) * 1000 ∨ s.ctlOn = false
      ∨ s.sch.resets.any (fun e => e.1 == k) := by
    refine Decidable.byContradiction fun hall => ?_
    simp only [not_or, Decidable.not_not, Bool.not_eq_false, Bool.not_eq_true, Nat.not_lt] at hall
    obtain ⟨hstep, hport, htime, -, hreset⟩ := hall
    exact h ⟨hstep, hport, htime, hreset⟩
  simp only [elimitExpiry, hfind, if_pos hstay]

end

end

/-! ### Page faults (spec/10 R286 to R288) -/

section
variable {s t : State} {p q v : Nat} {o : Op}

theorem exec_pageFault (h : pageFault s.clear = t) : exec .pageFault s = .next (s.close t) := by
  rw [← h]; rfl

theorem pageFault_of_none (h : s.ops.find? isPageFault = none) : pageFault s = s := by
  rw [pageFault, h]

theorem pageFault_of_oldest (h : s.ops.find? isPageFault = some o) : pageFault s = endOp s o := by
  rw [pageFault, h]

/-! #### RETRY and FAIL (spec/10 R287) -/

/-- What the window's register does for one ACTION, unless a replay run makes the inputs of the queue (spec/17 R462). -/
def resumed (s : State) (p v act : Nat) : State := if v / 2 ^ 62 % 4 = act ∧ inputsReplayed s (v % 4096) = false then resumeWrite s p v else s

/-- The letterbook notes the write (spec/17 R456). -/
def resumeNoted (s : State) (p v : Nat) : State := hostWr s none (0x1000000 + p * 65536 + 0xF300) v

/-- A command that an earlier one of the queue has not ended fails. -/
def failStanding (s : State) (c : Cmd) : State := match s.cmd? c.id with
  | some c => failCmd s c
  | none => s

theorem exec_retry (hr : HostReady s) (he : Enabled s p) (h : resumed s.clear p v 1 = t) : exec (.retry p v) s = .next (s.close t.ok) := by
  have hrun : exec (.retry p v) s = .next (s.close (windowCmd s.clear p 0xF300 false fun s => resumed s p v 1)) := rfl
  rw [hrun, windowCmd_enabled hr he, h]

theorem exec_fail (hr : HostReady s) (he : Enabled s p) (h : resumed s.clear p v 2 = t) : exec (.fail p v) s = .next (s.close t.ok) := by
  have hrun : exec (.fail p v) s = .next (s.close (windowCmd s.clear p 0xF300 false fun s => resumed s p v 2)) := rfl
  rw [hrun, windowCmd_enabled hr he, h]

theorem resumed_of_other_action {act : Nat} (h : v / 2 ^ 62 % 4 ≠ act) : resumed s p v act = s := if_neg fun hand => h hand.1

/-- A queue of another partition, or one whose inputs a replay run makes. -/
theorem resumed_of_other_queue {act : Nat} (h : s.qPart (v % 4096) ≠ p ∨ inputsReplayed s (v % 4096) = true) : resumed s p v act = s := by
  obtain hpart | hreplay := h
  · have hkeep : resumeWrite s p v = s := if_pos (.inl hpart)
    rw [resumed, hkeep, ite_self]
  · exact if_neg fun hand => absurd (hreplay.symm.trans hand.2) (by decide)

theorem asides_resumeNoted : asides (resumeNoted s p v) q = asides s q := by
  simp only [asides, resumeNoted, (noted_hostWr ..).cmds]

theorem q_resumeNoted : (resumeNoted s p v).q q = s.q q := q_of_qs (noted_hostWr ..).qs q

section
variable (hpart : s.qPart (v % 4096) = p) (hok : hostOk s = true) (hreplay : inputsReplayed s (v % 4096) = false)
include hpart hok

/-- The register notes the write and then does what its ACTION says. -/
theorem resumeWrite_runs : ¬ (s.qPart (v % 4096) ≠ p ∨ s.ctlOn = false ∨ s.flt.halt ≠ 0) := by
  simp only [hostOk, Bool.and_eq_true, beq_iff_eq] at hok
  simp [hpart, hok]

include hreplay

theorem resumed_retry (hact : v / 2 ^ 62 % 4 = 1) :
    let r := (asides s (v % 4096)).foldl retryCmd (resumeNoted s p v)
    resumed s p v 1 = if (s.q (v % 4096)).asideFetch.isSome then retryFetch r (v % 4096) else r := by
  have hgo := resumeWrite_runs hpart hok
  rw [← asides_resumeNoted (p := p) (v := v), ← q_resumeNoted (s := s) (p := p) (v := v)]
  exact (if_pos ⟨hact, hreplay⟩).trans ((if_neg hgo).trans (if_pos hact))

theorem resumed_fail (hact : v / 2 ^ 62 % 4 = 2) :
    let f := (asides s (v % 4096)).foldl failStanding (resumeNoted s p v)
    resumed s p v 2 = if (s.q (v % 4096)).asideFetch.isSome then failFetch f (v % 4096) else f := by
  have hgo := resumeWrite_runs hpart hok
  have hnot : ¬ v / 2 ^ 62 % 4 = 1 := by omega
  rw [← asides_resumeNoted (p := p) (v := v), ← q_resumeNoted (s := s) (p := p) (v := v)]
  exact (if_pos ⟨hact, hreplay⟩).trans ((if_neg hgo).trans ((if_neg hnot).trans (if_pos hact)))

end

/-! #### The limit of what is set aside (spec/10 R288) -/

/-- The limit in nanoseconds. -/
def asideLimit (s : State) : Nat := s.f F.XLT_PFCFG_LIMIT * 1000000

/-- A command that has been set aside for the limit fails. -/
def failLate (lim : Nat) (s : State) (c : Cmd) : State := match c.st with
  | .aside t => if t + lim ≤ s.time then failCmd s c else s
  | _ => s

/-- The commands of the queue that have been set aside for the limit fail. -/
def lateFailed (s : State) (q : Nat) : State := (asides s q).foldl (failLate (asideLimit s)) s

theorem exec_setAsideLimitExpiry (h : asideExpiry s.clear q = t) : exec (.setAsideLimitExpiry q) s = .next (s.close t) := by
  rw [← h]; rfl

theorem asideExpiry_without_limit (h : asideLimit s = 0) : asideExpiry s q = s := if_pos (.inl h)

section
variable (hctl : s.ctlOn = true) (hlim : asideLimit s ≠ 0)
include hctl hlim

/-- The fetch is judged after the commands. -/
theorem asideExpiry_of_limit : asideExpiry s q = match ((lateFailed s q).q q).asideFetch with
    | some t => if t + asideLimit s ≤ (lateFailed s q).time then failFetch (lateFailed s q) q else lateFailed s q
    | none => lateFailed s q :=
  if_neg (show ¬ (asideLimit s = 0 ∨ s.ctlOn = false) by simp [hlim, hctl])

theorem asideExpiry_of_commands (h : ((lateFailed s q).q q).asideFetch = none) : asideExpiry s q = lateFailed s q := by
  rw [asideExpiry_of_limit hctl hlim, h]

theorem asideExpiry_of_fetch {t : Nat} (h : ((lateFailed s q).q q).asideFetch = some t) :
    asideExpiry s q = if t + asideLimit s ≤ (lateFailed s q).time then failFetch (lateFailed s q) q else lateFailed s q := by
  rw [asideExpiry_of_limit hctl hlim, h]

end

end

/-! ### The clauses -/

/-- Settles O35: each row runs its operation, and each clause names the branch that the operation takes. -/
theorem invalidationsDrainAndPageFaultsResume : Obligations.InvalidationsDrainAndPageFaultsResume := by
  constructor
  · intro s p v k ctx ep id i
    refine ⟨?go, ?begin, ?drained, ?ends⟩
    case go =>
      intro hr he hok
      refine ⟨fun hbusy => exec_invalidationGo hr he hok (invCtlWrite_of_busy (s := s.clear) hbusy), fun hbusy hgo => ⟨fun hbad => ?_, fun hgood => ?_⟩⟩
      · exact exec_invalidationGo hr he hok (invCtlWrite_of_refused (s := s.clear) he.1 hbusy hgo hbad)
      · exact exec_invalidationGo hr he hok (invCtlWrite_of_taken (s := s.clear) he.1 hbusy hgo hgood)
    case begin =>
      intro hctl hhalt
      refine ⟨fun h => exec_invalidationBegin (invBegin_of_none (s := s.clear) h), fun hroom hnext hscope => ?_, fun hroom hnext hscope => ?_⟩
      · have hbegin := invBegin_of_next (s := s.clear) hctl hhalt hroom hnext
        obtain ⟨hepoch, -, hcached, hothers, hbuffers, hinvs, hgal, hcmds⟩ := epochMoved_beginInv (s := s.clear) hscope
        rw [nextEpoch_invActive] at hepoch hcached
        rw [draining_invActive] at hinvs
        exact ⟨_, exec_invalidationBegin hbegin, beginInv_draining hscope, hepoch, hcached, hothers, hbuffers, hinvs, hgal, hcmds⟩
      · exact exec_invalidationBegin ((invBegin_of_next (s := s.clear) hctl hhalt hroom hnext).trans (beginInv_segment hscope))
    case drained =>
      exact fun hctl hk => ⟨fun h => exec_drained (drained_of_awaited (s := s.clear) hctl hk h), fun h => exec_drained (drained_of_not_awaited (s := s.clear) h)⟩
    case ends =>
      intro hctl hfind
      have hexec := exec_invalidationComplete hfind
      refine ⟨fun hready hcmd hpw => ?_, fun hready hcmd hpw => ?_, fun hwait => ?_, fun hlate hnone => ?_, fun u hlate hu => ?_,
        fun h => exec_elimitExpiry (elimitExpiry_of_not_late (s := s.clear) hfind h)⟩
      · rw [hexec, if_pos hready, invComplete_of_window (s := s.clear) hfind hctl hready hcmd hpw]
        rfl
      · rw [hexec, if_pos hready, invComplete_of_command (s := s.clear) hfind hctl hready hcmd hpw]
        rfl
      · rw [hexec, if_neg (Bool.eq_false_iff.mp hwait)]
      · exact exec_elimitExpiry ((elimitExpiry_of_late (s := s.clear) hfind hctl hlate).trans (congrArg (Option.elim · _ _) hnone))
      · exact exec_elimitExpiry ((elimitExpiry_of_late (s := s.clear) hfind hctl hlate).trans (congrArg (Option.elim · _ _) hu))
  · intro s p v o
    refine ⟨fun h => exec_pageFault (pageFault_of_oldest (s := s.clear) h), fun h => exec_pageFault (pageFault_of_none (s := s.clear) h), ?resume, ?limit⟩
    case resume =>
      intro hr he hok
      refine ⟨fun h => ⟨exec_retry hr he (resumed_of_other_queue (s := s.clear) h), exec_fail hr he (resumed_of_other_queue (s := s.clear) h)⟩,
        fun h => exec_retry hr he (resumed_of_other_action h), fun h => exec_fail hr he (resumed_of_other_action h), fun hpart hreplay hact => ?_,
        fun hpart hreplay hact => ?_⟩
      · exact exec_retry hr he (resumed_retry (s := s.clear) hpart hok hreplay hact)
      · exact exec_fail hr he (resumed_fail (s := s.clear) hpart hok hreplay hact)
    case limit =>
      intro hctl
      exact ⟨fun hlim hnone => exec_setAsideLimitExpiry (asideExpiry_of_commands (s := s.clear) hctl hlim hnone),
        fun t hlim ht => exec_setAsideLimitExpiry (asideExpiry_of_fetch (s := s.clear) hctl hlim ht),
        fun hlim => exec_setAsideLimitExpiry (asideExpiry_without_limit (s := s.clear) hlim)⟩

end Sys2Proof.Machine
end

section
/-! SUPPORT. The link that O36 is refuted by: its state lies at the sequence number of the letterbook (spec/11 R301, spec/17 R455, R456). -/

namespace Sys2Proof.Machine

/-! ### A link whose state counts the letterbook's records

O36 says that a link which leaves UP, or any other state, for a state `d` shows `d` afterwards. The model writes the state and then records the change of the
link in the letterbook, as a firmware event (spec/17 R456), which adds 1 to OBS_LB_SEQ. The statement is of every state and every link of its build, which
need not be a permitted one: at `farLink` the key of FAB_LSTAT.STATE is the key of OBS_LB_SEQ.SEQ, so the record of the change is a write of the state. -/

/-- A link past the six of a permitted build, whose FAB_LSTAT.STATE is OBS_LB_SEQ.SEQ. -/
def farLink : Nat := 276 * 65536

theorem lstat_farLink (s : State) : s.f F.FAB_LSTAT_STATE farLink = s.f F.OBS_LB_SEQ_SEQ := rfl

/-- A build with that link, DOWN, in which the letterbook records events of no partition and no request is out. -/
def farLinks : State :=
  { State.init ⟨16, 32, 4, 0, false⟩ false with
    b := ⟨16, 32, 4, farLink + 1, false⟩
    flds := [(F.OBS_LB_CFG_GMODE.key 0, 1)] }

/-- The link is to be DOWN, and its record makes it another state. -/
theorem leaveUp_farLink_state : (leaveUp farLinks farLink 0 0).f F.FAB_LSTAT_STATE farLink = 1 :=
  (lstat_farLink _).trans (by decide)

/-- Refutes O36: a link of a build with more links than a register array has elements leaves for DOWN, and the letterbook's record of it, a write of
OBS_LB_SEQ.SEQ, leaves its state at 1. -/
theorem not_linksChangeState : ¬ Obligations.LinksChangeState := by
  intro h
  obtain ⟨-, -, -, -, -, -, -, -, -, hleaves, -⟩ := h farLinks farLink 0 0 (by decide)
  obtain ⟨hstate, -, -⟩ := hleaves 0 0 (by decide)
  exact absurd (leaveUp_farLink_state.symm.trans hstate) (by decide)

end Sys2Proof.Machine
end

section
/-! SUPPORT. Messages that arrive on a link: those for this chip are carried out, the others forwarded or discarded (spec/11 R294, R299, R300, R304 to R308). -/

namespace Sys2Proof.Machine

/-! ### A number in its bytes (spec/00 R15) -/

theorem toBytes_succ (n v : Nat) : toBytes (n + 1) v = BitVec.ofNat 8 v :: toBytes n (v / 256) := by
  simp only [toBytes, List.range_succ_eq_map, List.map_cons, List.map_map, Nat.pow_zero, Nat.div_one, List.cons.injEq, true_and]
  refine List.map_congr_left fun i _ => ?_
  rw [Function.comp_apply, Nat.pow_succ', Nat.div_div_eq_div_mul]

theorem ofBytes_toBytes (n v : Nat) : ofBytes (toBytes n v) = v % 256 ^ n := by
  induction n generalizing v with
  | zero => exact (Nat.mod_one v).symm
  | succ n ih => rw [toBytes_succ, ofBytes, ih, BitVec.toNat_ofNat, Nat.pow_succ' (n := n), Nat.mod_mul]

/-- A word is read back from its eight bytes. -/
theorem wordsOf_toBytes (v : W64) : wordsOf 1 (toBytes 8 v.toNat) = [v] := by
  have htake : (toBytes 8 v.toNat).take 8 = toBytes 8 v.toNat := List.take_of_length_le (by simp [toBytes])
  have hmod : v.toNat % 256 ^ 8 = v.toNat := Nat.mod_eq_of_lt v.isLt
  rw [wordsOf, wordsOf, htake, ofBytes_toBytes, hmod, BitVec.ofNat_toNat, BitVec.setWidth_eq]

/-! ### A message that arrives (spec/11 R294, R299, spec/17 R456) -/

/-- The rows of the routed messages, each with the message it brings. -/
def linkRows (l : Nat) (h a v w1 : W64) (data : List Byte) : List (Sys2Proof.Instr × LMsg) :=
  [(.mrd l h a, msgOf 1 h a []), (.mwr l h a data, msgOf 2 h a data), (.phsig l h a v, msgOf 4 h a (toBytes 8 v.toNat)),
    (.coll l h a data, msgOf 5 h a data), (.cbrk l h a, msgOf 6 h a []), (.rdata l h w1 data, msgOf 0x10 h w1 data), (.wack l h w1, msgOf 0x11 h w1 [])]

/-- A message for this chip has left the receive buffer with its credits, and the letterbook has noted it. -/
def received (s : State) (l : Nat) (m : LMsg) : State :=
  (s.returnCredits l m).note (some m.part) true 0x12 none (m.mtype * 2 ^ 58 + m.src * 2 ^ 54 + l * 2 ^ 51 + m.tag) m.addr

section
variable {s t : State} {l : Nat} {m : LMsg}

theorem exec_of_mem_linkRows {h a v w1 : W64} {data : List Byte} {x : Sys2Proof.Instr × LMsg} (hx : x ∈ linkRows l h a v w1 data)
    (ht : arrive s.clear l x.2 = t) : exec x.1 s = .next (s.close t) := by
  subst ht
  simp only [linkRows, List.mem_cons, List.not_mem_nil, or_false] at hx
  obtain rfl | rfl | rfl | rfl | rfl | rfl | rfl := hx <;> rfl

/-- Only the credits to return change with the buffer. -/
theorem returnCredits_eq (s : State) (l : Nat) (m : LMsg) : ∃ r, s.returnCredits l m = { s with lret := r } := by
  by_cases hup : s.linkUp l = true
  · exact ⟨_, if_pos hup⟩
  · exact ⟨s.lret, if_neg hup⟩

theorem noted_received : Noted (s.returnCredits l m) (received s l m) := noted_note ..

theorem received_frame (s : State) (l : Nat) (m : LMsg) : (received s l m).ops = s.ops ∧ (received s l m).lreqs = s.lreqs ∧ (received s l m).lsigs = s.lsigs ∧
    (received s l m).f F.FAB_MEMIN_CHIPS = s.f F.FAB_MEMIN_CHIPS := by
  have hnoted := noted_received (s := s) (l := l) (m := m)
  obtain ⟨r, hr⟩ := returnCredits_eq s l m
  rw [hr] at hnoted
  exact ⟨hnoted.ops, hnoted.lreqs, hnoted.lsigs, hnoted.f _ _ (by decide)⟩

theorem arrive_of_link_off (hup : s.linkUp l = false) : arrive s l m = s := if_pos (.inr (.inl hup))

section
variable (hl : l < s.b.links) (hup : s.linkUp l = true) (hhalt : s.flt.halt < 4) (hrst : s.rst = 0)
include hl hup hhalt hrst

/-- A link that is UP takes a message unless the fabric halts or is in reset. -/
theorem link_takes : ¬ (s.b.links ≤ l ∨ s.linkUp l = false ∨ s.flt.halt ≥ 4 ∨ s.rst ≠ 0) := by
  simp [hl, hup, hhalt, hrst]

theorem arrive_foreign (hdst : m.dst ≠ s.chip) : arrive s l m = forward s l m :=
  (if_neg (link_takes hl hup hhalt hrst)).trans (if_pos hdst)

section
variable (hdst : m.dst = s.chip)
include hdst

theorem arrive_request (htype : m.mtype = 1 ∨ m.mtype = 2) : arrive s l m = remoteAccess (received s l m) l m := by
  rw [arrive, if_neg (link_takes hl hup hhalt hrst), if_neg (not_not_intro hdst)]
  obtain h | h := htype <;> simp only [h, received]

theorem arrive_collective (htype : m.mtype = 5 ∨ m.mtype = 6) : arrive s l m = collArrive (received s l m) m := by
  rw [arrive, if_neg (link_takes hl hup hhalt hrst), if_neg (not_not_intro hdst)]
  obtain h | h := htype <;> simp only [h, received]

theorem arrive_response (htype : m.mtype = 0x10 ∨ m.mtype = 0x11) : arrive s l m = response (received s l m) m := by
  rw [arrive, if_neg (link_takes hl hup hhalt hrst), if_neg (not_not_intro hdst)]
  obtain h | h := htype <;> simp only [h, received]

end

end

/-! ### A message for another chip (spec/11 R294, R299, R304) -/

theorem forward_discarded (h : m.hops = 7 ∨ s.linkRev1 l = true) :
    forward s l m = respond (((s.returnCredits l m).setF F.FAB_ERR_CAUSE 0 6).setF F.FAB_ERR_WHERE 0 l) m .xlateFault [] := if_pos h

section
variable (hhops : m.hops ≠ 7) (hrev : s.linkRev1 l = false)
include hhops hrev

theorem forward_waits (h : heldUnits s l m.isRsp + m.units ≤ 1024) :
    forward s l m = State.pumpL { s with lout := s.lout ++ [({ m with hops := m.hops + 1 }, some l)] } :=
  (if_neg (by simp [hhops, hrev])).trans (if_neg (Nat.not_lt.mpr h))

theorem forward_lost (h : 1024 < heldUnits s l m.isRsp + m.units) : forward s l m = s :=
  (if_neg (by simp [hhops, hrev])).trans (if_pos h)

end

/-! ### A request of another chip (spec/11 R306, R307) -/

/-- The access that a request becomes, in a space at an address. -/
def requestOp (l : Nat) (m : LMsg) (sp : ASpace) (addr : Nat) : Op :=
  mkOp (if m.mtype == 2 then .linkWrite l m.src m.tag else .linkRead l m.src m.tag) ⟨m.part, some m.ctx, false⟩ (114 + l) sp addr (m.len + 1) (m.mtype == 2) m.data

theorem remoteAccess_in_aperture (h : inAperture m.addr = true) :
    remoteAccess s l m = s.startOp (requestOp l m .gal (m.addr % 2 ^ 29)) := if_pos h

section
variable (hout : inAperture m.addr = false)
include hout

theorem remoteAccess_refused (h : (s.f F.FAB_MEMIN_CHIPS).testBit m.src = false) : remoteAccess s l m = respond s m .xlateFault [] :=
  (if_neg (Bool.eq_false_iff.mp hout)).trans (if_pos h)

theorem remoteAccess_admitted (h : (s.f F.FAB_MEMIN_CHIPS).testBit m.src = true) :
    remoteAccess s l m = s.freeW.2.startOp (requestOp l m (.spans [⟨0, m.len + 1, m.addr, .mem m.sec (s.freeW.1.toNat % 16)⟩]) 0) :=
  (if_neg (Bool.eq_false_iff.mp hout)).trans (if_neg (by rw [h]; decide))

end

/-! ### A link signal (spec/11 R300) -/

/-- The access writes for a request of a chip. -/
def writesFor (src : Nat) : Purpose → Bool
  | .linkWrite _ c _ => c == src
  | _ => false

/-- The writes of a chip that are under way. -/
def writesOf (s : State) (src : Nat) : List Nat := (s.ops.filter fun o => writesFor src o.pur).map (·.id)

theorem lsigSettle_of_one {x : LSig} (h : s.lsigs = [x]) :
    lsigSettle s = if x.waits.any (fun i => (s.op? i).isSome) then s else linkSignal { s with lsigs := [] } x.src x.addr x.value := by
  simp [lsigSettle, h]

theorem op?_isSome_of_mem_writesOf {src i : Nat} (h : i ∈ writesOf s src) : (s.op? i).isSome = true := by
  obtain ⟨o, ho, rfl⟩ := List.mem_map.mp h
  exact List.find?_isSome.mpr ⟨o, (List.mem_filter.mp ho).1, by simp⟩

section
variable (hl : l < s.b.links) (hup : s.linkUp l = true) (hhalt : s.flt.halt < 4) (hrst : s.rst = 0) (hdst : m.dst = s.chip) (htype : m.mtype = 4)
include hl hup hhalt hrst hdst htype

theorem arrive_signal : arrive s l m = lsigSettle { received s l m with
    lsigs := (received s l m).lsigs ++ [⟨m.src, m.addr, (wordsOf 1 m.data).headD 0, writesOf (received s l m) m.src⟩] } := by
  rw [arrive, if_neg (link_takes hl hup hhalt hrst), if_neg (not_not_intro hdst)]
  simp only [htype]
  rw [received, htype]
  rfl

variable {v : W64} (hdata : m.data = toBytes 8 v.toNat) (hnone : s.lsigs = [])
include hdata hnone

/-- Where no signal waits, one that comes settles alone. -/
theorem arrive_only_signal : arrive s l m =
    let x : LSig := ⟨m.src, m.addr, v, writesOf s m.src⟩
    let y : State := { received s l m with lsigs := [x] }
    if x.waits.any (fun i => (s.op? i).isSome) then y else linkSignal { y with lsigs := [] } m.src m.addr v := by
  obtain ⟨hops, -, hsigs, -⟩ := received_frame s l m
  have hwrites : writesOf (received s l m) m.src = writesOf s m.src := by rw [writesOf, hops, writesOf]
  have hop (i : Nat) : (received s l m).op? i = s.op? i := by rw [State.op?, hops, State.op?]
  rw [arrive_signal hl hup hhalt hrst hdst htype, hsigs, hnone, hdata, wordsOf_toBytes, hwrites, List.nil_append, List.headD_cons, lsigSettle_of_one rfl]
  simp only [← hop]
  rfl

theorem arrive_signal_of_no_writes (h : writesOf s m.src = []) : arrive s l m = linkSignal { received s l m with lsigs := [] } m.src m.addr v := by
  rw [arrive_only_signal hl hup hhalt hrst hdst htype hdata hnone, h]
  rfl

theorem arrive_signal_of_writes (h : writesOf s m.src ≠ []) :
    arrive s l m = { received s l m with lsigs := [⟨m.src, m.addr, v, writesOf s m.src⟩] } := by
  obtain ⟨i, hi⟩ := List.exists_mem_of_ne_nil _ h
  rw [arrive_only_signal hl hup hhalt hrst hdst htype hdata hnone]
  exact if_pos (List.any_eq_true.mpr ⟨i, hi, op?_isSome_of_mem_writesOf hi⟩)

end

/-! ### A response (spec/11 R308) -/

theorem getD_ofCode_eq_xlateFault_iff {n : Nat} : (Status.ofCode n).getD .uncorrected = .xlateFault ↔ n = Status.xlateFault.code := by
  unfold Status.ofCode
  split <;> simp_all [Status.code]

theorem response_unasked (h : s.lreqs.find? (fun r => r.sent && r.tag % 65536 == m.tag) = none) : response s m = s := by
  rw [response, h]

section
variable {r : LReq} (hfind : s.lreqs.find? (fun r => r.sent && r.tag % 65536 == m.tag) = some r)
include hfind

theorem response_of_xlateFault (h : m.status = Status.xlateFault.code) :
    response s m = linkWrote (routeFail { s with lreqs := s.lreqs.filter (·.tag != r.tag) } r.op r.tag) r := by
  rw [response, hfind]
  simp only [getD_ofCode_eq_xlateFault_iff.mpr h]

theorem response_of_other_status (h : m.status ≠ Status.xlateFault.code) :
    response s m = linkWrote (partDone { s with lreqs := s.lreqs.filter (·.tag != r.tag) } r.op r.tag ((Status.ofCode m.status).getD .uncorrected) m.data) r := by
  rw [response, hfind]
  dsimp only
  split
  next hst => exact absurd (getD_ofCode_eq_xlateFault_iff.mp hst) h
  next => rfl

end

end

/-! ### The clauses -/

section
variable {s : State} {l : Nat} {m : LMsg} {i : Sys2Proof.Instr} (hexec : ∀ t, arrive s.clear l m = t → exec i s = .next (s.close t))
  (hl : l < s.b.links) (hup : s.linkUp l = true) (hhalt : s.flt.halt < 4) (hrst : s.rst = 0)
include hexec hl hup hhalt hrst

/-- A row that brings a request for this chip. -/
theorem exec_link_request (hdst : m.dst = s.chip) (htype : m.mtype = 1 ∨ m.mtype = 2) :
    let y := received s.clear l m
    (inAperture m.addr = true → exec i s = .next (s.close (y.startOp (requestOp l m .gal (m.addr % 2 ^ 29))))) ∧
    (inAperture m.addr = false → (s.f F.FAB_MEMIN_CHIPS).testBit m.src = false → exec i s = .next (s.close (respond y m .xlateFault []))) ∧
    (inAperture m.addr = false → (s.f F.FAB_MEMIN_CHIPS).testBit m.src = true → exec i s = .next (s.close
      (y.freeW.2.startOp (requestOp l m (.spans [⟨0, m.len + 1, m.addr, .mem m.sec (y.freeW.1.toNat % 16)⟩]) 0)))) := by
  obtain ⟨-, -, -, hchips⟩ := received_frame s.clear l m
  have harrive := arrive_request (s := s.clear) hl hup hhalt hrst hdst htype
  exact ⟨fun h => hexec _ (harrive.trans (remoteAccess_in_aperture h)),
    fun hout h => hexec _ (harrive.trans (remoteAccess_refused hout ((congrArg (Nat.testBit · m.src) hchips).trans h))),
    fun hout h => hexec _ (harrive.trans (remoteAccess_admitted hout ((congrArg (Nat.testBit · m.src) hchips).trans h)))⟩

/-- A row that brings a response for this chip. -/
theorem exec_link_response (hdst : m.dst = s.chip) (htype : m.mtype = 0x10 ∨ m.mtype = 0x11) :
    let found := s.lreqs.find? fun r => r.sent && r.tag % 65536 == m.tag
    (found = none → exec i s = .next (s.close (received s.clear l m))) ∧
    ∀ r, found = some r →
      let y : State := { received s.clear l m with lreqs := s.lreqs.filter (·.tag != r.tag) }
      (m.status = Status.xlateFault.code → exec i s = .next (s.close (linkWrote (routeFail y r.op r.tag) r))) ∧
      (m.status ≠ Status.xlateFault.code → exec i s
        = .next (s.close (linkWrote (partDone y r.op r.tag ((Status.ofCode m.status).getD .uncorrected) m.data) r))) := by
  obtain ⟨-, hlreqs, -, -⟩ := received_frame s.clear l m
  have harrive := arrive_response (s := s.clear) hl hup hhalt hrst hdst htype
  rw [State.clear_lreqs] at hlreqs
  rw [← hlreqs]
  exact ⟨fun h => hexec _ (harrive.trans (response_unasked h)),
    fun r hfind => ⟨fun h => hexec _ (harrive.trans (response_of_xlateFault hfind h)), fun h => hexec _ (harrive.trans (response_of_other_status hfind h))⟩⟩

end

/-- Settles O37: each row brings its message, and each clause names the branch that the message takes. -/
theorem messagesOfOtherChipsAreCarriedOut : Obligations.MessagesOfOtherChipsAreCarriedOut := by
  intro s l h a v w1 data hl rows
  have hexec (x : Sys2Proof.Instr × LMsg) (hx : x ∈ linkRows l h a v w1 data) (t : State) (ht : arrive s.clear l x.2 = t) :
      exec x.1 s = .next (s.close t) := exec_of_mem_linkRows hx ht
  refine ⟨fun hup x hx => hexec x hx _ (arrive_of_link_off (s := s.clear) hup),
    fun hup hhalt hrst => ⟨fun hdst => ⟨?read, ?write, ?signal, ?coll, ?cbrk, ?rdata, ?wack⟩, fun x hx hdst => ?foreign⟩⟩
  case read => exact exec_link_request (hexec (.mrd l h a, msgOf 1 h a []) (by simp [linkRows])) hl hup hhalt hrst hdst (.inl rfl)
  case write => exact exec_link_request (hexec (.mwr l h a data, msgOf 2 h a data) (by simp [linkRows])) hl hup hhalt hrst hdst (.inr rfl)
  case signal =>
    intro m ids hnone
    have hrow := hexec (.phsig l h a v, m) (by simp [linkRows, m])
    exact ⟨fun hids => hrow _ (arrive_signal_of_no_writes (s := s.clear) hl hup hhalt hrst hdst rfl rfl hnone hids),
      fun hids => hrow _ (arrive_signal_of_writes (s := s.clear) hl hup hhalt hrst hdst rfl rfl hnone hids)⟩
  case coll => exact hexec (.coll l h a data, msgOf 5 h a data) (by simp [linkRows]) _ (arrive_collective (s := s.clear) hl hup hhalt hrst hdst (.inl rfl))
  case cbrk => exact hexec (.cbrk l h a, msgOf 6 h a []) (by simp [linkRows]) _ (arrive_collective (s := s.clear) hl hup hhalt hrst hdst (.inr rfl))
  case rdata => exact exec_link_response (hexec (.rdata l h w1 data, msgOf 0x10 h w1 data) (by simp [linkRows])) hl hup hhalt hrst hdst (.inl rfl)
  case wack => exact exec_link_response (hexec (.wack l h w1, msgOf 0x11 h w1 []) (by simp [linkRows])) hl hup hhalt hrst hdst (.inr rfl)
  case foreign =>
    have hforward (t : State) (ht : forward s.clear l x.2 = t) : exec x.1 s = .next (s.close t) :=
      hexec x hx t ((arrive_foreign (s := s.clear) hl hup hhalt hrst hdst).trans ht)
    exact ⟨fun h => hforward _ (forward_discarded (s := s.clear) h), fun hhops hrev => ⟨fun h => hforward _ (forward_waits (s := s.clear) hhops hrev h),
      fun h => hforward _ (forward_lost (s := s.clear) hhops hrev h)⟩⟩

end Sys2Proof.Machine
end

section
/-! SUPPORT. Flits that arrive, requests held for a route, the definition of groups, and the limit of a collective's step (spec/11 R297, R299, R309, R316, R325). -/

namespace Sys2Proof.Machine

/-! ### Flits (spec/11 R297, R299) -/

/-- The first word of a flit, which names its kind, the first header and the credits it returns. -/
def flitWord (flit : List Byte) : W64 := (wordsOf 1 flit).headD 0

def flitKind (flit : List Byte) : Nat := fieldOf (flitWord flit) 63 56

/-- The flit is counted in RXFLITS. -/
def flitCounted (s : State) (l : Nat) : State :=
  State.setF { s with lrx := mset s.lrx l (mget 0 s.lrx l + 1) } F.FAB_LCNT_RXFLITS l ((mget 0 s.lrx l + 1) / 2 ^ 16)

/-- The credits that the flit returns are taken, and what they let go leaves. -/
def flitCredited (s : State) (l : Nat) (flit : List Byte) : State :=
  let back (cr hi lo : Nat) : Nat := min 1024 (cr + fieldOf (flitWord flit) hi lo)
  State.pumpL { flitCounted s l with lcr := mset s.lcr l (back (s.credits l).1 31 16, back (s.credits l).2 15 0) }

/-- The units of a traffic flit behind those of the message in progress, or from the first header on. -/
def flitUnits (s : State) (l : Nat) (flit : List Byte) : List Byte :=
  let old := mget [] s.lpart l
  let first := fieldOf (flitWord flit) 47 40
  if old ≠ [] then old ++ flit.drop 16 else if first ≤ 14 then (flit.drop 16).drop (16 * first) else []

section
variable {s t : State} {l : Nat} {flit : List Byte}

theorem exec_flitReceive (h : flitIn s.clear l flit = t) : exec (.flitReceive l flit) s = .next (s.close t) := by
  rw [← h]; rfl

theorem flitIn_of_link_off (h2 : s.f F.FAB_LSTAT_STATE l ≠ 2) (h3 : s.f F.FAB_LSTAT_STATE l ≠ 3) : flitIn s l flit = s :=
  if_pos (.inr (.inl ⟨h2, h3⟩))

section
variable (hrst : s.rst = 0) (hl : l < s.b.links) (hlen : flit.length = 256)
include hrst hl hlen

/-- A flit is counted and then taken by its kind; it returns credits on a link that is UP alone. -/
theorem flitIn_of_link_on (hst : s.f F.FAB_LSTAT_STATE l = 2 ∨ s.f F.FAB_LSTAT_STATE l = 3) :
    flitIn s l flit =
      let p := if s.f F.FAB_LSTAT_STATE l = 3 then flitCredited s l flit else flitCounted s l
      if flitKind flit = 2 then controlIn p l (wordsOf 4 (flit.drop 16))
      else if flitKind flit ≠ 1 then (flitCounted s l).satF F.FAB_LCNT_BADFLIT l
      else if s.f F.FAB_LSTAT_STATE l = 2 then flitCounted s l
      else takeUnits 64 { p with lpart := mdel p.lpart l } l (flitUnits p l flit) :=
  if_neg (by omega)

theorem flitIn_of_undefined_kind (hst : s.f F.FAB_LSTAT_STATE l = 2 ∨ s.f F.FAB_LSTAT_STATE l = 3) (h1 : flitKind flit ≠ 1) (h2 : flitKind flit ≠ 2) :
    flitIn s l flit = (flitCounted s l).satF F.FAB_LCNT_BADFLIT l :=
  (flitIn_of_link_on hrst hl hlen hst).trans ((if_neg h2).trans (if_pos h1))

section
variable (hst : s.f F.FAB_LSTAT_STATE l = 2)
include hst

theorem flitIn_negotiating_traffic (hkind : flitKind flit = 1) : flitIn s l flit = flitCounted s l := by
  rw [flitIn_of_link_on hrst hl hlen (.inl hst)]
  simp [hkind, hst]

theorem flitIn_negotiating_control (hkind : flitKind flit = 2) : flitIn s l flit = controlIn (flitCounted s l) l (wordsOf 4 (flit.drop 16)) := by
  rw [flitIn_of_link_on hrst hl hlen (.inl hst)]
  simp [hkind, hst]

end

section
variable (hst : s.f F.FAB_LSTAT_STATE l = 3)
include hst

theorem flitIn_up_control (hkind : flitKind flit = 2) : flitIn s l flit = controlIn (flitCredited s l flit) l (wordsOf 4 (flit.drop 16)) := by
  rw [flitIn_of_link_on hrst hl hlen (.inr hst)]
  simp [hkind, hst]

theorem flitIn_up_traffic (hkind : flitKind flit = 1) :
    let p := flitCredited s l flit
    flitIn s l flit = takeUnits 64 { p with lpart := mdel p.lpart l } l (flitUnits p l flit) := by
  rw [flitIn_of_link_on hrst hl hlen (.inr hst)]
  simp [hkind, hst]

end

end

end

/-! ### A request held for its route (spec/11 R309) -/

section
variable {s t : State} {tag : Nat} {r : LReq}

theorem exec_routeHoldExpiry (h : routeHold s.clear tag = t) : exec (.routeHoldExpiry tag) s = .next (s.close t) := by
  rw [← h]; rfl

theorem routeHold_of_none (h : s.lreqs.find? (fun r => r.tag == tag && !r.sent) = none) : routeHold s tag = s := by
  rw [routeHold, h]

section
variable (hfind : s.lreqs.find? (fun r => r.tag == tag && !r.sent) = some r)
include hfind

theorem routeHold_of_late (hroute : s.routeUp r.msg.dst = none) (hlate : r.since + max 1 (s.f F.FAB_HOLD_HOLD) * 1000000 ≤ s.time) :
    routeHold s tag = routeFail { s with lreqs := s.lreqs.filter (·.tag != tag) } r.op tag := by
  rw [routeHold, hfind]
  exact if_neg (by simp [hroute, hlate])

theorem routeHold_of_not_late (h : s.routeUp r.msg.dst ≠ none ∨ s.time < r.since + max 1 (s.f F.FAB_HOLD_HOLD) * 1000000) : routeHold s tag = s := by
  rw [routeHold, hfind]
  exact if_pos (h.imp_left Option.isSome_iff_ne_none.mpr)

end

end

/-! ### The definition of a group (spec/11 R316) -/

/-- The ranks cannot be a group's members: none or too many, one twice, or a remote one on a build without links. -/
def GroupBad (s : State) (g n : Nat) : Prop :=
  let ms := (List.range n).map (memberAt s g)
  n = 0 ∨ 64 < n ∨ ¬ ms.Nodup ∨ (s.b.links = 0 ∧ ∃ m ∈ ms, m.1 ≠ s.chip)

/-- The group is enabled, and the counts of its collectives begin again. -/
def groupEnabled (s : State) (g n : Nat) : State :=
  let t : State := { s with colN := s.colN.filter fun e => e.1 / 64 != g }
  ((t.setF F.FAB_GRP_NRANK g n).setF F.FAB_GRP_DIGEST g (groupDigest s g n)).setF F.FAB_GRP_EN g 1

section
variable {s t : State} {g v : Nat}

theorem groupBad_iff {n : Nat} : GroupBad s g n ↔
    n = 0 ∨ 64 < n ∨ ¬ ((List.range n).map (memberAt s g)).Nodup ∨ (s.b.links = 0 ∧ ((List.range n).map (memberAt s g)).any fun m => m.1 != s.chip) := by
  simp only [GroupBad, List.any_eq_true, bne_iff_ne]

theorem exec_fabGrpWrite (hr : HostReady s) (hg : g < 256) (h : groupWrite s.clear g v = t) : exec (.fabGrpWrite g v) s = .next (s.close t.ok) := by
  have hrun : exec (.fabGrpWrite g v) s = .next (s.close (hostCmd s.clear (0xD1000 + 8 * g) fun s => if g < 256 then groupWrite s g v else s)) := rfl
  rw [hrun, hostCmd_ready hr, if_pos hg, h]

section
variable (hon : s.fb F.FAB_GRP_EN g = true)
include hon

theorem groupWrite_enabled_keeps (hv : v / 2 ^ 63 % 2 = 1) : groupWrite s g v = s := (if_pos hon).trans (if_pos (beq_iff_eq.mpr hv))

theorem groupWrite_disables (hv : v / 2 ^ 63 % 2 = 0) : groupWrite s g v = s.setF F.FAB_GRP_EN g 0 := (if_pos hon).trans (if_neg (by rw [hv]; decide))

end

section
variable (hoff : s.fb F.FAB_GRP_EN g = false)
include hoff

theorem groupWrite_stores (hv : v / 2 ^ 63 % 2 = 0) : groupWrite s g v = s.setF F.FAB_GRP_NRANK g (v / 2 ^ 48 % 128) :=
  (if_neg (Bool.eq_false_iff.mp hoff)).trans (if_pos (by rw [hv]; decide))

/-- Its members are judged before a group is enabled. -/
theorem groupWrite_judges (hv : v / 2 ^ 63 % 2 = 1) :
    groupWrite s g v =
      let n := v / 2 ^ 48 % 128
      let ms := (List.range n).map (memberAt s g)
      if n = 0 ∨ 64 < n ∨ ¬ ms.Nodup ∨ (s.b.links = 0 ∧ ms.any fun m => m.1 != s.chip) then (s.setF F.FAB_ERR_CAUSE 0 4).setF F.FAB_ERR_WHERE 0 g
      else groupEnabled s g n :=
  (if_neg (Bool.eq_false_iff.mp hoff)).trans (if_neg (by rw [hv]; decide))

theorem groupWrite_refused (hv : v / 2 ^ 63 % 2 = 1) (h : GroupBad s g (v / 2 ^ 48 % 128)) :
    groupWrite s g v = (s.setF F.FAB_ERR_CAUSE 0 4).setF F.FAB_ERR_WHERE 0 g := by
  rw [groupWrite_judges hoff hv]
  exact if_pos (groupBad_iff.mp h)

theorem groupWrite_enables (hv : v / 2 ^ 63 % 2 = 1) (h : ¬ GroupBad s g (v / 2 ^ 48 % 128)) : groupWrite s g v = groupEnabled s g (v / 2 ^ 48 % 128) := by
  rw [groupWrite_judges hoff hv]
  exact if_neg (mt groupBad_iff.mpr h)

end

end

/-! ### The limit of a collective's step (spec/11 R325) -/

/-- The access serves the collective of a command. -/
def servesColl (cmd : Nat) : Purpose → Bool
  | .coll x _ => x == cmd
  | _ => false

/-- The member has sent its step on a running relay core and waited STEPLIM for data of the next; its command is of queue `q`. -/
def StepLate (s : State) (q : Nat) (x : Collv) : Prop :=
  x.phase = 2 ∧ x.sent = true ∧ s.coreUp (2 + x.g % 2) = true ∧ x.since + max 1 (s.f F.FAB_COLL_STEPLIM) * 1000 ≤ s.time ∧ ∃ c, s.cmd? x.cmd = some c ∧ c.q = q

/-- The same as a test. -/
def stepLate (s : State) (q : Nat) (x : Collv) : Bool :=
  x.phase == 2 && x.sent && s.coreUp (2 + x.g % 2) && decide (x.since + max 1 (s.f F.FAB_COLL_STEPLIM) * 1000 ≤ s.time) && (match s.cmd? x.cmd with
    | some c => c.q == q
    | none => false)

/-- The part of a member has ended: the bytes of its destination are unspecified, and its accesses are dropped. -/
def collEnded (s : State) (v : Collv) (c : Cmd) (st : Status) : State :=
  let u := collSpoil (setColl s { v with phase := 4, st }) v c
  { u with ops := u.ops.filter fun o => !servesColl v.cmd o.pur }

section
variable {s t : State} {q : Nat} {x : Collv} {c : Cmd} {st : Status}

theorem stepLate_iff : stepLate s q x = true ↔ StepLate s q x := by
  unfold stepLate StepLate
  cases s.cmd? x.cmd <;> simp [and_assoc]

theorem exec_steplimExpiry (h : steplim s.clear q = t) : exec (.steplimExpiry q) s = .next (s.close t) := by
  rw [← h]; rfl

theorem steplim_eq : steplim s q = ((s.colls.find? (stepLate s q)).elim s fun v => collEndPart s v.cmd .collectiveRestarted false) := by
  change (match s.colls.find? (stepLate s q) with
    | some v => collEndPart s v.cmd .collectiveRestarted false
    | none => s) = _
  cases s.colls.find? (stepLate s q) <;> rfl

theorem steplim_of_none_late (h : ∀ x ∈ s.colls, ¬ StepLate s q x) : steplim s q = s := by
  have hnone : s.colls.find? (stepLate s q) = none := List.find?_eq_none.mpr fun x hx => mt stepLate_iff.mp (h x hx)
  rw [steplim_eq, hnone, Option.elim_none]

theorem steplim_of_one (hone : s.colls = [x]) (h : StepLate s q x) : steplim s q = collEndPart s x.cmd .collectiveRestarted false := by
  rw [steplim_eq, hone, List.find?_cons_of_pos (stepLate_iff.mpr h), Option.elim_some]

theorem collEndPart_untold (hcoll : collOf s x.cmd = some x) (hcmd : s.cmd? x.cmd = some c) (hphase : x.phase ≠ 4) :
    collEndPart s x.cmd st false = collEnded s x c st := by
  simp only [collEndPart, hcoll, hcmd, if_neg hphase, Bool.false_eq_true, if_false, collEnded]
  congr 2
  funext o
  cases o.pur <;> rfl

/-- Spoiling a destination writes the gallery and takes free values. -/
theorem collSpoil_frame (s : State) (v : Collv) (c : Cmd) :
    (collSpoil s v c).colls = s.colls ∧ (collSpoil s v c).lout = s.lout ∧ (collSpoil s v c).out = s.out ∧ (collSpoil s v c).cmds = s.cmds ∧
      (collSpoil s v c).ops = s.ops := by
  unfold collSpoil
  split <;> exact ⟨rfl, rfl, rfl, rfl, rfl⟩

theorem servesColl_eq_false_iff {p : Purpose} {cmd : Nat} : servesColl cmd p = false ↔ ∀ y, p ≠ .coll cmd y := by
  cases p <;> simp [servesColl]

/-- The one member ends its part; the links, the commands and the other accesses stay. -/
theorem collEnded_of_one (hone : s.colls = [x]) :
    (collEnded s x c st).colls = [{ x with phase := 4, st }] ∧ (collEnded s x c st).lout = s.lout ∧ (collEnded s x c st).out = s.out ∧
      (collEnded s x c st).cmds = s.cmds ∧ ∀ o, o ∈ (collEnded s x c st).ops ↔ o ∈ s.ops ∧ ∀ y, o.pur ≠ .coll x.cmd y := by
  obtain ⟨hcolls, hlout, hout, hcmds, hops⟩ := collSpoil_frame (setColl s { x with phase := 4, st }) x c
  refine ⟨hcolls.trans (by simp [setColl, hone]), hlout, hout, hcmds, fun o => ?_⟩
  have hkept : (collEnded s x c st).ops = s.ops.filter fun o => !servesColl x.cmd o.pur := congrArg (List.filter _) hops
  rw [hkept, List.mem_filter, Bool.not_eq_true', servesColl_eq_false_iff]

end

/-! ### The clauses -/

/-- Settles O38: each row runs its operation, and each clause names the branch that the operation takes. -/
theorem flitsHeldRequestsAndGroups : Obligations.FlitsHeldRequestsAndGroups := by
  constructor
  · intro s l tag flit
    refine ⟨fun hrst hl hlen => ?flits, fun h => exec_routeHoldExpiry (routeHold_of_none (s := s.clear) h), fun r hfind => ?hold⟩
    case flits =>
      exact ⟨fun hst h1 h2 => exec_flitReceive (flitIn_of_undefined_kind (s := s.clear) hrst hl hlen hst h1 h2),
        fun hst h => exec_flitReceive (flitIn_negotiating_traffic (s := s.clear) hrst hl hlen hst h),
        fun hst h => exec_flitReceive (flitIn_negotiating_control (s := s.clear) hrst hl hlen hst h),
        fun hst h => exec_flitReceive (flitIn_up_control (s := s.clear) hrst hl hlen hst h),
        fun hst h => exec_flitReceive (flitIn_up_traffic (s := s.clear) hrst hl hlen hst h),
        fun h2 h3 => exec_flitReceive (flitIn_of_link_off (s := s.clear) h2 h3)⟩
    case hold =>
      exact ⟨fun hroute hlate => exec_routeHoldExpiry (routeHold_of_late (s := s.clear) hfind hroute hlate),
        fun h => exec_routeHoldExpiry (routeHold_of_not_late (s := s.clear) hfind h)⟩
  · intro s g v q
    refine ⟨fun hr hg => ?group, fun x hone hlate => ?late, fun h => exec_steplimExpiry (steplim_of_none_late (s := s.clear) h)⟩
    case group =>
      exact ⟨fun hoff hv hbad => exec_fabGrpWrite hr hg (groupWrite_refused (s := s.clear) hoff hv hbad),
        fun hoff hv hgood => exec_fabGrpWrite hr hg (groupWrite_enables (s := s.clear) hoff hv hgood),
        fun hoff hv => exec_fabGrpWrite hr hg (groupWrite_stores (s := s.clear) hoff hv),
        fun hon hv => exec_fabGrpWrite hr hg (groupWrite_enabled_keeps (s := s.clear) hon hv),
        fun hon hv => exec_fabGrpWrite hr hg (groupWrite_disables (s := s.clear) hon hv)⟩
    case late =>
      obtain ⟨hphase, -, -, -, c, hcmd, -⟩ := id hlate
      have hcoll : collOf s.clear x.cmd = some x := by simp [collOf, hone]
      have hends := collEndPart_untold (s := s.clear) (st := .collectiveRestarted) hcoll hcmd (by omega)
      exact ⟨_, exec_steplimExpiry ((steplim_of_one (s := s.clear) hone hlate).trans hends), collEnded_of_one (s := s.clear) hone⟩

end Sys2Proof.Machine
end

section
/-! SUPPORT. Fabric time: the cycle of CLK_AON, the exchange with the parent, and the loss of synchronisation (spec/11 R310 to R314). -/

namespace Sys2Proof.Machine

/-! ### A cycle of CLK_AON (spec/11 R310, R313) -/

/-- Fabric time, its synchronisation, the gallery, the queues, the commands and the pigeonholes are those of `s`. -/
structure SameTime (s t : State) : Prop where
  time : t.time = s.time
  tsync : t.tsync = s.tsync
  gal : t.gal = s.gal
  qs : t.qs = s.qs
  cmds : t.cmds = s.cmds
  ph : t.ph = s.ph

/-- The nanoseconds that a cycle adds where the rate correction has gathered `a`, and what is left of it. -/
def rateStep (a : Int) : Nat × Int := if 65536 ≤ a then (5, a - 65536) else if a ≤ -65536 then (3, a + 65536) else (4, a)

theorem rateStep_of_ge {a : Int} (h : 65536 ≤ a) : rateStep a = (5, a - 65536) := if_pos h

theorem rateStep_of_le {a : Int} (h : a ≤ -65536) : rateStep a = (3, a + 65536) := by
  rw [rateStep, if_neg (by omega), if_pos h]

theorem rateStep_of_between {a : Int} (hlo : -65536 < a) (hhi : a < 65536) : rateStep a = (4, a) := by
  rw [rateStep, if_neg (by omega), if_neg (by omega)]

/-- The cycle is counted, and the time goes on. -/
def timeStepped (s : State) : State :=
  let r := rateStep (s.tsync.acc + s.tsync.rate)
  { s with time := s.time + r.1, tsync := { s.tsync with acc := r.2, cycles := s.tsync.cycles + 1 } }

section
variable {s t u : State}

theorem SameTime.refl (s : State) : SameTime s s := ⟨rfl, rfl, rfl, rfl, rfl, rfl⟩

theorem SameTime.trans (h : SameTime s t) (k : SameTime t u) : SameTime s u :=
  ⟨k.time.trans h.time, k.tsync.trans h.tsync, k.gal.trans h.gal, k.qs.trans h.qs, k.cmds.trans h.cmds, k.ph.trans h.ph⟩

theorem sameTime_traceDrain (s : State) : SameTime s (traceDrain s) := by
  unfold traceDrain
  split
  · exact .refl s
  · dsimp only
    split <;> exact ⟨rfl, rfl, rfl, rfl, rfl, rfl⟩

theorem sameTime_stnTick (s : State) : SameTime s (stnTick s) :=
  List.foldlRecOn _ _ (.refl s) fun t h n _ => h.trans (t := t) (u := stnCycles t n) ⟨rfl, rfl, rfl, rfl, rfl, rfl⟩

/-- The interrupt lines and the trace output leave the time as the cycle made it. -/
theorem sameTime_timeAdvance (h1 : s.rst ≠ 1) (h4 : s.rst ≠ 4) : SameTime (timeStepped s) (timeAdvance s) := by
  have hirq (c : Prop) [Decidable c] (x : State) : SameTime x ((if c then id else irqTick) x) := by
    split <;> exact ⟨rfl, rfl, rfl, rfl, rfl, rfl⟩
  have hdrain (c : Prop) [Decidable c] (x : State) : SameTime x (if c then traceDrain x else x) := by
    split
    · exact sameTime_traceDrain x
    · exact .refl x
  rw [timeAdvance, if_neg (by simp [h1, h4])]
  exact (hirq _ _).trans (hdrain _ _)

theorem ctlOn_in_reset (h : s.rst ≠ 0) : s.ctlOn = false := by simp [State.ctlOn, h]

theorem stnTick_in_reset (h : s.rst ≠ 0) : stnTick s = s := by
  have hnone : (List.range s.b.stations).filter (stnRuns s) = [] :=
    List.filter_eq_nil_iff.mpr fun n _ => by simp [stnRuns, ctlOn_in_reset h]
  rw [stnTick, hnone, List.foldl_nil]

theorem exec_fabricTimeAdvance (h : stnTick (timeAdvance s.clear) = t) : exec .fabricTimeAdvance s = .next (s.close t) := by
  rw [← h]; rfl

/-- In PORESET_N nothing counts, and nothing follows (spec/18 R472). -/
theorem exec_fabricTimeAdvance_in_poreset (h : s.rst = 1 ∨ s.rst = 4) : exec .fabricTimeAdvance s = .next s.clear := by
  have hrst : s.clear.rst ≠ 0 := by rw [State.clear_rst]; omega
  have hstands : timeAdvance s.clear = s.clear := if_pos h
  rw [exec_fabricTimeAdvance (by rw [hstands, stnTick_in_reset hrst]), State.close, settle_in_reset hrst]
  rfl

end

/-! ### Requests and the loss of the parent (spec/11 R312, R314) -/

section
variable {s t : State} {l t1 t2 t3 : Nat}

theorem exec_tsyncExchange (h : tsyncSend s.clear = t) : exec .tsyncExchange s = .next (s.close t) := by
  rw [← h]; rfl

theorem exec_tsyncLoss (h : tsyncLost s.clear = t) : exec .tsyncLoss s = .next (s.close t) := by
  rw [← h]; rfl

theorem exec_tsyncResponse (h : tsyncIn s.clear l t1 t2 t3 = t) : exec (.tsyncResponse l t1 t2 t3) s = .next (s.close t) := by
  rw [← h]; rfl

/-- What a request leaves of the synchronisation: a new parent begins without offsets. -/
def tsyncAsked (s : State) : TSync :=
  let t : TSync := if s.tsync.parent = some (timeSource s) then s.tsync else { s.tsync with offs := [], parent := some (timeSource s), lastRsp := s.time }
  { t with sentAt := s.time }

theorem tsyncSend_of_source (h : timeSource s = s.chip) : tsyncSend s = s := by
  rw [tsyncSend, parentLink, if_pos h]

theorem tsyncSend_early (hp : parentLink s = some l) (h : s.time < s.tsync.sentAt + 8000) : tsyncSend s = s := by
  rw [tsyncSend, hp]
  exact if_pos (.inl h)

theorem tsyncSend_due (hp : parentLink s = some l) (hrst : s.rst = 0) (h : s.tsync.sentAt + 8000 ≤ s.time) :
    tsyncSend s = State.sendCtl { s with tsync := tsyncAsked s } l [BitVec.ofNat 64 (0x22 * 2 ^ 58), BitVec.ofNat 64 s.time16] := by
  rw [tsyncSend, hp]
  exact if_neg (by omega)

theorem tsyncLost_of_source (h : timeSource s = s.chip) : tsyncLost s = s := if_pos (.inl h)

theorem tsyncLost_early (h : s.time < s.tsync.lastRsp + 10000000) : tsyncLost s = s := if_pos (.inr h)

theorem tsyncLost_due (hsrc : timeSource s ≠ s.chip) (h : s.tsync.lastRsp + 10000000 ≤ s.time) : tsyncLost s = s.setF F.FAB_TSYNC_SYNC 0 0 :=
  if_neg (by omega)

/-- A request of a child that a control flit brings is answered at once. -/
theorem controlIn_tsync_request {w0 : W64} (w1 : W64) (hup : s.linkUp l = true) (htype : fieldOf w0 63 58 = 0x22) (hreq : w0.toNat.testBit 57 = false) :
    controlIn s l [w0, w1, 0, 0] = tsyncReq s l w1 := by
  simp [controlIn, htype, hup, hreq]

end

/-! ### A response of the parent (spec/11 R312) -/

/-- The last 64 offsets with the one that the times of a response give. -/
def tsyncOffs (s : State) (t1 t2 t3 : Nat) : List Int :=
  (s.tsync.offs ++ [(((t2 : Int) - t1) - ((s.time16 : Int) - (t3 : Int))) / 2]).drop (s.tsync.offs.length + 1 - 64)

/-- The response is taken: HOPS, the offsets, the rate correction and OFFSET. -/
def tsyncTaken (s : State) (l : Nat) (offs : List Int) : State :=
  let s' := s.freeW.2.freeW.2.setF F.FAB_TSYNC_HOPS 0
    (if s.f F.FAB_LPEER_CHIP l = timeSource s then 1 else 2 + s.freeW.2.freeW.1.toNat % 6)
  State.setF { s' with tsync := { s.tsync with offs, rate := (s.freeW.1.toNat % 65537 : Nat) - (32768 : Int), lastRsp := s.time } }
    F.FAB_TSYNC_OFFSET 0 (meanOf offs % 65536).toNat

/-- The time after a step by the mean of the offsets. -/
def steppedTime (s : State) (offs : List Int) : Nat := ((s.time : Int) + meanOf offs / 16).toNat

/-- The step: the offsets begin again, SYNC is cleared and the step counted. -/
def timeMoved (s : State) (offs : List Int) : State :=
  let t := steppedTime s offs
  (State.setF { s with time := t, tsync := { s.tsync with offs := [], sentAt := t, lastRsp := t } } F.FAB_TSYNC_SYNC 0 0).incF F.FAB_TSYNC_STEPS 0

/-- The letterbook notes it. -/
def tsyncStepped (s : State) (offs : List Int) : State :=
  (timeMoved s offs).note none false 0xC none 0 (meanOf offs / 16 % 2 ^ 64).toNat

section
variable {s : State} {l t1 t2 t3 : Nat} {offs : List Int}

theorem tsyncIn_of_other (h : parentLink s ≠ some l ∨ s.rst ≠ 0) : tsyncIn s l t1 t2 t3 = s := if_pos h

section
variable (hp : parentLink s = some l) (hrst : s.rst = 0)
include hp hrst

/-- A mean above 64 ns steps the time, one of at most 4 ns sets SYNC; the offsets are in 1/16 ns. -/
theorem tsyncIn_of_parent :
    tsyncIn s l t1 t2 t3 =
      let offs := tsyncOffs s t1 t2 t3
      let x := tsyncTaken s l offs
      if 64 * 16 * offs.length < absSum offs then tsyncStepped x offs else if absSum offs ≤ 64 * offs.length then x.setF F.FAB_TSYNC_SYNC 0 1 else x :=
  if_neg (by simp [hp, hrst])

variable (hoffs : tsyncOffs s t1 t2 t3 = offs)
include hoffs

theorem tsyncIn_of_far (h : 64 * 16 * offs.length < absSum offs) : tsyncIn s l t1 t2 t3 = tsyncStepped (tsyncTaken s l offs) offs := by
  subst hoffs
  exact (tsyncIn_of_parent hp hrst).trans (if_pos h)

theorem tsyncIn_of_near (h : absSum offs ≤ 64 * offs.length) : tsyncIn s l t1 t2 t3 = (tsyncTaken s l offs).setF F.FAB_TSYNC_SYNC 0 1 := by
  subst hoffs
  exact (tsyncIn_of_parent hp hrst).trans ((if_neg (by omega)).trans (if_pos h))

theorem tsyncIn_of_between (hlo : 64 * offs.length < absSum offs) (hhi : absSum offs ≤ 64 * 16 * offs.length) : tsyncIn s l t1 t2 t3 = tsyncTaken s l offs := by
  subst hoffs
  exact (tsyncIn_of_parent hp hrst).trans ((if_neg (by omega)).trans (if_neg (by omega)))

end

theorem tsyncTaken_f {y : Fld} (hhops : y.key 0 ≠ F.FAB_TSYNC_HOPS.key 0) (hoff : y.key 0 ≠ F.FAB_TSYNC_OFFSET.key 0) :
    (tsyncTaken s l offs).f y = s.f y :=
  (State.f_setF_ne _ _ _ _ _ _ hoff).trans (State.f_setF_ne _ _ _ _ _ _ hhops)

theorem tsyncTaken_hops (h : s.f F.FAB_LPEER_CHIP l = timeSource s) : (tsyncTaken s l offs).f F.FAB_TSYNC_HOPS = 1 := by
  refine (State.f_setF_ne _ _ _ _ _ _ (by decide)).trans ((State.f_setF_same _ _ _ _).trans ?_)
  rw [if_pos h]
  decide

/-- The rate correction is a free value within an eighth of a nanosecond a cycle either way. -/
theorem tsyncTaken_rate : (tsyncTaken s l offs).tsync.rate ≤ 32768 ∧ -32768 ≤ (tsyncTaken s l offs).tsync.rate := by
  have hrate : (tsyncTaken s l offs).tsync.rate = ((s.freeW.1.toNat % 65537 : Nat) : Int) - 32768 := rfl
  rw [hrate]
  omega

theorem noted_tsyncStepped : Noted (timeMoved s offs) (tsyncStepped s offs) := noted_note ..

theorem tsyncStepped_sync : (tsyncStepped s offs).f F.FAB_TSYNC_SYNC = 0 :=
  (noted_tsyncStepped.f _ _ (by decide)).trans ((State.f_setF_ne _ _ _ _ _ _ (by decide)).trans (State.f_setF_same _ _ _ _))

theorem tsyncStepped_steps : (tsyncStepped s offs).f F.FAB_TSYNC_STEPS = (s.f F.FAB_TSYNC_STEPS + 1) % 2 ^ F.FAB_TSYNC_STEPS.w := by
  refine (noted_tsyncStepped.f _ _ (by decide)).trans ((State.f_setF_same _ _ _ _).trans ?_)
  rw [State.f_setF_ne _ _ _ _ _ _ (by decide)]
  rfl

theorem tsyncStepped_steps_taken : (tsyncStepped (tsyncTaken s l offs) offs).f F.FAB_TSYNC_STEPS = (s.f F.FAB_TSYNC_STEPS + 1) % 2 ^ F.FAB_TSYNC_STEPS.w := by
  rw [tsyncStepped_steps, tsyncTaken_f (by decide) (by decide)]

theorem tsyncStepped_hops : (tsyncStepped s offs).f F.FAB_TSYNC_HOPS = s.f F.FAB_TSYNC_HOPS :=
  (noted_tsyncStepped.f _ _ (by decide)).trans ((State.f_setF_ne _ _ _ _ _ _ (by decide)).trans (State.f_setF_ne _ _ _ _ _ _ (by decide)))

end

/-- What every response leaves, whatever its offsets: the rate correction within its bound, the gallery, the queues and the commands; HOPS below the source. -/
structure TsyncAnswered (s : State) (l : Nat) (e : State) : Prop where
  rate_le : e.tsync.rate ≤ 32768
  le_rate : -32768 ≤ e.tsync.rate
  gal : e.gal = s.gal
  qs : e.qs = s.qs
  cmds : e.cmds = s.cmds
  hops : s.f F.FAB_LPEER_CHIP l = timeSource s → e.f F.FAB_TSYNC_HOPS = 1

section
variable {s e : State} {l : Nat}

theorem tsyncAnswered_tsyncTaken (s : State) (l : Nat) (offs : List Int) : TsyncAnswered s l (tsyncTaken s l offs) :=
  ⟨tsyncTaken_rate.1, tsyncTaken_rate.2, rfl, rfl, rfl, tsyncTaken_hops⟩

theorem TsyncAnswered.locked (h : TsyncAnswered s l e) : TsyncAnswered s l (e.setF F.FAB_TSYNC_SYNC 0 1) :=
  ⟨h.rate_le, h.le_rate, h.gal, h.qs, h.cmds, fun hpeer => (State.f_setF_ne _ _ _ _ _ _ (by decide)).trans (h.hops hpeer)⟩

theorem TsyncAnswered.stepped (h : TsyncAnswered s l e) (offs : List Int) : TsyncAnswered s l (tsyncStepped e offs) where
  rate_le := by rw [noted_tsyncStepped.tsync]; exact h.rate_le
  le_rate := by rw [noted_tsyncStepped.tsync]; exact h.le_rate
  gal := noted_tsyncStepped.gal.trans h.gal
  qs := noted_tsyncStepped.qs.trans h.qs
  cmds := noted_tsyncStepped.cmds.trans h.cmds
  hops := fun hpeer => tsyncStepped_hops.trans (h.hops hpeer)

end

/-! ### The clauses -/

/-- Settles O39: each row runs its operation, and each clause names the branch that the operation takes. -/
theorem fabricTimeAdvancesAndFollowsItsSource : Obligations.FabricTimeAdvancesAndFollowsItsSource := by
  intro s l t1 t2 t3
  refine ⟨?cycle, exec_fabricTimeAdvance_in_poreset, ?source, ?request, ?parent, ?loss, ?other, ?response⟩
  case cycle =>
    intro a h1 h4
    have hkept := (sameTime_timeAdvance (s := s.clear) h1 h4).trans (sameTime_stnTick _)
    have htime : (stnTick (timeAdvance s.clear)).time = s.time + (rateStep a).1 := hkept.time
    have hacc : (stnTick (timeAdvance s.clear)).tsync.acc = (rateStep a).2 := congrArg TSync.acc hkept.tsync
    have hcycles : (stnTick (timeAdvance s.clear)).tsync.cycles = s.tsync.cycles + 1 := by rw [hkept.tsync]; rfl
    have hrate : (stnTick (timeAdvance s.clear)).tsync.rate = s.tsync.rate := by rw [hkept.tsync]; rfl
    refine ⟨_, exec_fabricTimeAdvance rfl, hcycles, hrate, fun h => ?_, fun h => ?_, fun hlo hhi => ?_,
      hkept.gal, hkept.qs, hkept.cmds, hkept.ph⟩
    · rw [htime, hacc, rateStep_of_ge h]
      exact ⟨rfl, rfl⟩
    · rw [htime, hacc, rateStep_of_le h]
      exact ⟨rfl, rfl⟩
    · rw [htime, hacc, rateStep_of_between hlo hhi]
      exact ⟨rfl, rfl⟩
  case source =>
    exact fun h => ⟨exec_tsyncExchange (tsyncSend_of_source (s := s.clear) h), exec_tsyncLoss (tsyncLost_of_source (s := s.clear) h)⟩
  case request =>
    exact fun hp hrst => ⟨fun h => exec_tsyncExchange (tsyncSend_due (s := s.clear) hp hrst h), fun h => exec_tsyncExchange (tsyncSend_early (s := s.clear) hp h)⟩
  case parent => exact fun w0 w1 hup htype hreq => controlIn_tsync_request w1 hup htype hreq
  case loss =>
    exact fun hsrc => ⟨fun h => exec_tsyncLoss (tsyncLost_due (s := s.clear) hsrc h), fun h => exec_tsyncLoss (tsyncLost_early (s := s.clear) h)⟩
  case other => exact fun h => exec_tsyncResponse (tsyncIn_of_other (s := s.clear) h)
  case response =>
    intro hp hrst
    have htaken := tsyncAnswered_tsyncTaken s.clear l (tsyncOffs s.clear t1 t2 t3)
    obtain hfar | hhi := Nat.lt_or_ge (64 * 16 * (tsyncOffs s.clear t1 t2 t3).length) (absSum (tsyncOffs s.clear t1 t2 t3))
    · obtain ⟨hle, hge, hgal, hqs, hcmds, hhops⟩ := htaken.stepped (tsyncOffs s.clear t1 t2 t3)
      have hnotNear : ¬ absSum (tsyncOffs s.clear t1 t2 t3) ≤ 64 * (tsyncOffs s.clear t1 t2 t3).length := by omega
      exact ⟨_, exec_tsyncResponse (tsyncIn_of_far (s := s.clear) hp hrst rfl hfar), hle, hge, hgal, hqs, hcmds, hhops,
        fun _ => ⟨tsyncStepped_sync, noted_tsyncStepped.time, congrArg TSync.offs noted_tsyncStepped.tsync, tsyncStepped_steps_taken⟩,
        fun h => absurd hfar (Nat.not_lt.mpr h), fun h => absurd h hnotNear, fun _ h => absurd hfar (Nat.not_lt.mpr h)⟩
    obtain hlo | hnear := Nat.lt_or_ge (64 * (tsyncOffs s.clear t1 t2 t3).length) (absSum (tsyncOffs s.clear t1 t2 t3))
    · obtain ⟨hle, hge, hgal, hqs, hcmds, hhops⟩ := htaken
      exact ⟨_, exec_tsyncResponse (tsyncIn_of_between (s := s.clear) hp hrst rfl hlo hhi), hle, hge, hgal, hqs, hcmds, hhops, fun h => absurd h (Nat.not_lt.mpr hhi),
        fun _ => ⟨rfl, rfl, rfl⟩, fun h => absurd hlo (Nat.not_lt.mpr h), fun _ _ => tsyncTaken_f (by decide) (by decide)⟩
    · obtain ⟨hle, hge, hgal, hqs, hcmds, hhops⟩ := htaken.locked
      exact ⟨_, exec_tsyncResponse (tsyncIn_of_near (s := s.clear) hp hrst rfl hnear), hle, hge, hgal, hqs, hcmds, hhops, fun h => absurd h (Nat.not_lt.mpr hhi),
        fun _ => ⟨rfl, rfl, rfl⟩, fun _ => State.f_setF_same .., fun h => absurd h (Nat.not_lt.mpr hnear)⟩

end Sys2Proof.Machine
end
